-- ==== Sys2Proof/Word.lean ====
section
/-! DEFINITION. The word types of the YZ1 and their plainest arithmetic. -/
namespace Sys2Proof

/-- One byte of any memory. -/
abbrev Byte := BitVec 8

/-- A 32-bit register word, vector lane or FP32 bit pattern. -/
abbrev Word32 := BitVec 32

/-- A scalar register, a code-store word or a device address. -/
abbrev Word64 := BitVec 64

end Sys2Proof
end

