-- ==== Sys2Proof/Operand.lean ====
section
/-! DEFINITION. The operand types that the commands of Syntax.lean carry: register fields of the Modido
formats (R53, R54) and the answers that come from outside the block. -/
namespace Sys2Proof

/-- A scalar register field, s0 to s31 (R46). -/
abbrev SReg := BitVec 5

/-- A vector register field, v0 to v15: bit 4 of the 5-bit field is zero (R54). -/
abbrev VReg := BitVec 4

/-- A ring field, 0 to 31 (R54). -/
abbrev RingNo := BitVec 5

/-- The second operand of a scalar op: the register form takes register b, the immediate form a
32-bit immediate (R568). -/
inductive Src2 where
  | reg (b : SReg)
  | imm (i : Word32)
deriving DecidableEq, Repr

/-- The ways in which an access to host memory fails (R267, R403). -/
inductive HostFault where
  | masterOff
  | unsupported
  | completerAbort
  | timeout
deriving DecidableEq, Repr

/-- How the host answered the accesses that one command makes to host memory. -/
inductive HostReply where
  | ok
  | fail (e : HostFault)
deriving DecidableEq, Repr

/-- What the host reaches in configuration space (R371, R372, R375): identity, class code, the Command register, Device Control,
the two AER status registers, and the Resizable BAR control of BAR2. -/
inductive ConfigReg where
  | identity
  | classCode
  | command
  | deviceControl
  | linkControl
  | aerUncorrectable
  | aerCorrectable
  | bar2Size
deriving DecidableEq, Repr

/-- Where a write of the host goes: an offset of BAR0, an offset of BAR4 (R375), a register of configuration space, or the
device time base, which a PTM dialogue sets to the host's time in ns (R38, R371). -/
inductive HostTarget where
  | bar0 (offset : Nat)
  | bar4 (offset : Nat)
  | config (r : ConfigReg)
  | time
deriving DecidableEq, Repr

/-- Where a haul packet unit that reaches a destination tile comes from: a running send of a tile of this
device, or the packets that a link port has brought in (R427). -/
inductive HaulSource where
  | tile (t id : Nat)
  | link (k : Nat)
deriving DecidableEq, Repr

/-- What the DRAM returns when it is asked once for a line (R451, R453): the line it answers from, where it is not the line asked
for; the bits it returns inverted, 0 to 511 of the data and 512 to 527 of the check; and whether link or on-die ECC reports an
error that it did not correct. -/
structure LineRead where
  source : Option Nat
  flips : List Nat
  reported : Bool
deriving DecidableEq, Repr

/-- What happens to one line access (R453, R454): bits of the stored line and of its stored check that have flipped in the DRAM
since, an error that link ECC corrects, and what the first and the second read return. -/
structure LineCheck where
  upset : List Nat
  linkCorrected : Bool
  first : LineRead
  second : LineRead
deriving DecidableEq, Repr

/-- A read as stored, and an access that nothing disturbs. -/
def LineRead.clean : LineRead := ⟨none, [], false⟩
def LineCheck.good : LineCheck := ⟨[], false, .clean, .clean⟩

/-- A monitored supply rail (R521). -/
inductive Rail where
  | input
  | core (bench : Nat)
deriving DecidableEq, Repr

/-- The causes for which firmware declares a tile failure or a transient error (R481, R482). -/
inductive FailCause where
  | bellTimeout
  | routerError
  | tileWord
  | memoryWord
deriving DecidableEq, Repr

/-- What the receiver of a drain reports to its sender (R478, R479): every leaf and the root verified, the number of the
first chunk whose leaf differs, or no free pair of foreign slots. -/
inductive DrainEnd where
  | verified
  | mismatch (chunk : Nat)
  | noSlot
deriving DecidableEq, Repr

/-- What an observer outside finds at the end of a dawn stage (R501): the supplies and rails in D0, the
pin voltage in mV in D1, the option block's CRC in D2, the boot ROM's finding in D3, the channels that
failed training and the ports that trained in D4, and the tiles that failed self-test in D5. -/
structure DawnInput where
  millivolts : Nat
  optionOk : Bool
  failedChannels : List Nat
  /-- Roads with the lanes that trained: 1 lanes 0 to 7, 2 lanes 8 to 15, 3 all 16 (R416). -/
  trainedRoads : List (Nat × BitVec 2)
  trainedEth : List Nat
  failedTiles : List Nat
  failedSpares : List Nat
  failedBenches : List Nat
deriving DecidableEq, Repr

/-- An address on the Ethernet side: an IP address, IPv4 in its mapped form, and a UDP port (R411, R437). -/
structure NetAddr where
  ip : BitVec 128
  port : BitVec 16
deriving DecidableEq, Repr

/-- What brought a pairing handshake: the hops it has made and, at an Ethernet port, the address it came from (R413). -/
structure HandshakeVia where
  hops : Nat
  source : NetAddr
deriving DecidableEq, Repr

/-- A data object at the DOE mailbox: its vendor, its type and its payload (R547). -/
structure DoeObject where
  vendor : BitVec 16
  kind : Byte
  payload : List Byte
deriving DecidableEq, Repr

/-- One refresh: its channel and bank, and the rate that MR4 of the package's hottest die gives (R445, R457). -/
structure RefreshCycle where
  channel : Nat
  bank : Nat
  rate : BitVec 4
deriving DecidableEq, Repr

/-- A frame of an Ethernet port (R435, R437, R440). `tag`: VLAN identifier and PCP. `udp`: source and destination port, none for a
frame that is not UDP. `ecn`: 2 is ECT(0), 3 is CE. -/
structure EthFrame where
  destMac : BitVec 48
  srcMac : BitVec 48
  tag : Option (BitVec 12 × BitVec 3)
  src : BitVec 128
  dest : BitVec 128
  ecn : BitVec 2
  udp : Option (BitVec 16 × BitVec 16)
  payload : List Byte
deriving DecidableEq, Repr

end Sys2Proof
end

