-- ==== Sys2Proof/Syntax.lean ====
section
/-! DEFINITION. The commands of the YZ1 block: one constructor per row of spec/opcode_table.json, with the
row's operands. `t` is a logical tile number, `n` the start-order number of a fetched packet (R404),
`q` a queue, `g` a sync group, `p` a haul road, `e` an Ethernet port. -/
namespace Sys2Proof

/-- One command to the block. Each docstring is the row's rule and summary. -/
inductive Instr where
  /-- ADD (R568): Scalar add of register a and the second operand into d, in register or immediate form. -/
  | add (t : Nat) (d a : SReg) (x : Src2)
  /-- SUB (R568): Scalar subtract of the second operand from register a into d. -/
  | sub (t : Nat) (d a : SReg) (x : Src2)
  /-- AND (R568): Scalar bitwise AND into d. -/
  | and (t : Nat) (d a : SReg) (x : Src2)
  /-- OR (R568): Scalar bitwise OR into d. -/
  | or (t : Nat) (d a : SReg) (x : Src2)
  /-- XOR (R568): Scalar bitwise XOR into d. -/
  | xor (t : Nat) (d a : SReg) (x : Src2)
  /-- SHL (R569): Shift left by bits [5:0] of the amount. -/
  | shl (t : Nat) (d a : SReg) (x : Src2)
  /-- SHR (R569): Logical shift right, filling with zeros. -/
  | shr (t : Nat) (d a : SReg) (x : Src2)
  /-- SRA (R569): Arithmetic shift right, filling with copies of bit 63. -/
  | sra (t : Nat) (d a : SReg) (x : Src2)
  /-- MUL (R569): Writes the low 64 bits of the product. -/
  | mul (t : Nat) (d a : SReg) (x : Src2)
  /-- MULH (R569): Writes the high 64 bits of the signed 128-bit product. -/
  | mulh (t : Nat) (d a : SReg) (x : Src2)
  /-- DIV (R52): Signed 64-bit divide rounding toward zero, with the defined results for divide by zero and overflow. -/
  | div (t : Nat) (d a : SReg) (x : Src2)
  /-- REM (R52): Signed 64-bit remainder with the sign of the dividend. -/
  | rem (t : Nat) (d a : SReg) (x : Src2)
  /-- SLT (R569): Writes 1 when a is less than the operand as a signed value, and 0 otherwise. -/
  | slt (t : Nat) (d a : SReg) (x : Src2)
  /-- SLTU (R569): Writes 1 when a is less than the operand as an unsigned value, and 0 otherwise. -/
  | sltu (t : Nat) (d a : SReg) (x : Src2)
  /-- LI (R568): Loads the sign-extended imm, or copies register b, into d. -/
  | li (t : Nat) (d : SReg) (x : Src2)
  /-- LUI (R568): Writes imm, or bits [31:0] of b, into bits [63:32] of d and keeps the low bits. -/
  | lui (t : Nat) (d : SReg) (x : Src2)
  /-- ADDI (R568): Adds a and the operand into d. -/
  | addi (t : Nat) (d a : SReg) (x : Src2)
  /-- SYS (R56): Reads a tile property chosen by the selector into d; selector 9 stalls until the count unit is present. -/
  | sys (t : Nat) (d a : SReg) (x : Src2)
  /-- LD (R570): Loads 8 bytes from tile memory at a + imm into d. -/
  | ld (t : Nat) (d a : SReg) (imm : Word32)
  /-- ST (R570): Stores register b to tile memory at a + imm. -/
  | st (t : Nat) (a b : SReg) (imm : Word32)
  /-- BEQ (R570): Branches to the target when a equals b. -/
  | beq (t : Nat) (a b : SReg) (target : BitVec 13)
  /-- BNE (R570): Branches to the target when a differs from b. -/
  | bne (t : Nat) (a b : SReg) (target : BitVec 13)
  /-- BLT (R570): Branches when a is less than b as signed values. -/
  | blt (t : Nat) (a b : SReg) (target : BitVec 13)
  /-- BGE (R570): Branches when a is greater than or equal to b as signed values. -/
  | bge (t : Nat) (a b : SReg) (target : BitVec 13)
  /-- BLTU (R570): Branches when a is less than b as unsigned values. -/
  | bltu (t : Nat) (a b : SReg) (target : BitVec 13)
  /-- BGEU (R570): Branches when a is greater than or equal to b as unsigned values. -/
  | bgeu (t : Nat) (a b : SReg) (target : BitVec 13)
  /-- JMP (R570): Jumps to an absolute target. -/
  | jmp (t : Nat) (target : BitVec 13)
  /-- JAL (R570): Writes the return address into link and jumps. -/
  | jal (t : Nat) (link : SReg) (target : BitVec 13)
  /-- JR (R570): Jumps to the address held in register a. -/
  | jr (t : Nat) (a : SReg)
  /-- HALT (R77): Halt instruction; outside the final bell it raises EARLY_HALT. -/
  | halt (t : Nat)
  /-- VADD_F32 (R571): Lane-wise FP32 add, with an optional norm tap. -/
  | vaddF32 (t : Nat) (d a b : VReg) (imm : Word32)
  /-- VSUB_F32 (R571): Lane-wise FP32 subtract. -/
  | vsubF32 (t : Nat) (d a b : VReg) (imm : Word32)
  /-- VMUL_F32 (R571): Lane-wise FP32 multiply. -/
  | vmulF32 (t : Nat) (d a b : VReg) (imm : Word32)
  /-- VFMA_F32 (R571): Lane-wise FP32 fused multiply-add with one rounding. -/
  | vfmaF32 (t : Nat) (d a b c : VReg) (imm : Word32)
  /-- VADD_BF (R571): Add on each BF16 half of every lane. -/
  | vaddBf (t : Nat) (d a b : VReg)
  /-- VSUB_BF (R571): Subtract on each BF16 half of every lane. -/
  | vsubBf (t : Nat) (d a b : VReg)
  /-- VMUL_BF (R571): Multiply on each BF16 half of every lane. -/
  | vmulBf (t : Nat) (d a b : VReg)
  /-- VFMA_BF (R571): Fused multiply-add on each BF16 half of every lane. -/
  | vfmaBf (t : Nat) (d a b c : VReg)
  /-- VADD_I32 (R571): Lane-wise integer add modulo 2^32. -/
  | vaddI32 (t : Nat) (d a b : VReg)
  /-- VSUB_I32 (R571): Lane-wise integer subtract modulo 2^32. -/
  | vsubI32 (t : Nat) (d a b : VReg)
  /-- VMUL_I32 (R571): Lane-wise low 32 bits of the integer product. -/
  | vmulI32 (t : Nat) (d a b : VReg)
  /-- VFMA_I32 (R571): Lane-wise low 32 bits of a × b + c. -/
  | vfmaI32 (t : Nat) (d a b c : VReg)
  /-- VCMP (R572): Compares lanes and writes a 32-bit lane mask into a scalar register. -/
  | vcmp (t : Nat) (d : SReg) (a b : VReg) (imm : Word32)
  /-- VSEL (R571): Selects lanes from a or b under a scalar mask. -/
  | vsel (t : Nat) (d a b : VReg) (c : SReg)
  /-- VCVT (R573): Converts each lane between non-MX formats under the chosen rounding. -/
  | vcvt (t : Nat) (d a b : VReg) (imm : Word32)
  /-- VBCAST (R571): Broadcasts the low 32 bits of a scalar to every lane. -/
  | vbcast (t : Nat) (d : VReg) (a : SReg)
  /-- VSHUF (R571): Permutes lanes by the indices in b. -/
  | vshuf (t : Nat) (d a b : VReg)
  /-- VRED (R572): Reduces the 32 lanes into a scalar by the selected reduction. -/
  | vred (t : Nat) (d : SReg) (a : VReg) (imm : Word32)
  /-- VLD (R571): Loads 128 bytes of tile memory into a vector register. -/
  | vld (t : Nat) (d : VReg) (a : SReg) (imm : Word32)
  /-- VST (R571): Stores a vector register to 128 bytes of tile memory. -/
  | vst (t : Nat) (a : SReg) (b : VReg) (imm : Word32)
  /-- MLDH (R142): Issues a held-operand load into a held buffer from a ring, claiming its units. -/
  | mldh (t : Nat) (ringA : RingNo) (imm : Word32)
  /-- MLDHT (R143): Issues a transposed held-operand load. -/
  | mldht (t : Nat) (ringA : RingNo) (imm : Word32)
  /-- MMUL (R68): Issues a dense product of passing rows against a held buffer, claiming the ring units. -/
  | mmul (t : Nat) (ringA : RingNo) (imm : Word32)
  /-- MSLB (R164): Issues a slab product after reading the directory entry, and checks the format pair and the units. -/
  | mslb (t : Nat) (ringA ringB : RingNo) (p : SReg) (imm : Word32)
  /-- MACC (R161): Issues an accumulator preload from a ring. -/
  | macc (t : Nat) (ringA : RingNo) (imm : Word32)
  /-- MCLR (R160): Issues a clear of accumulator rows, or a switch of the accumulator mode. -/
  | mclr (t : Nat) (imm : Word32)
  /-- MEPI (R575): Issues an epilogue-slot load and captures the issue-time mask fields. -/
  | mepi (t : Nat) (p : SReg) (imm : Word32)
  /-- MDRN (R166): Issues a drain of accumulator rows, reserving output and mask units. -/
  | mdrn (t : Nat) (ringD : RingNo) (imm : Word32)
  /-- MFLG (R163): Issues a read of the saturation and NaN flags, marking d pending. -/
  | mflg (t : Nat) (d : SReg) (imm : Word32)
  /-- MOVQ (R251): Checks a mover descriptor and queues it. -/
  | movq (t : Nat) (ringA : RingNo) (b : VReg)
  /-- MOVC (R69): Reads the mover's count of completed descriptors synchronously. -/
  | movc (t : Nat) (d : SReg)
  /-- SEND (R70): Checks a haul send and queues it, attributed to the current send group and index. -/
  | send (t : Nat) (ringA : RingNo) (dest p : SReg) (imm : Word32)
  /-- RSET (R71): Writes a ring descriptor from a vector register when the ring has nothing claimed or reserved. -/
  | rset (t : Nat) (b : VReg) (ringD : RingNo)
  /-- RGET (R71): Reads a ring field into a scalar register. -/
  | rget (t : Nat) (ringA : RingNo) (d : SReg) (imm : Word32)
  /-- RPUSH (R71): Stalls until the ring has room, then advances its tail. -/
  | rpush (t : Nat) (ringD : RingNo) (imm : Word32)
  /-- RPOP (R71): Stalls until the data is available and earlier consumers have advanced, then advances the head. -/
  | rpop (t : Nat) (ringA : RingNo) (imm : Word32)
  /-- RWAIT (R71): Stalls until the ring holds the given available units. -/
  | rwait (t : Nat) (ringA : RingNo) (imm : Word32)
  /-- RSPACE (R71): Stalls until the ring has the given free space. -/
  | rspace (t : Nat) (ringD : RingNo) (imm : Word32)
  /-- RNGV (R316): Issues a fill of a vector register with random words, optionally in nibble mode. -/
  | rngv (t : Nat) (index : SReg) (d : VReg) (p : SReg) (imm : Word32)
  /-- RNGR (R72): Issues a fill of ring units with random words, reserving them. -/
  | rngr (t : Nat) (index : SReg) (ringD : RingNo) (p : SReg) (imm : Word32)
  /-- FENCE (R73): Stalls until earlier instructions of the selected engines have completed and their writes are visible. -/
  | fence (t : Nat) (imm : Word32)
  /-- BELL (R287): Arrives at a cut, haul, rolled or final bell with a payload, checking the bell sequence. -/
  | bell (t : Nat) (b : VReg) (imm : Word32)
  /-- EXPECT (R284): Sets the number of end markers awaited on a group. -/
  | expect (t : Nat) (p : SReg) (imm : Word32)
  /-- XRDS (R74): Issues an 8-byte reach read. -/
  | xrds (t : Nat) (d a : SReg) (imm : Word32)
  /-- XRDV (R74): Issues a 128-byte reach read. -/
  | xrdv (t : Nat) (d : VReg) (a : SReg) (imm : Word32)
  /-- XWRS (R74): Issues an 8-byte reach write. -/
  | xwrs (t : Nat) (a b : SReg) (imm : Word32)
  /-- XWRV (R74): Issues a 128-byte reach write. -/
  | xwrv (t : Nat) (a : SReg) (b : VReg) (imm : Word32)
  /-- MATRIX_DISPATCH (R148): The matrix engine dispatches the queue-head instruction to its stage once that stage can accept it. -/
  | matrixDispatch (t : Nat)
  /-- HELD_LOAD_DONE (R144): A held buffer finishes loading; the ring head advances in issue order. -/
  | heldLoadDone (t : Nat)
  /-- MMUL_COMPLETE (R60): An MMUL reads its last passing row and completes, advancing the head and releasing its claim. -/
  | mmulComplete (t : Nat)
  /-- MSLB_COMPLETE (R165): The last load of a slab executes and the slab product completes. -/
  | mslbComplete (t : Nat)
  /-- MACC_COMPLETE (R161): The preloaded accumulator rows are written and the MACC completes. -/
  | maccComplete (t : Nat)
  /-- MCLR_COMPLETE (R160): A clear or mode switch finishes its feed cycles. -/
  | mclrComplete (t : Nat)
  /-- MEPI_INSTALL (R170): The loader installs an epilogue record in a slot, validates it and reads any scale; an invalid record faults. -/
  | mepiInstall (t : Nat)
  /-- DRAIN_UNIT_WRITE (R167): The drain writes an output unit and advances the tail past every contiguous unit already written. -/
  | drainUnitWrite (t u : Nat)
  /-- MDRN_COMPLETE (R173): The drain finishes its last row, performs the amax read and write, and completes. -/
  | mdrnComplete (t : Nat)
  /-- MFLG_COMPLETE (R163): After earlier matrix work completes, the flags are written into the register. -/
  | mflgComplete (t : Nat)
  /-- MOVER_DESCRIPTOR_START (R262): A descriptor starts in a free slot, its barrier allowing, and reads its parameter block and checks its ranges. -/
  | moverDescriptorStart (t : Nat)
  /-- MOVER_UNIT_WRITE (R264): A mover writes a unit into a ring once room exists, advancing the tail. -/
  | moverUnitWrite (t slot : Nat) (h : HostReply)
  /-- MOVER_DESCRIPTOR_COMPLETE (R265): A descriptor completes once its writes are acknowledged, and writes its status word. -/
  | moverDescriptorComplete (t slot : Nat) (h : HostReply)
  /-- PAGE_FILL_COMPLETE (R117): A page fill or write-back finishes, setting present or failed and releasing the waiting accesses. -/
  | pageFillComplete (t : Nat)
  /-- SEND_START (R277): The send port starts a queued send in a free running slot, with no earlier send conflicting. -/
  | sendStart (t : Nat)
  /-- HAUL_DELIVERY_UNIT (R280): A haul packet unit lands in the destination ring when room exists, counting any end marker. -/
  | haulDeliveryUnit (src : HaulSource) (dst : Nat)
  /-- SEND_RESPONSE_ARRIVE (R282): An acknowledgement or error response reaches the source, completing the send when all destinations have answered. -/
  | sendResponseArrive (t id dst : Nat)
  /-- SEND_FAIL_RECORD_TAKE (R302): Firmware takes a pending send-failure record from a tile, freeing a waiting send slot. -/
  | sendFailRecordTake (t : Nat)
  /-- REACH_TARGET_ACCESS (R125): An inbound reach is served at the target bank, or held until its backed page is present. -/
  | reachTargetAccess (t id : Nat)
  /-- REACH_CONTROL_SERVICE (R574): The control complex serves a reach to the scale window, sequence window or bank status word. -/
  | reachControlService (t id : Nat)
  /-- REACH_REPLY_ARRIVE (R124): A reach reply or write acknowledgement returns to the initiator, writing its register or raising a fault. -/
  | reachReplyArrive (t id : Nat)
  /-- RANDOM_FILL_DONE (R316): An RNGV writes its register or an RNGR finishes writing its units. -/
  | randomFillDone (t : Nat)
  /-- LANE_ARMING_DONE (R327): Free-mode arming of a tile's lanes finishes, releasing waiting draws. -/
  | laneArmingDone (t : Nat)
  /-- KEY_DERIVED (R330): Firmware finishes deriving the key from a new keyed seed and distributes it to the tiles. -/
  | keyDerived
  /-- NORM_POST (R362): A norm-tap post reaches the norm window and adds exactly to its sum. -/
  | normPost (t : Nat)
  /-- RING_STALL (R112): A ring's stall timer reaches its threshold, raising the event once per stall. -/
  | ringStall (t r : Nat)
  /-- ECC_CORRECTION_WRITEBACK (R127): A corrected word is written back when its bank is next free. -/
  | eccCorrectionWriteback (t : Nat)
  /-- SCRUB_ROW (R129): The scrubber reads a row on an idle bank and corrects or records errors. -/
  | scrubRow (t : Nat)
  /-- MEMORY_INIT_DONE (R131): The tile memory initialiser finishes and the tile accepts accesses. -/
  | memoryInitDone (t : Nat)
  /-- BELL_CONDITION_HOLDS (R288): A group's local completion condition comes to hold; the timer stops and bell frames go to peers. -/
  | bellConditionHolds (g : Nat)
  /-- BELL_FIRE (R290): A bell fires, releasing the members with the reduced payload and restarting the bell timer. -/
  | bellFire (g : Nat)
  /-- BELL_TIMEOUT (R292): A group's bell timer expires and firmware probes the unready members. -/
  | bellTimeout (g : Nat)
  /-- PROBE_NO_REPLY (R292): A probed tile gives no reply within 10 µs, and the timeout is attributed to it. -/
  | probeNoReply (g t : Nat)
  /-- BELL_FRAME_RECEIVE (R430): A peer bell frame arrives and is stored against its bell, or discarded. -/
  | bellFrameReceive (frame : List Byte)
  /-- STEP_END (R41): Every loaded group has passed its final bell; the updates, the log and the completion follow. -/
  | stepEnd
  /-- PROGRAM_FAULT_HALT (R80): Firmware stops bell timers and halts every loaded S-core after a program fault. -/
  | programFaultHalt
  /-- FAULT_ENGINE_WAIT_EXPIRY (R80): The 1 ms wait expires; remaining engine work is ended by engine reset and the command completes TILE_FAULT. -/
  | faultEngineWaitExpiry
  /-- LOAD_IMAGE (R91): Checks and loads a program image into the tiles and blocks. -/
  | loadImage (n : Nat) (h : HostReply)
  /-- RUN (R400): Runs consecutive steps from a batch table, stopping at the first status other than OK. -/
  | run (n : Nat)
  /-- STEP (R41): Checks and starts one training step, logs the batch when protected, and releases the tiles. -/
  | step (n : Nat)
  /-- EVAL (R94): Checks and runs an evaluation image between steps. -/
  | eval (n : Nat) (h : HostReply)
  /-- DRAIN (R477): Drains the read bank to a partner copy and enables replay protection on success. -/
  | drain (n : Nat)
  /-- RESTORE (R485): Checks a copy, restores the bank and state from it, and enters the replay state. -/
  | restore (n : Nat) (manifest : Option (List Byte))
  /-- PAIR (R413): Creates the self entry, or handshakes a partner entry and applies the feed-group rule. -/
  | pair (n : Nat)
  /-- UNPAIR (R414): Empties a partner entry. -/
  | unpair (n : Nat)
  /-- SET_SEEDS (R330): Writes the keyed and free seeds between steps. -/
  | setSeeds (n : Nat)
  /-- SET_SCALES (R576): Writes scale-table records and the loss scale between steps. -/
  | setScales (n : Nat) (h : HostReply)
  /-- COPY (R400): Copies bytes between host memory and device memory. -/
  | copy (n : Nat)
  /-- FENCE_COMMAND (R304): Host fence ordering commands of one queue or of all queues. -/
  | fenceCommand (n : Nat)
  /-- QUERY (R402): Writes device state records for a selector into a host buffer. -/
  | query (n : Nat) (h : HostReply)
  /-- READ_TELEMETRY (R402): Writes and removes pending event records, oldest first. -/
  | readTelemetry (n : Nat) (h : HostReply)
  /-- SET_POWER (R515): Sets the power state, division or cap, running dusk where needed. -/
  | setPower (n : Nat)
  /-- RESET_BLOCK (R506): Resets one tile, bench, half, link port or controller group behind its isolation wrapper. -/
  | resetBlock (n : Nat)
  /-- RESET_DEVICE (R407): Command-level reset of the whole device, optionally keeping resident pages. -/
  | resetDevice (n : Nat)
  /-- RETIRE_TILE (R482): Retires a tile between steps and runs the row shift and spare fill. -/
  | retireTile (n : Nat)
  /-- ATTEST (R546): Writes a signed attestation report with the endorsement into a host buffer. -/
  | attest (n : Nat)
  /-- UPDATE_FIRMWARE (R539): Checks a firmware image and writes it into a flash bank. -/
  | updateFirmware (n : Nat) (h : HostReply)
  /-- PACKET_FETCH (R404): The scheduler selects and fetches the next announced packet and checks its sequence number. -/
  | packetFetch (h : HostReply)
  /-- COMPLETION_WRITE (R394): A completion is written into a free CQ slot, and the MSI-X vector is raised. -/
  | completionWrite (q : Nat) (h : HostReply)
  /-- SQ_TAIL_DOORBELL (R391): The host announces submission slots up to the written index. -/
  | sqTailDoorbell (q index : Nat) (writes : List (Nat × Byte))
  /-- CQ_HEAD_DOORBELL (R391): The host frees completion slots before the written index. -/
  | cqHeadDoorbell (q index : Nat)
  /-- QUEUE_ENABLE (R390): Writing enable to 1 resets the queue pointers and activates the queue. -/
  | queueEnable (q : Nat) (value : Word32)
  /-- QUEUE_DISABLE (R393): Writing enable to 0 stops fetching, and the queue drains to disabled. -/
  | queueDisable (q : Nat) (value : Word32)
  /-- QUEUE_DRAINED (R393): A disabling queue's running commands complete and the queue reads disabled. -/
  | queueDrained (q : Nat)
  /-- MSIX_UNMASK (R408): Unmasking a vector with its PBA bit set sends the pending message. -/
  | msixUnmask (vector : Nat)
  /-- REGISTER_WRITE (R11): A BAR0 write to a register with no behaviour of its own, acting under its access code. -/
  | registerWrite (target : HostTarget) (bytes : List Byte)
  /-- BROADCAST_WRITE (R382): A write through a broadcast window reaches every in-service tile its selector covers. -/
  | broadcastWrite (w offset : Nat) (value : Word32)
  /-- HALT_WRITE (R84): Writing the halt bit stops or releases the S-core. -/
  | haltWrite (t : Nat) (value : Word32)
  /-- SINGLE_STEP (R84): Issues one instruction while the tile is halted. -/
  | singleStep (t : Nat)
  /-- CLEAR_FAULT (R84): Clears TILE_FAULT_STATUS and the fault detail registers. -/
  | clearFault (t : Nat)
  /-- CODE_WINDOW_WRITE (R88): An expert write into the code store through the code window, bypassing firmware's checks. -/
  | codeWindowWrite (t index : Nat) (value : Word64)
  /-- RING_DESC_WRITE (R133): An expert write of a ring descriptor, ignored while counters are nonzero and invalidated if malformed. -/
  | ringDescWrite (t r k : Nat) (value : Word32)
  /-- ECC_INJECT_ARM (R137): Injects flipped data bits into a word. -/
  | eccInjectArm (t : Nat) (value : Word32)
  /-- SCALE_ENTRY_WRITE (R576): An expert write of a scale-table entry, stored under the storage rules. -/
  | scaleEntryWrite (n k : Nat) (value : Word32)
  /-- SEED_KEYED_WRITE (R333): A write to SEED_KEYED_HI starts key derivation. -/
  | seedKeyedWrite (value : Word32)
  /-- SEED_FREE_WRITE (R333): A write to SEED_FREE_HI arms every tile of a loaded free-mode image. -/
  | seedFreeWrite (value : Word32)
  /-- PARTNER_COMMIT (R441): Writes PARTNER_DATA into the selected entry with no handshake. -/
  | partnerCommit
  /-- PARTNER_EMPTY (R441): Empties the selected partner entry. -/
  | partnerEmpty
  /-- DEVICE_RESET (R530): An expert command reset through RESET_CONTROL. -/
  | deviceReset (value : Word32)
  /-- RELEASE_HOLD (R504): Leaves recovery hold, clears the reset history and continues dawn at D5. -/
  | releaseHold
  /-- BLOCK_RESET_START (R506): An expert block reset started through BLOCK_RESET. -/
  | blockResetStart (value : Word32)
  /-- POWER_CONTROL_APPLY (R531): Applies the state and division to the benches in bench_mask. -/
  | powerControlApply (value : Word32)
  /-- RECOVERY_PIECE_READY (R540): The ROM takes the next 32 KiB recovery piece from the window. -/
  | recoveryPieceReady
  /-- RECOVERY_FINISH (R540): The ROM writes and verifies the recovery image and boots from it on success. -/
  | recoveryFinish
  /-- BAR2_READ (R385): A host read through the main-memory aperture. -/
  | bar2Read (offset length : Nat)
  /-- BAR2_WRITE (R385): A host write through the main-memory aperture. -/
  | bar2Write (offset : Nat) (bytes : List Byte)
  /-- DOE_REQUEST (R547): A DOE attestation request returns the signed report. -/
  | doeRequest (object : DoeObject)
  /-- ATTEST_SIGN_DONE (R548): The root of trust finishes signing one report, and the next waiting request begins. -/
  | attestSignDone (h : HostReply)
  /-- D3HOT_WRITE (R520): The host writes D3hot, starting device-scope dusk to Midnight. -/
  | d3hotWrite
  /-- D0_WRITE (R520): The host writes D0, leaving Midnight. -/
  | d0Write
  /-- MAIN_MEMORY_ACCESS (R447): A controller serves a line access, with its check-cache fill and check verification. -/
  | mainMemoryAccess (addr : Nat) (bytes : Option (List Byte)) (consumer : BitVec 4) (check : LineCheck)
  /-- DRAM_REFRESH (R457): Per-bank refresh runs at the MR4 interval. -/
  | dramRefresh (cycle : RefreshCycle)
  /-- PATROL_SCRUB (R456): Patrol scrub reads a data line in an idle slot. -/
  | patrolScrub (addr : Nat) (check : LineCheck)
  /-- CHANNEL_RETRAIN (R459): A channel retrains from its oscillator readings. -/
  | channelRetrain (channel : Nat)
  /-- BANK_HOLD_RELEASE (R344): A held write-alias write proceeds once the drain has read its region. -/
  | bankHoldRelease (region : Nat)
  /-- DRAIN_SNAPSHOT_DONE (R477): The snapshot copy completes with its leaf table and manifest, and shipping begins. -/
  | drainSnapshotDone
  /-- DRAIN_CHUNK_RECEIVE (R478): The receiver writes a chunk into the foreign slot and verifies its leaf. -/
  | drainChunkReceive (manifest : List Byte) (index : Nat) (chunk leaf : List Byte)
  /-- DRAIN_VERIFIED (R479): The receiver verifies the root and the drain completes, recording its outcome. -/
  | drainVerified (owner : Option Word64) (outcome : DrainEnd)
  /-- TILE_FAILURE (R482): Firmware declares a failure or transient cause, holds the step and runs the repair course. -/
  | tileFailure (t : Nat) (cause : FailCause)
  /-- SPARE_FILL_COMPLETE (R482): The fill of a spare finishes, and the next queued failure or the replay follows. -/
  | spareFillComplete
  /-- REPAIR_FRAME_RECEIVE (R483): A peer receives a repair frame ordering hold, resume or abandon. -/
  | repairFrameReceive (frame : List Byte)
  /-- REPAIR_HOLD_TIMEOUT (R483): With no repair frame for 1 s after hold, the peer abandons. -/
  | repairHoldTimeout
  /-- SPOIL_MAP_FLASH_DONE (R490): The spoil-map flash write completes. -/
  | spoilMapFlashDone
  /-- LINK_FLIT_RECEIVE (R421): A haul-road flit arrives, is checked, and delivers or forwards its packets and credits. -/
  | linkFlitReceive (p : Nat) (flit : List Byte)
  /-- LINK_RETRY_LIMIT (R422): Eight consecutive retries of one flit take the port down. -/
  | linkRetryLimit (p : Nat)
  /-- LINK_SILENCE_TIMEOUT (R422): 100 µs without a valid flit takes the port down. -/
  | linkSilenceTimeout (p : Nat)
  /-- LINK_RETRAINED (R422): A down port comes back up and resends its replay buffer. -/
  | linkRetrained (p : Nat) (lanes : BitVec 2)
  /-- LINK_FAILED (R422): A port not back within 10 ms fails, failing its sends and partner entries. -/
  | linkFailed (p : Nat)
  /-- PAIRING_HANDSHAKE_RECEIVE (R413): A pairing handshake arrives and is answered or relayed. -/
  | pairingHandshakeReceive (p : Nat) (answer : Bool) (identity target : Word64) (feed : BitVec 9) (via : HandshakeVia)
  /-- PAIR_ANSWER_TIMEOUT (R413): No handshake answer within 100 ms; the entry returns to empty. -/
  | pairAnswerTimeout
  /-- FEED_WARNING_RECEIVE (R432): A partner's feed-warning notice arrives and is flagged. -/
  | feedWarningReceive (identity : Word64) (feed : Byte) (time : Word64) (recovered : Bool)
  /-- DATAGRAM_RECEIVE (R438): A transport datagram arrives and its slots are delivered in PSN order. -/
  | datagramReceive (e : Nat) (ce : Bool) (frame : EthFrame)
  /-- RETRANSMIT_TIMEOUT (R438): An unacknowledged datagram is resent with the doubled timeout, and the context fails after eight. -/
  | retransmitTimeout (partner psn : Nat)
  /-- ACK_TIMER (R438): The receiver sends an acknowledgement after 10 µs. -/
  | ackTimer (partner : Nat)
  /-- RATE_TIMER (R440): Every 50 µs without ece the sending rate rises by 5 Gb/s. -/
  | rateTimer (partner : Nat)
  /-- PAUSE_FRAME_RECEIVE (R436): A PFC pause frame is honoured on the configured priority. -/
  | pauseFrameReceive (e priority : Nat) (quanta : BitVec 16)
  /-- ARP_ND_REQUEST (R435): The port answers an ARP request or Neighbor Solicitation for its own address. -/
  | arpNdRequest (e : Nat) (v6 : Bool) (address : BitVec 128)
  /-- POWER_ON_RESET (R498): The first input rises from absent, and dawn starts at D0. -/
  | powerOnReset (v48 : Bool)
  /-- SUPPLY_RESET (R521): A rail reaches its reset level, resetting the module. -/
  | supplyReset (rail : Rail) (auxStands : Bool)
  /-- THERMAL_RESET (R526): A junction reaches 115 °C and the device holds in reset. -/
  | thermalReset (bench : Nat)
  /-- THERMAL_COOLED (R526): Every sensor reads below 90 °C and dawn starts at D0. -/
  | thermalCooled
  /-- PERST_N_ASSERT (R498): PERST_N held for at least 1 µs resets the device. -/
  | perstNAssert
  /-- PERST_N_RELEASE (R373): PERST_N release starts dawn and the readiness course. -/
  | perstNRelease
  /-- HOT_RESET (R498): A PCIe hot reset on the link resets the device. -/
  | hotReset
  /-- FLR (R498): Function Level Reset, with dawn from D4. -/
  | flr
  /-- WATCHDOG_RESET (R500): An unserviced management-core watchdog resets the device and reloads firmware. -/
  | watchdogReset
  /-- DEBUG_RESET (R500): The reset instruction over unlocked JTAG. -/
  | debugReset
  /-- DAWN_STAGE_COMPLETE (R501): A dawn stage finishes and the next begins, up to D6 and readiness. -/
  | dawnStageComplete (i : DawnInput)
  /-- TWILIGHT_START (R522): A rail falls below its warning level; benches divide, a log entry opens and notices go out. -/
  | twilightStart (rail : Rail) (millivolts : Nat)
  /-- TWILIGHT_RELEASE (R522): After 20 µs above warning the twilight division is released and the event closes. -/
  | twilightRelease (rail : Rail) (lowest : Nat)
  /-- POWER_SAMPLE (R525): Input power is measured every 100 µs and the cap control slows or speeds benches. -/
  | powerSample (average hottest : Nat) (below10ms : Bool)
  /-- THERMAL_THRESHOLD (R526): A junction crosses 100 or 108 °C and the bench's thermal division changes. -/
  | thermalThreshold (bench celsius : Nat)
  /-- THERMAL_SPEEDUP (R526): After 10 ms below 97 °C a bench speeds up one step. -/
  | thermalSpeedup (bench celsius : Nat)
  /-- UNLOCK_CHALLENGE_READ (R549): UNLOCK issues a fresh 40-byte challenge. -/
  | unlockChallengeRead (entropy : BitVec 256)
  /-- UNLOCK_RESPONSE (R550): The root of trust verifies an unlock response, then grants scope and extends slot 6, or rejects it. -/
  | unlockResponse (response : List Byte)
  /-- UNLOCK_TIMEOUT (R549): A challenge expires after 60 s without a response. -/
  | unlockTimeout
  /-- FEED_GROUP_WRITE (R566): The BMC writes the feed group over the sideband. -/
  | feedGroupWrite (value : BitVec 9)
  /-- MCTP_CONTROL (R564): Endpoint discovery and EID assignment over the sideband. -/
  | mctpControl (assign : Option Byte)
  /-- PLDM_SENSOR_READ (R565): A PLDM request for a numeric sensor reading. -/
  | pldmSensorRead (sensor : Nat)
  /-- SIDEBAND_VENDOR_PACKET (R564): A vendor-defined MCTP message carrying a command packet or a recovery piece. -/
  | sidebandVendorPacket (message : List Byte)
  /-- SENSOR_REFRESH (R565): The sensor readings refresh every 100 ms and thresholds are checked. -/
  | sensorRefresh (readings : List Nat)
  /-- ALERT_RESPONSE_READ (R567): The board reads the Alert Response Address and ALERT_N is released. -/
  | alertResponseRead
  /-- ILLEGAL_INSN (R55): The S-core reaches an instruction whose class is reserved or whose op is undefined and raises ILLEGAL_INSN. -/
  | illegalInsn (t : Nat) (word : Word64)
  /-- BLOCK_RESET_COMPLETE (R506): A block reset finishes its reset, the isolation wrapper opens and RESET_BLOCK completes. -/
  | blockResetComplete (kind index : Nat)
  /-- POWER_TRANSITION_COMPLETE (R518): Dusk into Night-hold or Midnight, or the exit back to Noon, finishes and the power state changes. -/
  | powerTransitionComplete
  /-- COPY_COMPLETE (R400): A COPY finishes moving its bytes and completes with its result or error status. -/
  | copyComplete (n : Nat) (h : HostReply)
  /-- RESTORE_COMPLETE (R486): The restore finishes writing and verifying the copy and sets U, scales, log and replay state, or fails DIGEST_MISMATCH. -/
  | restoreComplete (n : Nat) (copy : Option (List Byte))
  /-- FIRMWARE_WRITE_COMPLETE (R539): The flash write of UPDATE_FIRMWARE finishes and the bank is verified, completing the command. -/
  | firmwareWriteComplete (n : Nat)
  /-- ETHERNET_LINK_CHANGE (R434): An Ethernet port finishes auto-negotiation and training to up, or loses its link. -/
  | ethernetLinkChange (e : Nat) (up : Bool) (mode : BitVec 2)
  /-- SREFCLK_CHANGE (R561): The SerDes reference clock is lost or returns, disabling or re-enabling every haul road and Ethernet port. -/
  | srefclkChange (present : Bool)
  /-- PLDM_EVENT_POLL (R567): The board polls a PLDM event over I3C, reading the condition and releasing ALERT_N. -/
  | pldmEventPoll
deriving DecidableEq, Repr

end Sys2Proof
end

