-- ==== Sys2Proof/Decode.lean ====
section
/-! DEFINITION. The Modido encodings (R53 to R55, R67 to R74, R568 to R571): the word of each tile instruction,
the instruction of each word, and `decodeTableWord`, which the table's rows leave empty (no row gives bits). -/
namespace Sys2Proof

/-- Format A or E: class, op, four 5-bit fields, imm (R53). -/
def encA (cls : BitVec 4) (op : BitVec 8) (a b c d : BitVec 5) (imm : Word32) : Word64 :=
  cls ++ op ++ a ++ b ++ c ++ d ++ imm

/-- Format B: class, op, a, b, link, 24 reserved zeros, target (R53). -/
def encB (cls : BitVec 4) (op : BitVec 8) (a b l : BitVec 5) (target : BitVec 13) : Word64 :=
  cls ++ op ++ a ++ b ++ l ++ (0 : BitVec 24) ++ target

/-- A vector register in a 5-bit field: bit 4 is zero (R54). -/
def vfield (r : VReg) : BitVec 5 := (0 : BitVec 1) ++ r

/-- A scalar op: the register form, or the immediate form at op + 0x40 (R568). -/
def encS (op : BitVec 8) (d a : SReg) : Src2 → Word64
  | .reg b => encA 0 op d a b 0 0
  | .imm i => encA 0 (op + 0x40) d a 0 0 i

/-- The word of a tile instruction; none for every other command. -/
def encodeInsn : Instr → Option Word64
  | .add _ d a x => some (encS 0x01 d a x)
  | .sub _ d a x => some (encS 0x02 d a x)
  | .and _ d a x => some (encS 0x03 d a x)
  | .or _ d a x => some (encS 0x04 d a x)
  | .xor _ d a x => some (encS 0x05 d a x)
  | .shl _ d a x => some (encS 0x06 d a x)
  | .shr _ d a x => some (encS 0x07 d a x)
  | .sra _ d a x => some (encS 0x08 d a x)
  | .mul _ d a x => some (encS 0x09 d a x)
  | .mulh _ d a x => some (encS 0x0a d a x)
  | .div _ d a x => some (encS 0x0b d a x)
  | .rem _ d a x => some (encS 0x0c d a x)
  | .slt _ d a x => some (encS 0x0d d a x)
  | .sltu _ d a x => some (encS 0x0e d a x)
  | .li _ d x => some (encS 0x0f d 0 x)
  | .lui _ d x => some (encS 0x10 d 0 x)
  | .addi _ d a x => some (encS 0x11 d a x)
  | .sys _ d a x => some (encS 0x12 d a x)
  | .beq _ a b g => some (encB 1 0x03 a b 0 g)
  | .bne _ a b g => some (encB 1 0x04 a b 0 g)
  | .blt _ a b g => some (encB 1 0x05 a b 0 g)
  | .bge _ a b g => some (encB 1 0x06 a b 0 g)
  | .bltu _ a b g => some (encB 1 0x07 a b 0 g)
  | .bgeu _ a b g => some (encB 1 0x08 a b 0 g)
  | .jmp _ g => some (encB 1 0x09 0 0 0 g)
  | .jal _ l g => some (encB 1 0x0A 0 0 l g)
  | .ld _ a b imm => some (encA 1 0x01 a b 0 0 imm)
  | .st _ b c imm => some (encA 1 0x02 0 b c 0 imm)
  | .jr _ b => some (encA 1 0x0b 0 b 0 0 0)
  | .halt _ => some (encA 1 0x0c 0 0 0 0 0)
  | .vaddF32 _ a b c imm => some (encA 2 0x01 (vfield a) (vfield b) (vfield c) 0 imm)
  | .vsubF32 _ a b c imm => some (encA 2 0x02 (vfield a) (vfield b) (vfield c) 0 imm)
  | .vmulF32 _ a b c imm => some (encA 2 0x03 (vfield a) (vfield b) (vfield c) 0 imm)
  | .vfmaF32 _ a b c e imm => some (encA 2 0x04 (vfield a) (vfield b) (vfield c) (vfield e) imm)
  | .vaddBf _ a b c => some (encA 2 0x05 (vfield a) (vfield b) (vfield c) 0 0)
  | .vsubBf _ a b c => some (encA 2 0x06 (vfield a) (vfield b) (vfield c) 0 0)
  | .vmulBf _ a b c => some (encA 2 0x07 (vfield a) (vfield b) (vfield c) 0 0)
  | .vfmaBf _ a b c e => some (encA 2 0x08 (vfield a) (vfield b) (vfield c) (vfield e) 0)
  | .vaddI32 _ a b c => some (encA 2 0x09 (vfield a) (vfield b) (vfield c) 0 0)
  | .vsubI32 _ a b c => some (encA 2 0x0a (vfield a) (vfield b) (vfield c) 0 0)
  | .vmulI32 _ a b c => some (encA 2 0x0b (vfield a) (vfield b) (vfield c) 0 0)
  | .vfmaI32 _ a b c e => some (encA 2 0x0c (vfield a) (vfield b) (vfield c) (vfield e) 0)
  | .vcmp _ a b c imm => some (encA 2 0x0d a (vfield b) (vfield c) 0 imm)
  | .vsel _ a b c e => some (encA 2 0x0e (vfield a) (vfield b) (vfield c) e 0)
  | .vcvt _ a b c imm => some (encA 2 0x0f (vfield a) (vfield b) (vfield c) 0 imm)
  | .vbcast _ a b => some (encA 2 0x10 (vfield a) b 0 0 0)
  | .vshuf _ a b c => some (encA 2 0x11 (vfield a) (vfield b) (vfield c) 0 0)
  | .vred _ a b imm => some (encA 2 0x12 a (vfield b) 0 0 imm)
  | .vld _ a b imm => some (encA 2 0x13 (vfield a) b 0 0 imm)
  | .vst _ b c imm => some (encA 2 0x14 0 b (vfield c) 0 imm)
  | .mldh _ a imm => some (encA 3 0x01 a 0 0 0 imm)
  | .mldht _ a imm => some (encA 3 0x02 a 0 0 0 imm)
  | .mmul _ a imm => some (encA 3 0x03 a 0 0 0 imm)
  | .mslb _ a b e imm => some (encA 3 0x04 a b 0 e imm)
  | .macc _ a imm => some (encA 3 0x05 a 0 0 0 imm)
  | .mclr _ imm => some (encA 3 0x06 0 0 0 0 imm)
  | .mepi _ e imm => some (encA 3 0x07 0 0 0 e imm)
  | .mdrn _ c imm => some (encA 3 0x08 0 0 c 0 imm)
  | .mflg _ a imm => some (encA 3 0x09 a 0 0 0 imm)
  | .movq _ a b => some (encA 4 0x01 a (vfield b) 0 0 0)
  | .movc _ c => some (encA 4 0x02 0 0 c 0 0)
  | .send _ a b e imm => some (encA 5 0x01 a b 0 e imm)
  | .rset _ b c => some (encA 6 0x01 0 (vfield b) c 0 0)
  | .rget _ a c imm => some (encA 6 0x02 a 0 c 0 imm)
  | .rpush _ c imm => some (encA 6 0x03 0 0 c 0 imm)
  | .rpop _ a imm => some (encA 6 0x04 a 0 0 0 imm)
  | .rwait _ a imm => some (encA 6 0x05 a 0 0 0 imm)
  | .rspace _ c imm => some (encA 6 0x06 0 0 c 0 imm)
  | .rngv _ b c e imm => some (encA 7 0x01 0 b (vfield c) e imm)
  | .rngr _ b c e imm => some (encA 7 0x02 0 b c e imm)
  | .fence _ imm => some (encA 8 0x01 0 0 0 0 imm)
  | .bell _ b imm => some (encA 8 0x02 0 (vfield b) 0 0 imm)
  | .expect _ e imm => some (encA 8 0x03 0 0 0 e imm)
  | .xrds _ a b imm => some (encA 9 0x01 a b 0 0 imm)
  | .xrdv _ a b imm => some (encA 9 0x02 (vfield a) b 0 0 imm)
  | .xwrs _ b c imm => some (encA 9 0x03 0 b c 0 imm)
  | .xwrv _ b c imm => some (encA 9 0x04 0 b (vfield c) 0 imm)
  | _ => none

/-- The fields of an instruction word (R53). -/
structure Fields where
  cls : BitVec 4
  op : BitVec 8
  f1 : BitVec 5
  f2 : BitVec 5
  f3 : BitVec 5
  f4 : BitVec 5
  imm : Word32
  target : BitVec 13
  zeroB : BitVec 24
deriving DecidableEq, Repr

def fieldsOf (w : Word64) : Fields :=
  { cls := w.extractLsb' 60 4, op := w.extractLsb' 52 8, f1 := w.extractLsb' 47 5, f2 := w.extractLsb' 42 5,
    f3 := w.extractLsb' 37 5, f4 := w.extractLsb' 32 5, imm := w.extractLsb' 0 32, target := w.extractLsb' 0 13,
    zeroB := w.extractLsb' 13 24 }

/-- Answers the instruction when the unused fields are zero (R54, R55). -/
def whenZero (c : Bool) (i : Option Instr) : Option Instr := if c then i else none

/-- A vector field; none when bit 4 is set (R54). -/
def vreg? (f : BitVec 5) : Option VReg := if f.msb then none else some (f.extractLsb' 0 4)

/-- Reads vector fields in turn. -/
def withV (f : BitVec 5) (k : VReg → Option Instr) : Option Instr :=
  match vreg? f with
  | some r => k r
  | none => none

/-- A scalar op in either form (R568). -/
def scalarForm (F : Fields) (k : SReg → SReg → Src2 → Instr) (immForm : Bool) : Option Instr :=
  if immForm then whenZero (F.f3 == 0 && F.f4 == 0) (some (k F.f1 F.f2 (.imm F.imm)))
  else whenZero (F.f4 == 0 && F.imm == 0) (some (k F.f1 F.f2 (.reg F.f3)))

/-- LI and LUI, whose field a is zero (R568). -/
def scalarForm2 (F : Fields) (k : SReg → Src2 → Instr) (immForm : Bool) : Option Instr :=
  whenZero (F.f2 == 0) (scalarForm F (fun d _ x => k d x) immForm)

/-- A format B op; `keep` says which of a, b, link the op uses. -/
def branchForm (F : Fields) (ok : Bool) (i : Instr) : Option Instr := whenZero (ok && F.zeroB == 0) (some i)

/-- Class 0x0 (R568, R569). -/
def decodeScalar (t : Nat) (F : Fields) (op : Nat) (im : Bool) : Option Instr :=
  match op with
  | 0x01 => scalarForm F (.add t) im
  | 0x02 => scalarForm F (.sub t) im
  | 0x03 => scalarForm F (.and t) im
  | 0x04 => scalarForm F (.or t) im
  | 0x05 => scalarForm F (.xor t) im
  | 0x06 => scalarForm F (.shl t) im
  | 0x07 => scalarForm F (.shr t) im
  | 0x08 => scalarForm F (.sra t) im
  | 0x09 => scalarForm F (.mul t) im
  | 0x0a => scalarForm F (.mulh t) im
  | 0x0b => scalarForm F (.div t) im
  | 0x0c => scalarForm F (.rem t) im
  | 0x0d => scalarForm F (.slt t) im
  | 0x0e => scalarForm F (.sltu t) im
  | 0x0f => scalarForm2 F (.li t) im
  | 0x10 => scalarForm2 F (.lui t) im
  | 0x11 => scalarForm F (.addi t) im
  | 0x12 => scalarForm F (.sys t) im
  | _ => none

/-- Class 0x1. -/
def decodeControl (t : Nat) (F : Fields) : Option Instr :=
  match F.op.toNat with
  | 0x03 => branchForm F (F.f3 == 0) (.beq t F.f1 F.f2 F.target)
  | 0x04 => branchForm F (F.f3 == 0) (.bne t F.f1 F.f2 F.target)
  | 0x05 => branchForm F (F.f3 == 0) (.blt t F.f1 F.f2 F.target)
  | 0x06 => branchForm F (F.f3 == 0) (.bge t F.f1 F.f2 F.target)
  | 0x07 => branchForm F (F.f3 == 0) (.bltu t F.f1 F.f2 F.target)
  | 0x08 => branchForm F (F.f3 == 0) (.bgeu t F.f1 F.f2 F.target)
  | 0x09 => branchForm F (F.f1 == 0 && F.f2 == 0 && F.f3 == 0) (.jmp t F.target)
  | 0x0a => branchForm F (F.f1 == 0 && F.f2 == 0) (.jal t F.f3 F.target)
  | 0x01 => whenZero (F.f3 == 0 && F.f4 == 0) (some (.ld t F.f1 F.f2 F.imm))
  | 0x02 => whenZero (F.f1 == 0 && F.f4 == 0) (some (.st t F.f2 F.f3 F.imm))
  | 0x0b => whenZero (F.f1 == 0 && F.f3 == 0 && F.f4 == 0 && F.imm == 0) (some (.jr t F.f2))
  | 0x0c => whenZero (F.f1 == 0 && F.f2 == 0 && F.f3 == 0 && F.f4 == 0 && F.imm == 0) (some (.halt t))
  | _ => none

/-- Class 0x2. -/
def decodeVector (t : Nat) (F : Fields) : Option Instr :=
  match F.op.toNat with
  | 0x01 => whenZero (F.f4 == 0) (withV F.f1 fun r1 => withV F.f2 fun r2 => withV F.f3 fun r3 => some (.vaddF32 t r1 r2 r3 F.imm))
  | 0x02 => whenZero (F.f4 == 0) (withV F.f1 fun r1 => withV F.f2 fun r2 => withV F.f3 fun r3 => some (.vsubF32 t r1 r2 r3 F.imm))
  | 0x03 => whenZero (F.f4 == 0) (withV F.f1 fun r1 => withV F.f2 fun r2 => withV F.f3 fun r3 => some (.vmulF32 t r1 r2 r3 F.imm))
  | 0x04 => withV F.f1 fun r1 => withV F.f2 fun r2 => withV F.f3 fun r3 => withV F.f4 fun r4 => some (.vfmaF32 t r1 r2 r3 r4 F.imm)
  | 0x05 => whenZero (F.f4 == 0 && F.imm == 0) (withV F.f1 fun r1 => withV F.f2 fun r2 => withV F.f3 fun r3 => some (.vaddBf t r1 r2 r3))
  | 0x06 => whenZero (F.f4 == 0 && F.imm == 0) (withV F.f1 fun r1 => withV F.f2 fun r2 => withV F.f3 fun r3 => some (.vsubBf t r1 r2 r3))
  | 0x07 => whenZero (F.f4 == 0 && F.imm == 0) (withV F.f1 fun r1 => withV F.f2 fun r2 => withV F.f3 fun r3 => some (.vmulBf t r1 r2 r3))
  | 0x08 => whenZero (F.imm == 0) (withV F.f1 fun r1 => withV F.f2 fun r2 => withV F.f3 fun r3 => withV F.f4 fun r4 => some (.vfmaBf t r1 r2 r3 r4))
  | 0x09 => whenZero (F.f4 == 0 && F.imm == 0) (withV F.f1 fun r1 => withV F.f2 fun r2 => withV F.f3 fun r3 => some (.vaddI32 t r1 r2 r3))
  | 0x0a => whenZero (F.f4 == 0 && F.imm == 0) (withV F.f1 fun r1 => withV F.f2 fun r2 => withV F.f3 fun r3 => some (.vsubI32 t r1 r2 r3))
  | 0x0b => whenZero (F.f4 == 0 && F.imm == 0) (withV F.f1 fun r1 => withV F.f2 fun r2 => withV F.f3 fun r3 => some (.vmulI32 t r1 r2 r3))
  | 0x0c => whenZero (F.imm == 0) (withV F.f1 fun r1 => withV F.f2 fun r2 => withV F.f3 fun r3 => withV F.f4 fun r4 => some (.vfmaI32 t r1 r2 r3 r4))
  | 0x0d => whenZero (F.f4 == 0) (withV F.f2 fun r2 => withV F.f3 fun r3 => some (.vcmp t F.f1 r2 r3 F.imm))
  | 0x0e => whenZero (F.imm == 0) (withV F.f1 fun r1 => withV F.f2 fun r2 => withV F.f3 fun r3 => some (.vsel t r1 r2 r3 F.f4))
  | 0x0f => whenZero (F.f4 == 0) (withV F.f1 fun r1 => withV F.f2 fun r2 => withV F.f3 fun r3 => some (.vcvt t r1 r2 r3 F.imm))
  | 0x10 => whenZero (F.f3 == 0 && F.f4 == 0 && F.imm == 0) (withV F.f1 fun r1 => some (.vbcast t r1 F.f2))
  | 0x11 => whenZero (F.f4 == 0 && F.imm == 0) (withV F.f1 fun r1 => withV F.f2 fun r2 => withV F.f3 fun r3 => some (.vshuf t r1 r2 r3))
  | 0x12 => whenZero (F.f3 == 0 && F.f4 == 0) (withV F.f2 fun r2 => some (.vred t F.f1 r2 F.imm))
  | 0x13 => whenZero (F.f3 == 0 && F.f4 == 0) (withV F.f1 fun r1 => some (.vld t r1 F.f2 F.imm))
  | 0x14 => whenZero (F.f1 == 0 && F.f4 == 0) (withV F.f3 fun r3 => some (.vst t F.f2 r3 F.imm))
  | _ => none

/-- Class 0x3. -/
def decodeMatrix (t : Nat) (F : Fields) : Option Instr :=
  match F.op.toNat with
  | 0x01 => whenZero (F.f2 == 0 && F.f3 == 0 && F.f4 == 0) (some (.mldh t F.f1 F.imm))
  | 0x02 => whenZero (F.f2 == 0 && F.f3 == 0 && F.f4 == 0) (some (.mldht t F.f1 F.imm))
  | 0x03 => whenZero (F.f2 == 0 && F.f3 == 0 && F.f4 == 0) (some (.mmul t F.f1 F.imm))
  | 0x04 => whenZero (F.f3 == 0) (some (.mslb t F.f1 F.f2 F.f4 F.imm))
  | 0x05 => whenZero (F.f2 == 0 && F.f3 == 0 && F.f4 == 0) (some (.macc t F.f1 F.imm))
  | 0x06 => whenZero (F.f1 == 0 && F.f2 == 0 && F.f3 == 0 && F.f4 == 0) (some (.mclr t F.imm))
  | 0x07 => whenZero (F.f1 == 0 && F.f2 == 0 && F.f3 == 0) (some (.mepi t F.f4 F.imm))
  | 0x08 => whenZero (F.f1 == 0 && F.f2 == 0 && F.f4 == 0) (some (.mdrn t F.f3 F.imm))
  | 0x09 => whenZero (F.f2 == 0 && F.f3 == 0 && F.f4 == 0) (some (.mflg t F.f1 F.imm))
  | _ => none

/-- Class 0x4. -/
def decodeMover (t : Nat) (F : Fields) : Option Instr :=
  match F.op.toNat with
  | 0x01 => whenZero (F.f3 == 0 && F.f4 == 0 && F.imm == 0) (withV F.f2 fun r2 => some (.movq t F.f1 r2))
  | 0x02 => whenZero (F.f1 == 0 && F.f2 == 0 && F.f4 == 0 && F.imm == 0) (some (.movc t F.f3))
  | _ => none

/-- Class 0x5. -/
def decodeSend (t : Nat) (F : Fields) : Option Instr :=
  match F.op.toNat with
  | 0x01 => whenZero (F.f3 == 0) (some (.send t F.f1 F.f2 F.f4 F.imm))
  | _ => none

/-- Class 0x6. -/
def decodeRing (t : Nat) (F : Fields) : Option Instr :=
  match F.op.toNat with
  | 0x01 => whenZero (F.f1 == 0 && F.f4 == 0 && F.imm == 0) (withV F.f2 fun r2 => some (.rset t r2 F.f3))
  | 0x02 => whenZero (F.f2 == 0 && F.f4 == 0) (some (.rget t F.f1 F.f3 F.imm))
  | 0x03 => whenZero (F.f1 == 0 && F.f2 == 0 && F.f4 == 0) (some (.rpush t F.f3 F.imm))
  | 0x04 => whenZero (F.f2 == 0 && F.f3 == 0 && F.f4 == 0) (some (.rpop t F.f1 F.imm))
  | 0x05 => whenZero (F.f2 == 0 && F.f3 == 0 && F.f4 == 0) (some (.rwait t F.f1 F.imm))
  | 0x06 => whenZero (F.f1 == 0 && F.f2 == 0 && F.f4 == 0) (some (.rspace t F.f3 F.imm))
  | _ => none

/-- Class 0x7. -/
def decodeRandom (t : Nat) (F : Fields) : Option Instr :=
  match F.op.toNat with
  | 0x01 => whenZero (F.f1 == 0) (withV F.f3 fun r3 => some (.rngv t F.f2 r3 F.f4 F.imm))
  | 0x02 => whenZero (F.f1 == 0) (some (.rngr t F.f2 F.f3 F.f4 F.imm))
  | _ => none

/-- Class 0x8. -/
def decodeSync (t : Nat) (F : Fields) : Option Instr :=
  match F.op.toNat with
  | 0x01 => whenZero (F.f1 == 0 && F.f2 == 0 && F.f3 == 0 && F.f4 == 0) (some (.fence t F.imm))
  | 0x02 => whenZero (F.f1 == 0 && F.f3 == 0 && F.f4 == 0) (withV F.f2 fun r2 => some (.bell t r2 F.imm))
  | 0x03 => whenZero (F.f1 == 0 && F.f2 == 0 && F.f3 == 0) (some (.expect t F.f4 F.imm))
  | _ => none

/-- Class 0x9. -/
def decodeReach (t : Nat) (F : Fields) : Option Instr :=
  match F.op.toNat with
  | 0x01 => whenZero (F.f3 == 0 && F.f4 == 0) (some (.xrds t F.f1 F.f2 F.imm))
  | 0x02 => whenZero (F.f3 == 0 && F.f4 == 0) (withV F.f1 fun r1 => some (.xrdv t r1 F.f2 F.imm))
  | 0x03 => whenZero (F.f1 == 0 && F.f4 == 0) (some (.xwrs t F.f2 F.f3 F.imm))
  | 0x04 => whenZero (F.f1 == 0 && F.f4 == 0) (withV F.f3 fun r3 => some (.xwrv t F.f2 r3 F.imm))
  | _ => none

/-- The instruction that a code-store word of tile `t` spells; none is ILLEGAL_INSN (R55). -/
def decodeInsn (t : Nat) (w : Word64) : Option Instr :=
  let F := fieldsOf w
  match F.cls.toNat with
  | 0 => if 0x40 < F.op.toNat then decodeScalar t F (F.op.toNat - 0x40) true else decodeScalar t F F.op.toNat false
  | 1 => decodeControl t F
  | 2 => decodeVector t F
  | 3 => decodeMatrix t F
  | 4 => decodeMover t F
  | 5 => decodeSend t F
  | 6 => decodeRing t F
  | 7 => decodeRandom t F
  | 8 => decodeSync t F
  | 9 => decodeReach t F
  | _ => none

/-- The command that a word of the table spells. No row of spec/opcode_table.json gives bits, so no word
spells a command. -/
def decodeTableWord (_nbits _w : Nat) : Option Instr := none

end Sys2Proof
end

