-- ==== Sys2Proof/Machine/Bits.lean ====
section
/-! DEFINITION. Bit fields, sign extension and byte order (R49, R53, R89: little-endian everywhere). -/
namespace Sys2Proof.Machine

/-- Field of `n` bits from bit `lo` up. -/
def bitsAt (w lo n : Nat) : Nat := w / 2 ^ lo % 2 ^ n

/-- Bit `i` of a natural number. -/
def natBit (w i : Nat) : Bool := w / 2 ^ i % 2 == 1

/-- A Bool as one bit. -/
def b2n (b : Bool) : Nat := if b then 1 else 0

/-- A field placed at bit `lo`. -/
def fieldAt (v lo : Nat) : Nat := v * 2 ^ lo

/-- The number that little-endian bytes spell. -/
def leNat : List Byte → Nat
  | [] => 0
  | b :: bs => b.toNat + 256 * leNat bs

/-- `n` little-endian bytes of a number. -/
def leBytes : Nat → Nat → List Byte
  | 0, _ => []
  | n + 1, w => BitVec.ofNat 8 w :: leBytes n (w / 256)

/-- The `n`-byte little-endian field at offset `o` of a record. -/
def leAt (bs : List Byte) (o n : Nat) : Nat := leNat ((bs.drop o).take n)

/-- A list extended with zeros, or cut, to `n` entries. -/
def fit {α : Type} (z : α) (n : Nat) (bs : List α) : List α :=
  bs.take n ++ List.replicate (n - bs.length) z

/-- Bytes padded with zeros to a whole number of 64-byte units. -/
def padUnits (bs : List Byte) : List Byte := bs ++ List.replicate ((64 - bs.length % 64) % 64) 0

/-- Cuts a list into pieces of `k` entries; the fuel bounds the number of pieces. -/
def chunks {α : Type} (k : Nat) : Nat → List α → List (List α)
  | 0, _ => []
  | _ + 1, [] => []
  | n + 1, xs => xs.take k :: chunks k n (xs.drop k)

/-- Units of a byte string. -/
def unitsOf (bs : List Byte) : List (List Byte) := chunks 64 bs.length (padUnits bs)

/-- Rounded-up quotient. -/
def ceilDiv (a b : Nat) : Nat := (a + b - 1) / b

/-- A 32-bit immediate sign-extended to 64 bits (R568). -/
def sext (i : Word32) : Word64 := i.signExtend 64

/-- Elements of `w` bits packed as a little-endian bit stream (R186). -/
def packBits (w : Nat) (es : List Nat) : List Byte :=
  leBytes (ceilDiv (w * es.length) 8) (go es)
where
  go : List Nat → Nat
    | [] => 0
    | e :: es => e % 2 ^ w + 2 ^ w * go es

/-- `n` elements of `w` bits read from a little-endian bit stream (R186). -/
def unpackBits (w n : Nat) (bs : List Byte) : List Nat := go n (leNat bs)
where
  go : Nat → Nat → List Nat
    | 0, _ => []
    | k + 1, v => v % 2 ^ w :: go k (v / 2 ^ w)

/-- Writes a list entry; past the end the list is unchanged. -/
def setAt {α : Type} (xs : List α) (i : Nat) (v : α) : List α := xs.set i v

/-- Replaces the bytes of a record from offset `o`. -/
def patch (bs : List Byte) (o : Nat) (new : List Byte) : List Byte :=
  bs.take o ++ new ++ bs.drop (o + new.length)

/-- Number of set bits among the low `n`. -/
def popCount : Nat → Nat → Nat
  | 0, _ => 0
  | n + 1, w => w % 2 + popCount n (w / 2)

/-- Indices of the set bits among the low `n`, from `i` up. -/
def setBits (w : Nat) : Nat → Nat → List Nat
  | 0, _ => []
  | n + 1, i => if natBit w i then i :: setBits w n (i + 1) else setBits w n (i + 1)

/-- The naturals `lo` to `lo + n - 1`. -/
def rangeFrom (lo n : Nat) : List Nat := (List.range n).map (lo + ·)

/-- Saturating increment of a counter of `n` bits. -/
def satInc (n v by' : Nat) : Nat := min (v + by') (2 ^ n - 1)

/-- Floor of the binary logarithm; 0 for 0. -/
def ilog2 (n : Nat) : Nat := Nat.log2 n

/-- CRC-32 of IEEE 802.3, one bit at a time, low bit first. (PRESUMED, log 74) -/
def crcBits : Nat → BitVec 32 → BitVec 32
  | 0, c => c
  | n + 1, c => crcBits n (if c.getLsbD 0 then (c >>> 1) ^^^ 0xEDB88320#32 else c >>> 1)
def crc32 (bs : List Byte) : BitVec 32 := ~~~ (bs.foldl (fun c b => crcBits 8 (c ^^^ b.setWidth 32)) (BitVec.allOnes 32))

end Sys2Proof.Machine
end

