-- ==== Sys2Proof/Machine/Map.lean ====
section
/-! DEFINITION. Sparse maps: lists of (key, value) pairs with strictly rising keys. Every memory, register
array and table of the block that is too large to write out is held as one of them; an unlisted key reads
as the map's default. -/
namespace Sys2Proof

/-- A record of the first event since it was cleared: a valid bit that writing 1 clears, over read-only fields that stay (R11). -/
structure Latch (α : Type) where
  valid : Bool
  value : α
deriving DecidableEq, Repr

/-- Takes an event when none is recorded. -/
def Latch.note {α : Type} (l : Latch α) (x : α) : Latch α := if l.valid then l else ⟨true, x⟩

/-- Writing 1 to the valid bit. -/
def Latch.clear {α : Type} (l : Latch α) : Latch α := { l with valid := false }

/-- A sparse map from naturals. -/
abbrev NMap (α : Type) := List (Nat × α)

namespace NMap
variable {α : Type}

/-- The value at key `k`, or `d` when `k` is not listed. -/
def get (d : α) : NMap α → Nat → α
  | [], _ => d
  | (j, v) :: m, k => if j = k then v else get d m k

/-- Lists `v` at key `k`, replacing what was listed there. -/
def put : NMap α → Nat → α → NMap α
  | [], k, v => [(k, v)]
  | (j, w) :: m, k, v =>
    if k < j then (k, v) :: (j, w) :: m
    else if j = k then (k, v) :: m
    else (j, w) :: put m k v

/-- Removes key `k`. -/
def drop : NMap α → Nat → NMap α
  | [], _ => []
  | (j, w) :: m, k => if j = k then drop m k else (j, w) :: drop m k

/-- Writes `v` at key `k` and keeps the canonical form: an entry equal to the default is not listed. -/
def set [DecidableEq α] (d : α) (m : NMap α) (k : Nat) (v : α) : NMap α :=
  if v = d then drop m k else put m k v

/-- The keys rise strictly from above `lo`. -/
def sortedFrom : Nat → NMap α → Bool
  | _, [] => true
  | lo, (j, _) :: m => decide (lo ≤ j) && sortedFrom (j + 1) m

/-- The canonical form: keys strictly rising, no entry equal to the default. -/
def wf [DecidableEq α] (d : α) (m : NMap α) : Bool :=
  sortedFrom 0 m && m.all fun p => decide (p.2 ≠ d)

/-- Drops every entry whose key is in `[lo, lo + n)`. -/
def dropRange (m : NMap α) (lo n : Nat) : NMap α :=
  m.filter fun p => !(decide (lo ≤ p.1) && decide (p.1 < lo + n))

/-- Writes a run of values from key `k` up. -/
def setRun [DecidableEq α] (d : α) : NMap α → Nat → List α → NMap α
  | m, _, [] => m
  | m, k, v :: vs => setRun d (set d m k v) (k + 1) vs

/-- Reads `n` values from key `k` up. -/
def getRun (d : α) (m : NMap α) (k : Nat) : Nat → List α
  | 0 => []
  | n + 1 => get d m k :: getRun d m (k + 1) n

end NMap

/-- A byte memory: unlisted addresses read as zero (R131, R458). -/
abbrev Mem := NMap Byte

/-- The canonical form of a memory. -/
def Memory.wf (m : Mem) : Bool := NMap.wf 0 m

end Sys2Proof
end

