-- ==== Sys2Proof/Machine/MemState.lean ====
section
/-! DEFINITION. The state of main memory and its controllers (spec/13). -/
namespace Sys2Proof.Machine

/-- MEM_GROUP_STATUS.state (R464). -/
inductive GroupState where
  | off | training | service | selfRefresh | blockReset | failed
deriving DecidableEq, Repr

/-- A controller group (R444, R464). -/
structure MemGroup where
  state : GroupState
  refreshRate : BitVec 4
deriving DecidableEq, Repr

/-- Interleave, checked mode and data rate (R462). -/
structure MemMode where
  pools : Bool
  unchecked : Bool
  rate : Bool
deriving DecidableEq, Repr

/-- Main memory (R446 to R464). -/
structure MainMem where
  bytes : Mem
  /-- The check words of the check granules (R450, R451), by line (address / 64): each as the XOR of the word stored with the check
  of the data stored. An unlisted line has a valid check, as a write or the fill leaves it. -/
  checks : NMap (BitVec 16)
  /-- Lines that a controller has read for a consumer that has not taken the answer yet (R454), as 16 × line + consumer: the data, or
  none when the error persisted. -/
  served : NMap (Option (List Byte))
  /-- Cached check lines (R452), as channel × 2^40 + check line of the channel. -/
  cache : List Nat
  cur : MemMode
  next : MemMode
  trained : Bool
  filling : Bool
  chanFail : List Nat
  usableGib : Nat
  /-- MEM_UE_LOG: consumer and channel, and the device address of the line. -/
  ueLog : Latch (BitVec 4 × Nat)
  ueAddr : Nat
  retryOk : Word32
  ueCount : Word32
  linkCe : Word32
  groups : NMap MemGroup
  /-- By channel: the line that patrol scrub read last (R456), per-bank refreshes made, as 64 × channel + bank (R457), and when the
  channel last retrained (R459). -/
  scrubPos : NMap Nat
  refreshes : NMap Nat
  retrained : NMap Nat
deriving DecidableEq, Repr

def MemGroup.init : MemGroup := ⟨.off, 0⟩

end Sys2Proof.Machine
end

