-- ==== Sys2Proof/Machine/AddressMap.lean ====
section
/-! DEFINITION. Where a main-memory address lies (R444, R448 to R451), and the line check. -/
namespace Sys2Proof.Machine

/-- Number of channels of each bench (R444). -/
def benchChannels (b : Nat) : Nat := if b % 3 = 1 then 16 else 24

/-- First channel of each bench (R444). -/
def firstChannel (b : Nat) : Nat := ([0, 24, 40, 64, 88, 104]).getD b 0

/-- Usable GiB of a bench's pool (R449, R450). -/
def poolGib (unchecked : Bool) (b : Nat) : Nat := benchChannels b * (if unchecked then 512 else 496) / 32

/-- Base of a bench's pool in GiB (R449). -/
def poolBaseGib (unchecked : Bool) (b : Nat) : Nat := ((List.range b).map (poolGib unchecked)).foldl (· + ·) 0

/-- Bench whose pool holds an address, counting pools from `b`; the fuel is the number of benches left. -/
def poolOf (unchecked : Bool) (gib : Nat) : Nat → Nat → Nat
  | 0, b => b
  | k + 1, b => if gib < poolBaseGib unchecked (b + 1) then b else poolOf unchecked gib k (b + 1)

/-- Channel and channel granule index of an address (R448, R449). -/
def channelOf (m : MemMode) (addr : Nat) : Nat × Nat :=
  let g := addr / 2048
  if m.pools then
    let b := poolOf m.unchecked (addr / 2 ^ 30) 5 0
    let n := benchChannels b
    let g' := g - poolBaseGib m.unchecked b * 2 ^ 19
    (firstChannel b + (g' + g' / n) % n, g' / n)
  else
    (bitsAt g 0 7 ^^^ bitsAt g 7 7 ^^^ bitsAt g 14 7 ^^^ bitsAt g 21 7 ^^^ bitsAt g 28 2, g / 128)

/-- Physical granule of a channel granule index in checked mode (R450). -/
def physicalGranule (i : Nat) : Nat := 32 * (i / 31) + i % 31

/-- Check line of a line of channel granule i, as a line number of the channel (R450). -/
def checkLine (i : Nat) : Nat := (32 * (i / 31) + 31) * 32 + i % 31

/-- One bit of the CRC-16 of R451, most significant first. -/
def crc16Bit (crc : BitVec 16) (b : Bool) : BitVec 16 :=
  let top := crc.msb != b
  let s := crc <<< 1
  if top then s ^^^ 0x8BB7#16 else s

/-- CRC-16 with polynomial 0x8BB7 (R451). -/
def crc16 (bs : List Byte) : BitVec 16 :=
  bs.foldl (fun c b => (List.range 8).foldl (fun c i => crc16Bit c (b.getLsbD (7 - i))) c) 0

/-- The check of a line: its data, then its device address (R451). -/
def lineCheck (bs : List Byte) (addr : Nat) : BitVec 16 := crc16 (bs ++ leBytes 8 addr)

end Sys2Proof.Machine
end

