-- ==== Sys2Proof/Config.lean ====
section
/-! DEFINITION. What one part fixes at manufacture or in flash, and the values that the spec leaves open.
Every constant here is opaque: nothing in Lean can evaluate it, so a statement holds for every value. -/
namespace Sys2Proof.Config

/-- Grade fuse: false is FYZ1-Q, true is FYZ1-T (R2, R534). (DESIGN CHOICE, log 10) -/
opaque gradeT : Bool
/-- The fused 64-bit device identity (R412). -/
opaque identity : Word64
/-- First 64 bytes of SHAKE256 of the firmware public key (R534). -/
opaque keyHash : BitVec 512
/-- Blown bits of the rollback thermometer at manufacture, reduced to 0-64 where it is used (R534). -/
opaque rollbackFused : Nat
/-- The device secret (R533, R534). -/
opaque deviceSecret : BitVec 256
/-- Boot ROM contents (R541 slot 0). -/
opaque bootRom : List Byte
/-- Flash bank A as manufactured (R535). -/
opaque flashA : List Byte
/-- Flash bank B as manufactured (R535). -/
opaque flashB : List Byte
/-- Ferluent's signature over the first 80 bytes of the endorsement (R544). -/
opaque endorsementSig : List Byte
/-- Ferluent's PCI-SIG-assigned Vendor ID (R371). -/
opaque vendorId : BitVec 16
/-- Silicon revision in DEVICE_ID (R377). -/
opaque siliconRevision : Byte
/-- Fused MAC address of each Ethernet port (R435, R441). -/
opaque mac : Nat → BitVec 48

/-- The option block in flash, where its CRC-32 holds (R502, R509, R462, R465, R435). The spec names the
settings and not their layout in flash, so each one is a constant of its own. -/
opaque optBytes : List Byte
opaque optCauseOnly : Bool
opaque optPools : Bool
opaque optUnchecked : Bool
opaque optRate : Bool
opaque optRecoveryBase : Word64
opaque optInputRing : Word32
opaque optShadowBase : Word64
opaque optShadowLength : Word32
opaque optHomeBase : Word64
opaque optHomeLength : Word32
opaque optForeignBase : Word64
opaque optForeignConfig : Word32
opaque optEthControl : Nat → Word32
opaque optNextHop : Nat → BitVec 48
opaque optIpv4 : Nat → Word32
opaque optIpv6 : Nat → BitVec 128
opaque optTransport : Word32

/-- FIPS 205 SLH-DSA-SHAKE-256s verification: public key, message, signature (R535, R550). (DESIGN CHOICE, log 112) -/
opaque slhVerify256s : List Byte → List Byte → List Byte → Bool
/-- FIPS 205 SLH-DSA-SHAKE-256f public key from SK.seed, SK.prf, PK.seed (R543). -/
opaque slhPublic256f : List Byte → BitVec 512
/-- FIPS 205 SLH-DSA-SHAKE-256f signature of a message under the same 96 bytes (R543, R545). -/
opaque slhSign256f : List Byte → List Byte → List Byte

/-- Upper thresholds of the PLDM sensors that are enabled (R565, R567). -/
opaque sensorThreshold : Nat → Option Nat

/-- Stands for level[0] of the digest tree of an empty string, which has no chunk and for which R474 gives no leaf.
(DESIGN CHOICE, log 92) -/
opaque emptyLeaf : BitVec 256

/-- A free value: what the spec leaves unstated at the n-th such point of a run. -/
opaque freeValue : Nat → Word64

end Sys2Proof.Config
end

