-- ==== Sys2Proof/Machine/TileState.lean ====
section
/-! DEFINITION. The state of one logical tile: S-core, memory, rings, pages, and the queues of its engines
(spec/02 to spec/10). Plain data; every field is at the value of R131 or of step start in `Tile.init`. -/
namespace Sys2Proof.Machine

/-- TILE_RUN_STATUS.state (R85). Code 5, gated, is no state of a core that a window can reach (R381): see State.gated. -/
inductive RunState where
  | halted | running | stalled | atBell | faulted | emptyCut
deriving DecidableEq, Repr

/-- TILE_RUN_STATUS.stall_kind (R85); a page wait reads as input presence or output space (R117), a wait for the norm tap as
a full engine queue (R361). -/
inductive StallKind where
  | none | input | output | queueFull | pending | ring | fence | pageRead | pageWrite | normTap
deriving DecidableEq, Repr

/-- TILE_FAULT_STATUS and the four fault detail registers (R86). -/
structure FaultRecord where
  valid : Bool
  hardware : Bool
  code : BitVec 8
  pc : BitVec 13
  insn : Word64
  addr : Word64
deriving DecidableEq, Repr

/-- The S-core (R45 to R48, R58, R84 to R88). -/
structure Core where
  s : Vector Word64 32
  v : Vector (Vector Word32 32) 16
  /-- Address of the next instruction; `codeLen` when the core has run past the last one. -/
  pc : Nat
  pendS : BitVec 32
  pendV : BitVec 16
  halt : Bool
  codeWindow : Bool
  codePage : BitVec 5
  run : RunState
  stallKind : StallKind
  stallRing : BitVec 5
  fault : FaultRecord
  stallCount : Word32
  /-- Tile cycles counted since step start (SYS 7). -/
  cycles : Word64
  /-- Instructions of the tile's class (R78 PC_RANGE). -/
  codeLen : Nat
  /-- Class of the tile map, none when idle or no image is loaded (R75). -/
  cls : Option Nat
  /-- An engine instruction with work issued since the previous bell (R245). -/
  engineWork : Bool
  emptyCutCycles : Word32
  /-- Numbers the asynchronous instructions issued; names the engine items. -/
  issueSeq : Nat
  /-- The directory entry or count unit read when an MSLB or SEND first reached issue (R229, R70). -/
  held : Option (List Byte)
  /-- What the S-core waits for while it stalls on a page: write, accessor, page (R117, R138). -/
  pageWait : Option (Bool × BitVec 3 × BitVec 9)
deriving DecidableEq, Repr

/-- Data memory, code store and their check state (R97, R99, R127 to R137). -/
structure TileMem where
  data : Mem
  code : NMap Word64
  /-- Flipped data bits 0 and 1 of a 64-bit word, by word number. -/
  eccData : NMap (BitVec 2)
  eccCode : NMap (BitVec 2)
  /-- Corrected words waiting for write-back: (code store?, word). -/
  wbQueue : List (Bool × Nat)
  ue : Bool
  ce : Bool
  ueCode : Bool
  ueConsumer : BitVec 3
  ueAddr : Word32
  /-- Uncorrectable words that were consumed, (code store?, word), oldest first, until firmware handles them (R82, R128, R481). -/
  ueUsed : List (Bool × Nat)
  ceCount : BitVec 16
  inject : Word32
  scrubPos : Nat
  /-- The initialiser has finished (R131). -/
  ready : Bool
  collision : Word32
  conflict : Word32
  stallStatus : Word32
deriving DecidableEq, Repr

/-- An outstanding consumer of a ring, in issue order (R60). -/
structure Claim where
  id : Nat
  units : Nat
  done : Bool
deriving DecidableEq, Repr

/-- A ring descriptor with its counters and its stall state (R104, R107, R112, R281). -/
structure Ring where
  base : BitVec 15
  size : BitVec 16
  head : Word32
  tail : Word32
  countPrefixed : Bool
  valid : Bool
  stallThreshold : BitVec 16
  claimed : Nat
  reserved : Nat
  claims : List Claim
  /-- Reserving producers in issue order: instruction, whether it is its mask output, units not yet written (R60, R66). -/
  owners : List (Nat × Bool × Nat)
  /-- What waits on the ring, longest first: side (producer?) and waiter code of R135. -/
  waiting : List (Bool × BitVec 2)
  timer : Nat
  raised : Bool
  /-- Who delivered, by the superstep of the send: group, index, source; the supersteps in which RING_MULTI_SOURCE was raised
  (R281). -/
  sources : List (Nat × Nat × Nat)
  multi : List (Nat × Nat)
deriving DecidableEq, Repr

/-- Page table entry (R116); `state` is its three-bit field. -/
structure PageEntry where
  home : BitVec 29
  frame : BitVec 9
  state : BitVec 3
  dirty : Bool
  writeBack : Bool
  homeValid : Bool
deriving DecidableEq, Repr

/-- Pages of a tile (R113, R116, R138, R261, R467). -/
structure Pages where
  attr : NMap (BitVec 2)
  table : NMap PageEntry
  /-- Entries whose fill was started by a touch, in order of arrival. -/
  fills : List Nat
  shadowWritten : List Nat
deriving DecidableEq, Repr

/-- Matrix engine operations (R67). -/
inductive MxOp where
  | mldh | mldht | mmul | mslb | macc | mclr | mepi | mdrn | mflg
deriving DecidableEq, Repr

/-- An epilogue slot: the record's 128 bytes and the scale held with it (R169, R170, R207). -/
structure EpiSlot where
  record : List Byte
  scale : Word32
deriving DecidableEq, Repr

/-- What a drain will write (R167, R173, R174): output units, mask units, the value found. -/
structure DrainOut where
  units : List (List Byte)
  masks : List (List Byte)
  found : Word32
deriving DecidableEq, Repr

/-- An instruction in the matrix engine, with what it claimed and reserved at issue. -/
structure MxItem where
  id : Nat
  op : MxOp
  word : Word64
  pc : BitVec 13
  imm : Word32
  ringA : RingNo
  startA : Nat
  unitsA : Nat
  ringB : RingNo
  startB : Nat
  unitsB : Nat
  ringD : RingNo
  unitsD : Nat
  ringM : RingNo
  unitsM : Nat
  /-- The rows field as resolved under R65 and R166. -/
  rows : Nat
  /-- The first data unit follows a count unit; its group map when map_valid is 1 (R239, R240). -/
  prefixed : Bool
  groupMap : Option Word32
  /-- Tile-memory offset held in p. -/
  p : Nat
  /-- Directory entry read at issue (R229), or the issue-time mask fields of an MEPI. -/
  dir : List Byte
  maskSource : BitVec 2
  dest : SReg
  /-- Slot copied at dispatch (R170). -/
  slot : Option EpiSlot
  /-- The slab path chosen at dispatch is the sparse one (R233). -/
  sparse : Bool
  out : Option DrainOut
  /-- Units written: output units from 0, mask units after them. -/
  written : List Nat
deriving DecidableEq, Repr

/-- A held buffer (R142): element format and encoded bits of its cells, cell row × 32 + column, and the
E8M0 scale byte of each 32-K block and column. -/
structure HeldBuffer where
  fmt : BitVec 8
  cells : NMap Byte
  cells16 : NMap (BitVec 16)
  scales : NMap Byte
deriving DecidableEq, Repr

/-- Matrix engine state (R142, R148, R159 to R163, R170, R179 to R181, R247, R248). -/
structure Mx where
  queue : List MxItem
  loader : Option MxItem
  feed : Option MxItem
  drain : Option MxItem
  held0 : HeldBuffer
  held1 : HeldBuffer
  heldFmt0 : BitVec 8
  heldFmt1 : BitVec 8
  /-- Accumulator words, array × 8192 + row × C + column. -/
  acc : NMap Word32
  slab : Bool
  slabIssued : Bool
  sat : Word32
  nan : Word32
  slots : NMap (Option EpiSlot)
  /-- Issue-time mask_source and mask_ring of each slot (R575). -/
  issueMask : NMap (BitVec 2 × Byte)
  lastCount : Nat
  feedBusy : Word32
  feedBubble : Word32
  heldWait : Word32
  threshold : BitVec 4
  forceDense : Bool
  /-- The instruction that faulted: it and every later one complete no more (R176). -/
  stopped : Option Nat
deriving DecidableEq, Repr

/-- Sparse counters (R247). -/
structure SlabCounts where
  sparse : Word32
  dense : Word32
  empty : Word32
  loads : Word32
  groupsSkipped : Word32
deriving DecidableEq, Repr

/-- A mover descriptor queued by MOVQ (R249), with the units it claimed. -/
structure MvItem where
  id : Nat
  desc : List Byte
  ring : RingNo
  start : Nat
  units : Nat
  /-- Units of the message when the source ring is count-prefixed (R251). -/
  message : Option Nat
deriving DecidableEq, Repr

/-- Where one write of a mover goes: the destination ring, a device or host address, an own tile-memory offset, or one
bit of a slab map (R250, R258). -/
inductive MvDest where
  | ring
  | dev (addr : Nat)
  | host (addr : Nat)
  | own (off : Nat)
  | mapBit (addr : Nat) (host : Bool) (bit : Nat) (value : Bool)
deriving DecidableEq, Repr

/-- One piece of a descriptor's work: a write, with the result field after it (R268), or the failure at which it stops
(R269). -/
inductive MvAct where
  | put (dest : MvDest) (bytes : List Byte) (result : Nat)
  | stop (code : BitVec 8)
deriving DecidableEq, Repr

/-- A started descriptor (R254, R262, R264, R269). -/
structure MvRun where
  item : MvItem
  params : List Byte
  scale : Word32
  /-- What it writes, once its source has been read. -/
  plan : Option (List MvAct)
  /-- Pieces done; of a page operation, 0 not begun, 1 transferring, 2 finished. -/
  progress : Nat
  result : Nat
  failed : Option (BitVec 8)
  waiting : Bool
  /-- The page it waits for: tile, write, page (R117, R138). -/
  pageWait : Option (Nat × Bool × Nat)
deriving DecidableEq, Repr

/-- The mover (R262, R270). -/
structure Mv where
  queue : List MvItem
  slots : NMap (Option MvRun)
  done : Word32
  failCount : Word32
  waitCycles : Word32
  failOffset : Word32
  /-- MOVER_FIRST_FAIL: kind and code. -/
  firstFail : Latch (BitVec 8 × BitVec 8)
  /-- The page that holds the parameter block of the queue's head, while it is awaited; the failure of its fill (R117, R119). -/
  startWait : Option Nat
  startFail : Option (BitVec 8)
deriving DecidableEq, Repr

/-- One destination of a running send (R280, R282): units landed and the answer. -/
structure SendDest where
  tile : Nat
  landed : Nat
  /-- Set when the destination has answered: none for an acknowledgement, a failure code otherwise. -/
  answer : Option (Option (BitVec 3))
  /-- The answer has reached the source. -/
  arrived : Bool
deriving DecidableEq, Repr

/-- A send (R70, R277 to R283). -/
structure SdItem where
  id : Nat
  word : Word64
  pc : BitVec 13
  seq : BitVec 16
  group : BitVec 3
  index : Nat
  /-- dest_kind (R70). -/
  kind : Nat
  ring : Option RingNo
  start : Nat
  units : Nat
  marker : Bool
  /-- Source offset when from_region is set. -/
  region : Option Nat
  destRing : RingNo
  dests : List SendDest
  /-- Partner index and Ethernet selection for a remote send. -/
  remote : Option (Nat × Bool)
  running : Bool
  /-- The unit at which a source read failed (R302 code 2). -/
  stopAt : Option Nat
  /-- Waits for a free failure record (R302). -/
  waitRecord : Bool
  /-- The page that the next unit of its region waits for (R117, R138). -/
  pageWait : Option Nat
  /-- Units that are injected ahead of their landing: the first one's number, and the units (R277). -/
  flight : Option (Nat × List (List Byte))
deriving DecidableEq, Repr

/-- A send-failure record (R302). -/
structure SendFail where
  tile : Nat
  seq : BitVec 16
  code : BitVec 3
  failed : Nat
  first : Nat
deriving DecidableEq, Repr

/-- Next bell of a member (R287). -/
inductive BellPhase where
  | cut | haul | final | done
deriving DecidableEq, Repr

/-- A tile's standing on one sync group (R283 to R288, R296, R297, R301). -/
structure Member where
  inStep : Bool
  phase : BellPhase
  index : Nat
  arrived : Bool
  rolled : Bool
  excused : Bool
  mask : BitVec 8
  lanes : List Word32
  /-- Vector register that takes the payload, when the S-core waits at this bell. -/
  reg : Option VReg
  expect : NMap Nat
  markers : NMap Nat
  emptyCut : Bool
  arriveTime : Nat
  /-- The arrival counts (R289, R297), at `arriveTime`. -/
  counted : Bool
  met : Bool
  metTime : Nat
deriving DecidableEq, Repr

/-- A haul packet at the head of an input buffer of a tile's router: the side it came in by, its source and the send (or port and
channel), the ring it goes to, and whether some of its units have landed (R272, R273, R281). -/
structure HaulHead where
  side : Nat
  source : Nat
  id : Nat
  ring : RingNo
  opened : Bool
deriving DecidableEq, Repr

/-- Send port and bell member state (R57, R302, R309 to R312). -/
structure Sd where
  queue : List SdItem
  issued : BitVec 16
  records : List SendFail
  /-- HAUL_TILE_FAIL: code, sequence number, first failed destination. -/
  fail : Latch (BitVec 3 × BitVec 16 × BitVec 11)
  excess : Byte
  sendGroup : BitVec 3
  groups : NMap Member
  /-- Packets for this tile that hold a buffer of its router. -/
  heads : List HaulHead
deriving DecidableEq, Repr

/-- A random instruction (R72, R316). -/
structure RnItem where
  id : Nat
  toRing : Bool
  reg : VReg
  ring : RingNo
  stream : Word32
  index : Word64
  nibble : Bool
  units : Nat
deriving DecidableEq, Repr

/-- Random lanes (R313, R326, R327, R333). -/
structure Rn where
  queue : List RnItem
  lanes : NMap (BitVec 128)
  arming : Bool
  drainWait : Word32
deriving DecidableEq, Repr

/-- Reach access kinds (R74). -/
inductive ReachOp where
  | readS | readV | writeS | writeV
deriving DecidableEq, Repr

/-- Where a reach access stands: sent, held at its target, or answered. -/
inductive ReachState where
  | sent
  | held
  | ok (data : List Byte)
  | isolated
  /-- The word that could not be read: its main-memory address, or none when it is a tile's. -/
  | uncorrectable (word : Option Nat)
  | unresolved
deriving DecidableEq, Repr

/-- An outstanding reach access (R74, R122, R124). -/
structure RcItem where
  id : Nat
  op : ReachOp
  addr : Nat
  data : List Byte
  destS : SReg
  destV : VReg
  word : Word64
  pc : BitVec 13
  state : ReachState
deriving DecidableEq, Repr

/-- Reach port: the tile's own accesses, and the accesses held in its input buffer (R120) as
(initiator, id). -/
structure Rc where
  out : List RcItem
  inbox : List (Nat × Nat)
  /-- Main-memory words at which an access of this tile has faulted, oldest first, until firmware handles them (R82). -/
  mainWords : List Nat
deriving DecidableEq, Repr

/-- An open slot of the norm tap, or a post in flight (R361): quantity, layer, exact sum in units of
2^-298, non-finite flag. -/
structure NormSlot where
  quantity : BitVec 2
  layer : BitVec 12
  sum : Nat
  nonfinite : Bool
deriving DecidableEq, Repr

/-- The norm tap (R361, R367). -/
structure Nt where
  slots : List NormSlot
  flight : List NormSlot
  wait : Word32
deriving DecidableEq, Repr

/-- One logical tile. -/
structure Tile where
  core : Core
  mem : TileMem
  rings : Vector Ring 32
  pages : Pages
  mx : Mx
  slabs : SlabCounts
  mv : Mv
  sd : Sd
  rn : Rn
  rc : Rc
  nt : Nt
deriving DecidableEq, Repr

def FaultRecord.empty : FaultRecord := ⟨false, false, 0, 0, 0, 0⟩
def Core.init : Core :=
  { s := Vector.replicate 32 0, v := Vector.replicate 16 (Vector.replicate 32 0), pc := 0, pendS := 0, pendV := 0,
    halt := true, codeWindow := false, codePage := 0, run := .halted, stallKind := .none, stallRing := 0,
    fault := .empty, stallCount := 0, cycles := 0, codeLen := 8192, cls := none, engineWork := false,
    emptyCutCycles := 0, issueSeq := 0, held := none, pageWait := none }
def TileMem.init : TileMem :=
  { data := [], code := [], eccData := [], eccCode := [], wbQueue := [], ue := false, ce := false, ueCode := false,
    ueConsumer := 0, ueAddr := 0, ueUsed := [], ceCount := 0, inject := 0, scrubPos := 0, ready := true, collision := 0,
    conflict := 0, stallStatus := 0 }
def Ring.init : Ring :=
  { base := 0, size := 0, head := 0, tail := 0, countPrefixed := false, valid := false, stallThreshold := 0,
    claimed := 0, reserved := 0, claims := [], owners := [], waiting := [], timer := 0, raised := false, sources := [],
    multi := [] }
def PageEntry.init : PageEntry := ⟨0, 0, 0, false, false, false⟩
def Pages.init : Pages := ⟨[], [], [], []⟩
def HeldBuffer.init : HeldBuffer := ⟨0, [], [], []⟩
def Mx.init : Mx :=
  { queue := [], loader := none, feed := none, drain := none, held0 := .init, held1 := .init, heldFmt0 := 0,
    heldFmt1 := 0, acc := [], slab := false, slabIssued := false, sat := 0, nan := 0, slots := [],
    issueMask := [], lastCount := 0, feedBusy := 0, feedBubble := 0, heldWait := 0, threshold := 12,
    forceDense := false, stopped := none }
def SlabCounts.init : SlabCounts := ⟨0, 0, 0, 0, 0⟩
def Mv.init : Mv := ⟨[], [], 0, 0, 0, 0, ⟨false, 0, 0⟩, none, none⟩
def Member.init : Member :=
  { inStep := false, phase := .cut, index := 0, arrived := false, rolled := false, excused := false, mask := 0,
    lanes := [], reg := none, expect := [], markers := [], emptyCut := false, arriveTime := 0, counted := false, met := false, metTime := 0 }
def Sd.init : Sd := ⟨[], 0, [], ⟨false, 0, 0, 0⟩, 0, 0, [], []⟩
def Rn.init : Rn := ⟨[], [], false, 0⟩
def Rc.init : Rc := ⟨[], [], []⟩
def Nt.init : Nt := ⟨[], [], 0⟩

/-- A tile whose power domain has just switched on and whose initialiser has finished (R131). -/
def Tile.init : Tile :=
  { core := .init, mem := .init, rings := Vector.replicate 32 .init, pages := .init, mx := .init, slabs := .init,
    mv := .init, sd := .init, rn := .init, rc := .init, nt := .init }

/-- A tile whose power domain has just switched on: its initialiser runs and its lanes are arming (R131, R327). -/
def Tile.switchedOn : Tile :=
  { Tile.init with mem := { TileMem.init with ready := false }, rn := { Rn.init with arming := true } }

end Sys2Proof.Machine
end

