-- ==== Sys2Proof/Machine/DeviceState.lean ====
section
/-! DEFINITION. The state that the whole device keeps for images, steps, bells, scales, random seeds and
training (spec/02, 05, 08, 09, 10). -/
namespace Sys2Proof.Machine

/-- A bell frame received from a peer and not yet used (R291, R430): rank, step, final?, haul?, index, payload. -/
structure PeerFrame where
  rank : Nat
  step : Word64
  kind : BitVec 2
  index : Nat
  contributed : Byte
  lanes : List Word32
deriving DecidableEq, Repr

/-- What the ledger collector of a bench holds for one superstep (R357, R358). -/
structure BenchTimes where
  bench : Nat
  tArr : Nat
  lastTile : Nat
  empty : Nat
deriving DecidableEq, Repr

/-- The bell logic of one sync group (R286 to R297, R305, R308). -/
structure BellGroup where
  loaded : Bool
  ops : List (BitVec 2)
  members : List Nat
  /-- On an extended group, this device's rank and the partner index of each other rank (R291). -/
  peers : List (Nat × Nat)
  rank : Nat
  phase : BellPhase
  index : Nat
  fires : Word32
  latency : Word32
  payload : List Word32
  /-- The local condition holds and frames were sent; the bell is firing once every frame is there. -/
  localHeld : Bool
  holding : Bool
  heldAt : Nat
  frames : List PeerFrame
  timerStart : Nat
  /-- Timeout in force since the timer started, ns; none when the timer is stopped. -/
  timerLimit : Option Nat
  waived : Bool
  tRel : Nat
  tCut : Nat
  cutTimes : List BenchTimes
  rolledAny : Bool
  dividedBenches : List Nat
  probed : List Nat
  probeAt : Nat
deriving DecidableEq, Repr

/-- Bell registers and groups (R305 to R308). -/
structure Bell where
  timeoutMs : BitVec 16
  timeoutEnable : Bool
  rollingAllowed : Bool
  /-- BELL_TIMEOUT_RECORD: group, reason, attributed, tile. -/
  record : Latch (BitVec 3 × BitVec 2 × Bool × BitVec 11)
  groups : NMap BellGroup
deriving DecidableEq, Repr

/-- Scale-table entry (R197). -/
structure ScaleEntry where
  histLen : Nat
  margin : BitVec 3
  privileged : Bool
  format : Byte
  inView : Bool
  posted : Bool
  initialised : Bool
  scale : Word32
  pending : Word32
  histCount : Nat
  history : List Word32
deriving DecidableEq, Repr

/-- The scale unit (R197, R208, R212 to R215). -/
structure Scale where
  entries : NMap ScaleEntry
  k : Nat
  clean : Nat
  lastOverflow : Bool
  atMin : Bool
  atMax : Bool
  skipped : Nat
  busy : Bool
  done : Bool
  entriesPosted : Nat
  drops : Word32
deriving DecidableEq, Repr

/-- The random block (R317, R330, R331, R333). -/
structure Random where
  keyedSeed : Word64
  freeSeed : Word64
  /-- Key words KEY_0 to KEY_7. -/
  key : List Word32
  keyBusy : Bool
  keyValid : Bool
  freeArmed : Bool
deriving DecidableEq, Repr

/-- A write through the write alias held by a drain (R344): main-memory address, data, since, and whose it is:
a mover slot or a reach access of a tile. -/
structure HeldWrite where
  addr : Nat
  data : List Byte
  since : Nat
  tile : Nat
  slot : Option Nat
  reach : Option Nat
  /-- A masked write of one bit of the byte (R258). -/
  bit : Option (Nat × Bool)
deriving DecidableEq, Repr

/-- The training block (R339 to R344, R359, R362, R367 to R370). -/
structure Train where
  enable : Bool
  readBank : Bool
  advanced : Bool
  holdReason : BitVec 2
  u : Word64
  uSampled : Option Word64
  bankA : Word64
  bankB : Word64
  bankLen : Word64
  holdNs : Word32
  held : List HeldWrite
  ledgerEnable : Bool
  ledgerLog2 : Nat
  ledgerGroup : BitVec 4
  ledgerBase : Word64
  ledgerWrite : Word32
  ledgerRead : Word32
  ledgerLost : Word32
  normEnable : Bool
  normLayers : Nat
  normBase : Word64
  normWritten : Bool
  normNonfinite : Bool
  normOverflow : Bool
  normTouched : Nat
  /-- Exact sums by 3 × layer + quantity, in units of 2^-298, and the touched and non-finite flags. -/
  norm : NMap Nat
  normTouch : NMap Bool
  normBad : NMap Bool
deriving DecidableEq, Repr

/-- A class of an image (R90 kind 1): its code words and its entry address. -/
structure ImageClass where
  code : List Word64
  entry : Nat
deriving DecidableEq, Repr

/-- A sync-group map of an image (R90 kind 6). -/
structure ImageGroup where
  number : Nat
  ops : List (BitVec 2)
  members : List Nat
deriving DecidableEq, Repr

/-- A data segment (R90 kind 4). -/
structure Segment where
  tile : Bool
  target : Nat
  offset : Nat
  kind : BitVec 2
  data : List Byte
deriving DecidableEq, Repr

/-- A scale-table view entry (R198). -/
structure ViewEntry where
  entry : Nat
  format : Byte
  histLen : Nat
  margin : BitVec 3
  privileged : Bool
deriving DecidableEq, Repr

/-- A parsed program image (R89, R90). -/
structure Image where
  bytes : List Byte
  grade : Byte
  target : Byte
  flags : Word32
  supersteps : Nat
  layoutId : List Byte
  profile : List Byte
  classes : List ImageClass
  /-- Class of each tile that has one (R75). -/
  tileMap : NMap Nat
  segments : List Segment
  /-- Ring descriptors, 32 × class + ring, as 128-bit words. -/
  rings : NMap (BitVec 128)
  groups : List ImageGroup
  view : List ViewEntry
deriving DecidableEq, Repr

def BellGroup.init : BellGroup :=
  { loaded := false, ops := [], members := [], peers := [], rank := 0, phase := .cut, index := 0, fires := 0,
    latency := 0, payload := [], localHeld := false, holding := false, heldAt := 0, frames := [], timerStart := 0,
    timerLimit := none, waived := false, tRel := 0, tCut := 0, cutTimes := [], rolledAny := false,
    dividedBenches := [], probed := [], probeAt := 0 }
/-- Timeout 50 ms, enabled (R306). -/
def Bell.init : Bell :=
  { timeoutMs := 0x32, timeoutEnable := true, rollingAllowed := false, record := ⟨false, 0, 0, false, 0⟩, groups := [] }
/-- Uninitialised, scale 1.0, empty history (R197). -/
def ScaleEntry.init : ScaleEntry :=
  { histLen := 1, margin := 0, privileged := false, format := 0, inView := false, posted := false,
    initialised := false, scale := 0x3F80_0000, pending := 0, histCount := 0, history := [] }
/-- k is 15, no clean step (R208). -/
def Scale.init : Scale :=
  { entries := [], k := 15, clean := 0, lastOverflow := false, atMin := false, atMax := false, skipped := 0,
    busy := false, done := false, entriesPosted := 0, drops := 0 }
def Train.init : Train :=
  { enable := false, readBank := false, advanced := false, holdReason := 3, u := 0, uSampled := none, bankA := 0,
    bankB := 0, bankLen := 0, holdNs := 0, held := [], ledgerEnable := false, ledgerLog2 := 6, ledgerGroup := 8,
    ledgerBase := 0, ledgerWrite := 0, ledgerRead := 0, ledgerLost := 0, normEnable := false, normLayers := 4096,
    normBase := 0, normWritten := false, normNonfinite := false, normOverflow := false, normTouched := 0,
    norm := [], normTouch := [], normBad := [] }

end Sys2Proof.Machine
end

