-- ==== Sys2Proof/Machine/HostState.lean ====
section
/-! DEFINITION. The state of the host interface (spec/11): queues, packets in flight, events, telemetry, windows. -/
namespace Sys2Proof.Machine

/-- QUEUE_STATUS.state (R389). -/
inductive QueueState where
  | disabled | active | disabling | error
deriving DecidableEq, Repr

/-- What a queue reports when it is next enabled (R395). -/
inductive LostReport where
  | none
  /-- Full retention: one completion per journal entry of the queue. -/
  | each
  /-- Cause-only: lowest and highest lost sequence numbers. -/
  | range (lo hi : Nat)
  /-- The retained memory did not survive. -/
  | unknown
deriving DecidableEq, Repr

/-- A queue pair (R387 to R394). -/
structure Queue where
  sqBase : Word64
  cqBase : Word64
  enable : Bool
  priority : BitVec 2
  vector : BitVec 7
  irqEnable : Bool
  lastEntry : BitVec 12
  state : QueueState
  error : BitVec 2
  sqHead : Nat
  /-- Tail announced by the doorbell. -/
  sqTail : Nat
  cqTail : Nat
  /-- First completion slot not yet freed by the host. -/
  cqHead : Nat
  phase : Bool
  nextSeq : Word32
  lost : LostReport
deriving DecidableEq, Repr

/-- Where a fetched command stands. -/
inductive HeldPhase where
  /-- Fetched, its row not yet taken. -/
  | waiting
  /-- Running; a later row completes it. -/
  | running
deriving DecidableEq, Repr

/-- A command fetched and not completed (R404): start order, queue, packet, journal slot. -/
structure Held where
  n : Nat
  queue : Nat
  packet : List Byte
  slot : Nat
  phase : HeldPhase
deriving DecidableEq, Repr

/-- A completion that waits for a completion slot (R394): sequence, tag, status, opcode, detail, result, replayed,
interrupt wanted, journal slot. -/
structure Done where
  queue : Nat
  seq : Nat
  tag : Nat
  status : Nat
  opcode : Nat
  detail : Nat
  result : Nat
  replayed : Bool
  irq : Bool
  slot : Option Nat
deriving DecidableEq, Repr

/-- A journal entry (R513): the packet, its queue, completed-and-unwritten?, and the reply then valid. -/
structure Journal where
  packet : List Byte
  queue : Nat
  unwritten : Bool
  reply : List Byte
deriving DecidableEq, Repr

/-- A telemetry record (R402): time, event bit, tile or block, the 20 raw bytes. -/
structure Telemetry where
  time : Nat
  bit : Nat
  block : Nat
  raw : List Byte
  /-- Records overwritten before this one, saturating at 0xFF. -/
  lost : Nat
deriving DecidableEq, Repr

/-- What the block answers to a read from outside. -/
inductive Reply where
  | none
  | data (bs : List Byte)
  | unsupported
  | abort
  /-- Request Retry Status (R373). -/
  | retry
deriving DecidableEq, Repr

/-- The errors that AER logs (R371). -/
inductive AerError where
  | completerAbort | unsupported | timeout | receiver | poisoned
deriving DecidableEq, Repr

/-- What the host sets in configuration space: Bus Master Enable, the Max Payload Size and Max Read Request Size codes (128 bytes
× 2^code), and the errors logged (R371, R372). -/
structure Pcie where
  busMaster : Bool
  maxPayload : BitVec 3
  maxRead : BitVec 3
  /-- ASPM L1 is enabled in the link control register (R514). -/
  aspmL1 : Bool
  aer : List AerError
deriving DecidableEq, Repr

/-- An entry of the MSI-X table (R375, R408): address, data, and whether the vector is unmasked. -/
structure MsixEntry where
  addr : Word64
  data : Word32
  unmasked : Bool
deriving DecidableEq, Repr

/-- A send-failure record of the last step (R302): source tile, sequence number, code, failed, first failed. -/
structure SendRecord where
  source : Nat
  seq : BitVec 16
  code : BitVec 3
  failed : Nat
  first : Nat
deriving DecidableEq, Repr

/-- The host interface. -/
structure HostIf where
  queues : NMap Queue
  held : List Held
  done : List Done
  journal : NMap Journal
  nextStart : Nat
  /-- Queue served last in each priority (R404). -/
  rr : NMap Nat
  event : BitVec 13
  evIrq : Bool
  evVector : BitVec 7
  evEnable : BitVec 13
  bar2Base : Word64
  bar2Log2 : Nat
  tileErrs : Word32
  dropped : Word32
  bcast : NMap Word32
  mem : Mem
  /-- MSI-X: the table, pending bits, messages sent. -/
  msix : NMap MsixEntry
  pba : List Nat
  sent : NMap Nat
  telemetry : List Telemetry
  sendFails : List SendRecord
  sendFailCount : Nat
  /-- A send of the step failed with code 0x1 or 0x5 (R302). -/
  sendIsolated : Bool
  reply : Reply
  d3hot : Bool
  aerDrops : Nat
  pcie : Pcie
deriving DecidableEq, Repr

def Queue.init : Queue :=
  { sqBase := 0, cqBase := 0, enable := false, priority := 0, vector := 0, irqEnable := false, lastEntry := 0,
    state := .disabled, error := 0, sqHead := 0, sqTail := 0, cqTail := 0, cqHead := 0, phase := false, nextSeq := 0,
    lost := .none }
/-- Nothing programmed: no request is made, payloads of 128 and read requests of 512 bytes. (PRESUMED, log 8) -/
def Pcie.init : Pcie := { busMaster := false, maxPayload := 0, maxRead := 2, aspmL1 := false, aer := [] }
def MsixEntry.init : MsixEntry := ⟨0, 0, false⟩
/-- Every queue disabled, events clear, BAR2 64 GiB, broadcast selectors disabled (R375, R379, R382, R388).
(PRESUMED, log 8) -/
def HostIf.init : HostIf :=
  { queues := [], held := [], done := [], journal := [], nextStart := 0, rr := [], event := 0, evIrq := false,
    evVector := 0, evEnable := 0, bar2Base := 0, bar2Log2 := 36, tileErrs := 0, dropped := 0, bcast := [], mem := [],
    msix := [], pba := [], sent := [], telemetry := [], sendFails := [], sendFailCount := 0, sendIsolated := false,
    reply := .none, d3hot := false, aerDrops := 0, pcie := .init }

end Sys2Proof.Machine
end

