-- ==== Sys2Proof/Machine/LinkState.lean ====
section
/-! DEFINITION. The state of the haul roads, the Ethernet ports and the partner table (spec/12). -/
namespace Sys2Proof.Machine

/-- A partner-table entry (R411). `state` 0 empty, 1 pairing, 2 up, 3 failed; `path` 0 road, 1 Ethernet, 2 self. -/
structure Partner where
  state : Nat
  path : Nat
  port : Nat
  hops : Nat
  rank : Nat
  feedGroup : Byte
  flags : Byte
  extended : Byte
  udpPort : Nat
  identity : Word64
  ip : BitVec 128
  rateMbps : Nat
  retransmits : Nat
deriving DecidableEq, Repr

/-- HR_PORT_STATUS.state (R442). -/
inductive PortState where
  | disabled | training | up | down | failed | blockReset
deriving DecidableEq, Repr

/-- A packet of a link slot: header and up to four units (R417, R419). -/
structure LinkPacket where
  header : Word64
  units : List (List Byte)
deriving DecidableEq, Repr

/-- A flit that waits for its acknowledgement (R421): sequence, channel, link header, packets. -/
structure SentFlit where
  seq : Nat
  vc : Nat
  header : Word64
  packets : List LinkPacket
deriving DecidableEq, Repr

/-- A haul road (R416 to R422). -/
structure Road where
  state : PortState
  lanes : BitVec 2
  retryCount : Word32
  txSeq : Nat
  replay : List SentFlit
  /-- Packets waiting for credits, by virtual channel, in order. -/
  waiting : List (Nat × LinkPacket)
  credits : NMap Nat
  /-- The next flit served VC0 rather than VC3 (R420, round robin). -/
  vc3Next : Bool
  rxSeq : Nat
  /-- Buffers freed and not yet returned, by virtual channel. -/
  owed : NMap Nat
  /-- A bad flit was discarded and its resend is awaited. -/
  retrying : Bool
  retries : Nat
  /-- The flits of the last burst that the port put on its lanes, 544 bytes each (R417). -/
  out : List (List Byte)
  lastValid : Nat
  downSince : Nat
deriving DecidableEq, Repr

/-- An Ethernet port (R434 to R436, R441). -/
structure EthPort where
  state : Nat
  mode : BitVec 2
  enable : Bool
  vlan : BitVec 12
  pcp : BitVec 3
  pfcEnable : Bool
  nextHop : BitVec 48
  ipv4 : Word32
  ipv6 : BitVec 128
  drops : Word32
  /-- Device time until which the configured priority is paused; 0 when it is not. -/
  paused : Nat
  rxFill : Nat
  pausing : Bool
  /-- Answers sent to ARP requests and Neighbor Solicitations. -/
  answers : Nat
  /-- The last frame that the port sent for the transport (R435, R437). -/
  out : Option EthFrame
  /-- Since when a port that Midnight switched off is awaited (R519). -/
  awaited : Option Nat
deriving DecidableEq, Repr

/-- A datagram of the transport (R437): PSN, kind, packets, when it was last sent, whether a sack marks it, and its frame when
this device sent it. -/
structure Datagram where
  psn : Nat
  kind : Nat
  packets : List LinkPacket
  sentAt : Nat
  sacked : Bool
  frame : Option EthFrame
deriving DecidableEq, Repr

/-- A connection context (R438 to R440). -/
structure EthCtx where
  nextPsn : Nat
  unacked : List Datagram
  /-- Packets waiting to be sent: kind and packet; haul and control ahead of drain (R439). -/
  waiting : List (Nat × LinkPacket)
  /-- Highest PSN received in order; 2^24 − 1 before the first. -/
  rxPsn : Nat
  early : List Datagram
  /-- Timeouts in a row without progress. -/
  timeouts : Nat
  /-- A CE mark was seen since the last acknowledgement sent. -/
  ece : Bool
  /-- Datagrams received and not yet acknowledged, and when the first of them came. -/
  sinceAck : Nat
  ackFrom : Nat
  /-- Datagrams sent that only acknowledge. -/
  acksSent : Nat
  /-- When the rate was last cut, and when it last changed or an ece came. -/
  lastCut : Option Nat
  rateSince : Nat
deriving DecidableEq, Repr

/-- A haul packet that a port has brought in (R427): port, channel, packet, units landed, last packet of its flit?,
partner index it came from. -/
structure Inbound where
  port : Nat
  vc : Nat
  packet : LinkPacket
  landed : Nat
  last : Bool
  partner : Option Nat
deriving DecidableEq, Repr

/-- The handshake of a PAIR under way (R413). -/
structure Pairing where
  n : Nat
  index : Nat
  allowShared : Bool
  since : Nat
  /-- FEED_GROUP as it stood when the PAIR began (R566). -/
  feed : BitVec 9
deriving DecidableEq, Repr

/-- The link block. -/
structure Link where
  partners : NMap Partner
  /-- FEED_GROUP: valid and identifier. -/
  feedGroup : BitVec 9
  udpPort : BitVec 16
  pfcPriority : BitVec 3
  select : BitVec 12
  /-- PARTNER_DATA words written since the last selection (R441). -/
  staged : NMap Word32
  roads : NMap Road
  eth : NMap EthPort
  ctx : NMap EthCtx
  discarded : Word32
  fwdErrors : Word32
  drops : Word32
  inbound : List Inbound
  pairing : Option Pairing
  /-- The SerDes reference clock is present (R561). -/
  srefclk : Bool
deriving DecidableEq, Repr

def Partner.init : Partner := ⟨0, 0, 0, 0, 0, 0, 0, 0, 0, 0, 0, 0, 0⟩
def Road.init : Road :=
  { state := .disabled, lanes := 0, retryCount := 0, txSeq := 0, replay := [], waiting := [], credits := [],
    vc3Next := false, rxSeq := 0, owed := [], retrying := false, retries := 0, out := [], lastValid := 0, downSince := 0 }
def EthPort.init : EthPort :=
  { state := 0, mode := 0, enable := false, vlan := 0, pcp := 0, pfcEnable := false, nextHop := 0, ipv4 := 0,
    ipv6 := 0, drops := 0, paused := 0, rxFill := 0, pausing := false, answers := 0, out := none, awaited := none }
def EthCtx.init : EthCtx :=
  { nextPsn := 0, unacked := [], waiting := [], rxPsn := 2 ^ 24 - 1, early := [], timeouts := 0,
    ece := false, sinceAck := 0, ackFrom := 0, acksSent := 0, lastCut := none, rateSince := 0 }
/-- UDP port 46,938, PFC priority 3, no partner (R441, R443, R527). -/
def Link.init : Link :=
  { partners := [], feedGroup := 0, udpPort := 0xB75A, pfcPriority := 3, select := 0, staged := [], roads := [],
    eth := [], ctx := [], discarded := 0, fwdErrors := 0, drops := 0, inbound := [], pairing := none,
    srefclk := true }

end Sys2Proof.Machine
end

