-- ==== Sys2Proof/Machine/PowerState.lean ====
section
/-! DEFINITION. The state of reset, dawn and power (spec/15), of the root of trust (spec/16) and of the module
(spec/17). -/
namespace Sys2Proof.Machine

/-- Reset kinds in the encoding of RESET_CAUSE (R529). -/
inductive ResetKind where
  | powerOn | supply | thermal | perstN | hotReset | flr | watchdog | command | debug
deriving DecidableEq, Repr

/-- Why the device does not run dawn now. -/
inductive Standing where
  /-- Dawn runs, at the stage of `stage`. -/
  | dawn
  /-- Held in reset: no input, PERST_N asserted, or hot (R498, R526). -/
  | inReset
  | hot
  /-- Dawn has ended: in service, diagnostics, or stopped for good. -/
  | ended
  /-- In recovery hold at the end of D4 (R504). -/
  | hold
  /-- The ROM waits for a recovery image (R537, R540). -/
  | recovery
deriving DecidableEq, Repr

/-- Power state of a scope (R514). -/
inductive PowerLevel where
  | noon | evening | nightHold | midnight
deriving DecidableEq, Repr

/-- Division sources of a bench (R524, R532): 0 ÷1, 1 ÷2, 2 ÷4. -/
structure BenchClock where
  requested : BitVec 2
  twilight : BitVec 2
  cap : BitVec 2
  thermal : BitVec 2
  junction : Nat
  level : PowerLevel
deriving DecidableEq, Repr

/-- A block reset in progress or waiting (R506, R508): kind, index, its command. -/
structure BlockReset where
  kind : Nat
  index : Nat
  n : Option Nat
  running : Bool
deriving DecidableEq, Repr

/-- A power transition under way (R518, R519): its command, its benches and its target. -/
structure Transition where
  n : Option Nat
  benches : List Nat
  level : PowerLevel
  device : Bool
  /-- Firmware checks that the tiles are quiet, and waits for a running step; POWER_CONTROL acts without it (R531). -/
  checked : Bool
deriving DecidableEq, Repr

/-- A twilight entry of the retained log (R512). -/
structure TwilightEntry where
  time : Nat
  rail : Nat
  recovered : Bool
  capLowered : Bool
  duration : Nat
  lowest : Nat
deriving DecidableEq, Repr

/-- A reset-cause entry of the retained log (R512). -/
structure CauseEntry where
  time : Nat
  kind : ResetKind
  detail : Nat
  stage : Nat
  step : Nat
deriving DecidableEq, Repr

/-- The power and reset block. -/
structure Power where
  standing : Standing
  stage : Nat
  service : BitVec 2
  ready : Bool
  diagReady : Bool
  bootSel : BitVec 4
  /-- RESET_CAUSE (R529). -/
  kind : ResetKind
  retainedValid : Bool
  optionDefault : Bool
  detail : Byte
  causeStage : BitVec 3
  resetsInWindow : Nat
  history : List Nat
  causeOnly : Bool
  bkp : NMap Word32
  causeLog : NMap (Option CauseEntry)
  causeNext : Nat
  twiLog : NMap (Option TwilightEntry)
  twiNext : Nat
  retPage : Bool
  ctlState : BitVec 2
  ctlDivision : BitVec 2
  ctlMask : BitVec 6
  cap : Nat
  inputW : Nat
  unreachable : Bool
  benches : NMap BenchClock
  /-- Open twilight episodes: rail and log slot. -/
  openTwilight : List (Nat × Nat)
  /-- Starts of recent twilight events, newest last (R523). -/
  twiTimes : List Nat
  twiCount : Word32
  /-- Last time firmware slowed a bench, and since when the power has stayed below 95 % (R525). -/
  lastSlow : Option Nat
  blockResets : List BlockReset
  blkKind : BitVec 3
  blkIndex : BitVec 11
  transition : Option Transition
  v48 : Bool
  aux : Bool
  /-- D3cold entry was recorded (R458). -/
  d3cold : Bool
  /-- The next D4 zero-fills main memory (R458, R462). -/
  fillDue : Bool
  /-- The bench served in field mode (R492). -/
  fieldBench : Option Nat
  /-- PERST_N is asserted (R498). -/
  perst : Bool
  /-- The next D4 rebuilds STEP_LOG_INDEX (R473, R527). -/
  rebuildLog : Bool
  /-- Tiles, spares and benches that failed D5 (R491). -/
  benchFailed : List Nat
deriving DecidableEq, Repr

/-- A firmware write under way (R539). -/
structure FwWrite where
  n : Nat
  bankB : Bool
  image : List Byte
deriving DecidableEq, Repr

/-- A report request (R546 to R548): the ATTEST command, or a DOE request. -/
structure SignRequest where
  n : Option Nat
  nonce : List Byte
  buffer : Nat
  /-- The body captured when its signing began. -/
  body : Option (List Byte)
deriving DecidableEq, Repr

/-- A JTAG challenge (R549). -/
structure Challenge where
  bytes : BitVec 256
  time : Nat
deriving DecidableEq, Repr

/-- The root of trust and the security block. -/
structure Security where
  counter : Nat
  bankA : List Byte
  bankB : List Byte
  bootBank : Bool
  fallback : Bool
  recovery : Bool
  rollbackChecked : Bool
  debugScope : BitVec 3
  unlocked : Bool
  securityVersion : Nat
  fwVersion : Word32
  aValid : Bool
  bValid : Bool
  /-- Measurement slots 0 to 6 (R541). -/
  slots : NMap (List Byte)
  attestKey : BitVec 512
  write : Option FwWrite
  recTarget : Bool
  recStatus : BitVec 3
  recWindow : Mem
  recReceived : List Byte
  recSideband : Bool
  challenge : Option Challenge
  rejected : Nat
  signing : List SignRequest
deriving DecidableEq, Repr

/-- The module's sideband (R564 to R567). -/
structure Module where
  eid : Byte
  /-- Readings by sensor, at the last refresh. -/
  sensors : NMap Nat
  /-- ALERT_N is asserted. -/
  alert : Bool
  /-- Conditions not read yet: 0 threshold, 1 twilight, 2 thermal, 3 recovery hold. -/
  conditions : List Nat
deriving DecidableEq, Repr

def BenchClock.init : BenchClock := ⟨0, 0, 0, 0, 0, .noon⟩
def Power.init : Power :=
  { standing := .dawn, stage := 0, service := 0, ready := false, diagReady := false, bootSel := 0, kind := .powerOn,
    retainedValid := false, optionDefault := false, detail := 0, causeStage := 0, resetsInWindow := 1, history := [0],
    causeOnly := false, bkp := [], causeLog := [(0, some ⟨0, .powerOn, 0, 0, 2 ^ 32 - 1⟩)], causeNext := 1, twiLog := [], twiNext := 0, retPage := false,
    ctlState := 0, ctlDivision := 0, ctlMask := 0, cap := 3000, inputW := 0, unreachable := false, benches := [],
    openTwilight := [], twiTimes := [], twiCount := 0, lastSlow := none, blockResets := [], blkKind := 0,
    blkIndex := 0, transition := none, v48 := true, aux := false, d3cold := false, fillDue := true, fieldBench := none,
    perst := false, rebuildLog := true, benchFailed := [] }
def Module.init : Module := ⟨0, [], false, []⟩

end Sys2Proof.Machine
end

