-- ==== Sys2Proof/Machine/ResState.lean ====
section
/-! DEFINITION. The state of resilience (spec/14) and of the spoil map (spec/01). -/
namespace Sys2Proof.Machine

/-- A bench row of the spoil map (R27). `spare`: 0 available, 1 in service, 2 retired, 3 filling, 4 exhausted. -/
structure RowRepair where
  offset : BitVec 4
  shifted : Bool
  spare : BitVec 3
  cause : BitVec 4
deriving DecidableEq, Repr

/-- RECOVERY_STATE.state (R497). -/
inductive RecoveryState where
  | normal | repairHold | replay | restoreRequired | peerHold
deriving DecidableEq, Repr

/-- A drain under way (R475 to R480). -/
structure Drain where
  /-- Start order of the DRAIN command; none for an automatic drain. -/
  n : Option Nat
  partner : Nat
  path : Nat
  slot : Nat
  /-- The snapshot has been taken (between steps); false while the drain waits for a step to end (R477). -/
  begun : Bool
  shipping : Bool
  u : Word64
  lastStep : Word64
  bankBase : Nat
  bankLen : Nat
  profile : List Byte
  layoutId : List Byte
  imageDigest : List Byte
  k : Nat
  clean : Nat
  feedGroup : BitVec 9
  correlated : Bool
  scaleEntries : NMap ScaleEntry
  log : Mem
  logIndex : Word64
  tStart : Nat
  /-- 2 MiB regions of the bank read already (R344). -/
  regions : List Nat
deriving DecidableEq, Repr

/-- A foreign slot being filled (R478): owner's identity, body length, leaves received and the failing chunk. -/
structure ForeignFill where
  identity : Word64
  slot : Nat
  manifest : List Byte
  leaves : NMap (List Byte)
  bad : Bool
deriving DecidableEq, Repr

/-- FOREIGN_OWNER_s (R495), with the identity that owns the slot. -/
structure ForeignOwner where
  newest : Bool
  complete : Bool
  partner : BitVec 12
  identity : Word64
deriving DecidableEq, Repr

/-- A failure that firmware has detected (R481, R482). -/
structure Failure where
  tile : Nat
  cause : FailCause
  transient : Bool
  /-- Device address of the word, for a memory cause (R403). -/
  addr : Nat
  /-- Descriptors queued and sends outstanding on the tile when its engine work was ended (R483). -/
  descs : Nat
  sends : Nat
  /-- A RETIRE_TILE asked for it (R27 cause 6). -/
  command : Bool
deriving DecidableEq, Repr

/-- The log entries newer than last_step (R487): first, next to be replayed, last. -/
structure Replay where
  first : Word64
  next : Word64
  last : Word64
  forced : Bool
deriving DecidableEq, Repr

/-- A restore that has passed its checks (R485, R486). -/
structure Restore where
  n : Nat
  /-- The copy's 256 manifest bytes and its device address. -/
  manifest : List Byte
  address : Nat
  partner : Option Nat
  forced : Bool
deriving DecidableEq, Repr

/-- The resilience block. -/
structure Resilience where
  protect : Bool
  partner : BitVec 12
  path : BitVec 2
  interval : BitVec 8
  state : RecoveryState
  forced : Bool
  attempt : BitVec 4
  tile : BitVec 11
  /-- Failures waiting (R482); while `filling` the head's spare is being filled. -/
  failures : List Failure
  filling : Bool
  /-- The repair in progress belongs to a RETIRE_TILE: its start order. -/
  retire : Option Nat
  drain : Option Drain
  lastOk : Bool
  lastCode : BitVec 3
  homeValid : Bool
  homeNewest : Bool
  shippedGib : Nat
  skipped : Word32
  lastU : Word64
  recoveryBase : Word64
  inputRing : Word32
  shadowBase : Word64
  shadowLength : Word32
  homeBase : Word64
  homeLength : Word32
  foreignBase : Word64
  foreignConfig : Word32
  logIndex : Word64
  owners : NMap (Option ForeignOwner)
  fills : NMap (Option ForeignFill)
  replay : Option Replay
  restore : Option Restore
  rows : NMap RowRepair
  /-- Bench offset of the second tile retired in an exhausted row (R22, R25). -/
  lost : NMap (Option (BitVec 4))
  /-- The bytes of the two spoil-map records in flash, and whether a write is pending (R490). -/
  flash : NMap (List Byte)
  flashBusy : Bool
  /-- Time of the last transient error of a tile (R481). -/
  transient : NMap (Option Nat)
  /-- Held for a peer's repair, since (R483). -/
  peerSince : Option Nat
  /-- Last step that advanced U (R476). -/
  lastStep : Word64
deriving DecidableEq, Repr

def RowRepair.init : RowRepair := ⟨0, false, 0, 0⟩
/-- Interval 8; protection off; regions of length zero (R495 to R497, R502). -/
def Resilience.init : Resilience :=
  { protect := false, partner := 0, path := 0, interval := 8, state := .normal, forced := false, attempt := 0,
    tile := 0, failures := [], filling := false, retire := none, drain := none, lastOk := false, lastCode := 0, homeValid := false,
    homeNewest := false, shippedGib := 0, skipped := 0, lastU := 0, recoveryBase := 0, inputRing := 0x2000_0000,
    shadowBase := 0, shadowLength := 0, homeBase := 0, homeLength := 0, foreignBase := 0, foreignConfig := 0,
    logIndex := 0, owners := [], fills := [], replay := none, restore := none, rows := [], lost := [],
    flash := [], flashBusy := false, transient := [], peerSince := none, lastStep := BitVec.allOnes 64 }

end Sys2Proof.Machine
end

