-- ==== Sys2Proof/Machine/State.lean ====
section
/-! DEFINITION. The whole state of the YZ1 block, its stop reasons, and the state after reset: the power-on reset of
R498 has just happened and dawn stands at D0. -/
namespace Sys2Proof.Machine

/-- What runs (R41, R94, R400). -/
inductive StepKind where
  | step | run | eval
deriving DecidableEq, Repr

/-- A RUN in progress (R400): batch table, entries in all, entries completed with OK. -/
structure RunList where
  first : Word64
  count : Nat
  table : Nat
  completed : Nat
  /-- One of its steps ran more than once (R397). -/
  replayed : Bool
  /-- The RUN's hold_bank flag (R340, R396). -/
  hold : Bool
deriving DecidableEq, Repr

/-- What a step-log entry records at stage 2 (R471, R472). -/
structure LogStart where
  u : Word64
  k : Nat
  clean : Nat
  keyedSeed : Word64
  freeSeed : Word64
  scaleDigest : List Byte
  batchDigest : List Byte
  eligible : Bool
deriving DecidableEq, Repr

/-- A step that is running (R41, R75 to R83, R339, R469 to R472, R482). -/
structure StepRun where
  kind : StepKind
  /-- Start-order number of the command. -/
  n : Nat
  stepNo : Word64
  batchAddr : Nat
  batchLen : Nat
  holdBank : Bool
  /-- Runs of the step before this one, 0 to 7 (R482). -/
  attempt : Nat
  startTime : Nat
  /-- None when the step gets no log entry: replay protection is off, or it is an EVAL (R469, R354). -/
  log : Option LogStart
  runList : Option RunList
  /-- The step is a logged replay (R487). -/
  logged : Bool
  /-- A program fault has arisen; firmware has halted the tiles at `haltAt` (R80). -/
  programFault : Bool
  haltAt : Option Nat
  /-- Faulted tiles, each with the code of its first fault in this run (R80). -/
  faulted : List (Nat × BitVec 8)
  /-- Word of BELL_TIMEOUT_RECORD when a bell timed out (R292, R307). -/
  timeout : Option Word32
  /-- Status and detail with which the command ends when a repair cannot replay the step (R466, R482). -/
  cause : Option (Nat × Nat)
  /-- The tiles are stopped: halted for a repair or after a fault or timeout (R80, R482, R483). -/
  stopped : Bool
  /-- The training image, while an evaluation image is loaded (R93). -/
  training : Option Image
  /-- The scale table as the evaluation found it, whose view comes back (R200). -/
  scales : NMap ScaleEntry
deriving DecidableEq, Repr

/-- Time (R10, R38): full-clock cycles, and tile-clock cycles of each bench. -/
structure Clock where
  tick : Nat
  /-- What PTM has added to the time that the ticks give, ns (R38, R371). -/
  skew : Int
  benchCycles : NMap Nat
deriving DecidableEq, Repr

structure State where
  pending : List Instr
  freeCtr : Nat
  clock : Clock
  tiles : NMap Tile
  bell : Bell
  step : Option StepRun
  image : Option Image
  /-- The loaded image may be run (R81, R466, R482, R507, R519). -/
  runnable : Bool
  unshadowed : Bool
  /-- An expert code-store write was made since the LOAD_IMAGE (R88, R472). -/
  expertCode : Bool
  /-- Step number of the most recent completed STEP (R323). -/
  lastDone : Option Word64
  scale : Scale
  random : Random
  train : Train
  seqWindow : Mem
  mm : MainMem
  host : HostIf
  link : Link
  res : Resilience
  pw : Power
  sec : Security
  mod : Module
deriving DecidableEq, Repr

/-- Why the block stops with a fault. -/
inductive Fault where
  /-- The command names a unit that the device does not have (a tile of 1,536 or above, a queue of 64 or above,
  and so on). Safe: no agent of the hardware can take such a step. -/
  | noSuchUnit
deriving DecidableEq, Repr

/-- Why the block gives no meaning to a command. -/
inductive Refusal where
  /-- Raised only by Dispatch, for a row that has no meaning yet. Safe: the machine stops. -/
  | notModelled (mnemonic : String)
deriving DecidableEq, Repr

/-- Key words of seed 0 (R317, R331): the reset value of KEY_0 to KEY_7. -/
def resetKey : List Word32 :=
  [0xF4FFFE98, 0xE568059E, 0x1AD02026, 0xE75FAB32, 0xD86EDCEB, 0xB5371D24, 0x207331EB, 0x05EAEAC2]

/-- Seeds zero; the key of seed 0 is derived before D6 (R331). -/
def Random.init : Random :=
  { keyedSeed := 0, freeSeed := 0, key := resetKey, keyBusy := false, keyValid := false, freeArmed := false }

/-- Main memory before the first D4: nothing trained, modes of the option block (R458, R462, R464). -/
def MainMem.init : MainMem :=
  { bytes := [], checks := [], served := [], cache := [], cur := ⟨Config.optPools, Config.optUnchecked, Config.optRate⟩,
    next := ⟨Config.optPools, Config.optUnchecked, Config.optRate⟩, trained := false, filling := false, chanFail := [],
    usableGib := 0, ueLog := ⟨false, 0, 0⟩, ueAddr := 0, retryOk := 0, ueCount := 0, linkCe := 0, groups := [], scrubPos := [],
    refreshes := [], retrained := [] }

/-- The security block before the first D3: flash and fuses as manufactured, nothing measured (R534, R551). -/
def Security.init : Security :=
  { counter := Config.rollbackFused % 65, bankA := Config.flashA, bankB := Config.flashB, bootBank := false,
    fallback := false, recovery := false, rollbackChecked := false, debugScope := 0, unlocked := false,
    securityVersion := 0, fwVersion := 0, aValid := false, bValid := false, slots := [], attestKey := 0, write := none,
    recTarget := false, recStatus := 0, recWindow := [], recReceived := [], recSideband := false, challenge := none,
    rejected := 0, signing := [] }

/-- The machine right after a power-on reset, with dawn at D0 (R498, R501, R527). (DESIGN CHOICE, log 5) -/
def State.reset : State :=
  { pending := [], freeCtr := 0, clock := ⟨0, 0, []⟩, tiles := [], bell := .init, step := none, image := none,
    runnable := false, unshadowed := false, expertCode := false, lastDone := none, scale := .init, random := .init,
    train := .init, seqWindow := [], mm := .init, host := .init, link := .init, res := .init, pw := .init,
    sec := .init, mod := .init }

end Sys2Proof.Machine
end

