-- ==== Sys2Proof/Machine/TileOps.lean ====
section
/-! DEFINITION. Operations of one tile over its registers, memory, check bits, pages and rings
(spec/02 R46, R58 to R66; spec/03 R97 to R137). -/
namespace Sys2Proof.Machine

def ReachOp.isWrite : ReachOp → Bool
  | .writeS | .writeV => true
  | _ => false

/-- Bytes of an access (R74). -/
def ReachOp.size : ReachOp → Nat
  | .readS | .writeS => 8
  | _ => 128

/-- Reads a scalar register; s0 reads zero (R46). -/
def Tile.sreg (t : Tile) (r : SReg) : Word64 := if r = 0 then 0 else t.core.s.get r.toFin

/-- Writes a scalar register; a write to s0 is discarded (R46). -/
def Tile.setS (t : Tile) (r : SReg) (w : Word64) : Tile :=
  if r = 0 then t else { t with core := { t.core with s := t.core.s.set r.toNat w r.isLt } }

/-- Reads a vector register (R46). -/
def Tile.vreg (t : Tile) (r : VReg) : Vector Word32 32 := t.core.v.get r.toFin

/-- Writes a vector register (R46). -/
def Tile.setV (t : Tile) (r : VReg) (x : Vector Word32 32) : Tile :=
  { t with core := { t.core with v := t.core.v.set r.toNat x r.isLt } }

/-- A vector register from a function of the lane number. -/
def lanes (f : Nat → Word32) : Vector Word32 32 := Vector.ofFn fun i => f i.val

/-- Lane i of a vector register; lanes past 31 wrap (R571 VSHUF). -/
def lane (x : Vector Word32 32) (i : Nat) : Word32 := x.get ⟨i % 32, Nat.mod_lt _ (by decide)⟩

/-- The 128 bytes of a vector register, lane 0 lowest (R46, R49). -/
def laneBytes (x : Vector Word32 32) : List Byte := x.toList.flatMap fun w => leBytes 4 w.toNat

/-- A vector register from 128 bytes. -/
def bytesLanes (bs : List Byte) : Vector Word32 32 := lanes fun i => BitVec.ofNat 32 (leAt bs (4 * i) 4)

/-- Marks registers pending or not (R58). -/
def Tile.pendScalar (t : Tile) (r : SReg) (b : Bool) : Tile :=
  if r = 0 then t
  else
    let bit : BitVec 32 := 1#32 <<< r.toNat
    { t with core := { t.core with pendS := if b then t.core.pendS ||| bit else t.core.pendS &&& ~~~bit } }

def Tile.pendVector (t : Tile) (r : VReg) (b : Bool) : Tile :=
  let bit : BitVec 16 := 1#16 <<< r.toNat
  { t with core := { t.core with pendV := if b then t.core.pendV ||| bit else t.core.pendV &&& ~~~bit } }

/-- Tile data memory in bytes (R97). -/
def dataBytes : Nat := 2 ^ 21

/-! ### Check bits (R127, R128) -/

/-- Words of a map of flipped bits within a span of words, each with its flips. -/
def flipsIn (m : NMap (BitVec 2)) (lo n : Nat) : NMap (BitVec 2) :=
  m.filter fun p => decide (lo ≤ p.1) && decide (p.1 < lo + n)

/-- Two flipped bits: uncorrectable. -/
def isDouble (b : BitVec 2) : Bool := b == 3

/-- ECC_UE_ADDR of a word (R136). -/
def ueAddrOf (word : Nat) : Word32 := BitVec.ofNat 32 (word % 2 ^ 18 * 8)

/-- Records an uncorrectable error: the first since clear in the registers, every consumed word for firmware (R82, R128, R136);
the scrubber consumes nothing (R129). (DESIGN CHOICE, log 22) -/
def TileMem.recordUe (m : TileMem) (code : Bool) (consumer : BitVec 3) (word : Nat) : TileMem :=
  let m := if consumer = 6 || m.ueUsed.contains (code, word) then m else { m with ueUsed := m.ueUsed ++ [(code, word)] }
  if m.ue then m
  else { m with ue := true, ueCode := code, ueConsumer := consumer, ueAddr := ueAddrOf word }

/-- Records corrected words and queues their write-back (R127). -/
def TileMem.recordCe (m : TileMem) (code : Bool) (words : List Nat) : TileMem :=
  if words.isEmpty then m
  else
    { m with ce := true, ceCount := BitVec.ofNat 16 (satInc 16 m.ceCount.toNat words.length),
             wbQueue := m.wbQueue ++ ((words.filter fun w => !m.wbQueue.contains (code, w)).map fun w => (code, w)) }

/-- Checks a span of 64-bit words of the data memory or code store: records what it finds, and answers
whether every word could be read. -/
def TileMem.checkWords (m : TileMem) (code : Bool) (consumer : BitVec 3) (lo n : Nat) : TileMem × Bool :=
  let fl := flipsIn (if code then m.eccCode else m.eccData) lo n
  let m := m.recordCe code ((fl.filter fun p => !isDouble p.2).map (·.1))
  match fl.find? fun p => isDouble p.2 with
  | some p => (m.recordUe code consumer p.1, false)
  | none => (m, true)

/-- Offset of the first uncorrectable word of a span of data memory. -/
def Tile.badOffset (t : Tile) (off n : Nat) : Nat :=
  8 * (((flipsIn t.mem.eccData (off / 8) (ceilDiv (off % 8 + n) 8)).find? fun p => isDouble p.2).map (·.1)).getD (off / 8)

/-- Reads `n` bytes at an offset for a consumer of R136; none when a word is uncorrectable (R127, R128). -/
def Tile.readData (t : Tile) (consumer : BitVec 3) (off n : Nat) : Tile × Option (List Byte) :=
  let r := t.mem.checkWords false consumer (off / 8) (ceilDiv (off % 8 + n) 8)
  ({ t with mem := r.1 }, if r.2 then some (NMap.getRun 0 t.mem.data off n) else none)

/-! ### Pages (R113 to R120) -/

/-- Attribute of a page: 0 plain, 1 resident, 2 backed (R113). -/
def Tile.pageAttr (t : Tile) (page : Nat) : BitVec 2 := NMap.get 0 t.pages.attr page

/-- Page-table entry n (R116). -/
def Tile.pageEntry (t : Tile) (n : Nat) : PageEntry := NMap.get PageEntry.init t.pages.table n

/-- Entry that binds a frame, as its number. -/
def Tile.entryOf (t : Tile) (page : Nat) : Option Nat :=
  (t.pages.table.find? fun p => p.2.frame.toNat == page && p.2.state != 0).map (·.1)

/-- Writes a page-table entry. -/
def Tile.setEntry (t : Tile) (n : Nat) (e : PageEntry) : Tile :=
  { t with pages := { t.pages with table := NMap.set PageEntry.init t.pages.table n e } }

/-- What a touch of memory finds (R117, R119). -/
inductive Touch where
  | ok
  | wait (t : Tile) (page : Nat)
  | unresolved
deriving DecidableEq, Repr

/-- Touch of one page: a backed page must be present; an absent one with a home starts a fill (R117, R119, R261).
(DESIGN CHOICE, log 24) -/
def Tile.touchPage (t : Tile) (page : Nat) : Touch :=
  if t.pageAttr page != 2 then .ok
  else
    match t.entryOf page with
    | none => .unresolved
    | some n =>
      let e := t.pageEntry n
      if e.state == 3 then .ok
      else if e.state == 5 then .unresolved
      else if e.state == 1 then
        (if e.homeValid then
          .wait { t.setEntry n { e with state := 2 } with
            pages := { (t.setEntry n { e with state := 2 }).pages with fills := t.pages.fills ++ [n] } } page
         else .unresolved)
      else .wait t page

/-- Touch of the pages of a span, first page that is not ready first. -/
def Tile.touchPages (t : Tile) : List Nat → Touch
  | [] => .ok
  | p :: ps =>
    match t.touchPage p with
    | .ok => t.touchPages ps
    | r => r

/-- Touch of a span of tile memory (R117). -/
def Tile.touch (t : Tile) (off n : Nat) : Touch :=
  if n = 0 then .ok
  else t.touchPages (rangeFrom (off / 4096) ((off + n - 1) / 4096 - off / 4096 + 1))

/-- The S-core's access waits for a page (R117, R138). -/
def Tile.setWait (t : Tile) (write : Bool) (accessor : BitVec 3) (page : Nat) : Tile :=
  { t with core := { t.core with pageWait := some (write, accessor, BitVec.ofNat 9 page) } }

/-- The page at a frame is absent, filling or being written back (R117). -/
def Tile.pageAwaited (t : Tile) (page : Nat) : Bool :=
  match t.entryOf page with
  | some n => let st := (t.pageEntry n).state; st == 1 || st == 2 || st == 4
  | none => false

/-- Marks the pages of a written span: dirty when backed and present (R116), shadow-written when resident (R467). -/
def Tile.markPage (t : Tile) (page : Nat) : Tile :=
  let a := t.pageAttr page
  if a == 1 then
    { t with pages := { t.pages with shadowWritten :=
        if t.pages.shadowWritten.contains page then t.pages.shadowWritten else t.pages.shadowWritten ++ [page] } }
  else if a == 2 then
    match t.entryOf page with
    | some n => let e := t.pageEntry n; if e.state == 3 then t.setEntry n { e with dirty := true } else t
    | none => t
  else t

/-- Writes bytes to the data memory: whole words with fresh check bits (R98, R127, R137), marking pages. (DEDUCED, log 27) -/
def Tile.writeData (t : Tile) (off : Nat) (bs : List Byte) : Tile :=
  if bs.isEmpty then t
  else
    let lo := off / 8
    let n := (off + bs.length - 1) / 8 - lo + 1
    let t := { t with mem := { t.mem with
      data := NMap.setRun 0 t.mem.data off bs, eccData := NMap.dropRange t.mem.eccData lo n } }
    (rangeFrom (off / 4096) ((off + bs.length - 1) / 4096 - off / 4096 + 1)).foldl Tile.markPage t

/-! ### Rings (R58 to R66, R104 to R112) -/

def Tile.ring (t : Tile) (r : RingNo) : Ring := t.rings.get r.toFin
def Tile.setRing (t : Tile) (r : RingNo) (x : Ring) : Tile := { t with rings := t.rings.set r.toNat x r.isLt }

/-- Occupancy, (tail − head) mod 2^32 (R106). -/
def Ring.occupancy (x : Ring) : Nat := (x.tail - x.head).toNat

/-- Free space (R106). -/
def Ring.space (x : Ring) : Nat := x.size.toNat - x.occupancy

/-- Units that no issued consumer has claimed (R59 condition 1). -/
def Ring.available (x : Ring) : Nat := x.occupancy - x.claimed

/-- Room that no issued producer holds (R59 condition 2, R108). -/
def Ring.room (x : Ring) : Nat := x.space - x.reserved

/-- Tile-memory offset of the unit with running count n (R106). -/
def Ring.offset (x : Ring) (n : Nat) : Nat := 64 * (x.base.toNat + n % 2 ^ 32 % x.size.toNat)

/-- First running count that a new consumer claims: the unit after every claimed one (R66). -/
def Ring.firstFree (x : Ring) : Nat := x.head.toNat + x.claimed

/-- The descriptor as its 128 bits (R104). -/
def Ring.pack (x : Ring) : BitVec 128 :=
  BitVec.ofNat 128 (x.base.toNat + fieldAt x.size.toNat 16 + fieldAt x.head.toNat 32 + fieldAt x.tail.toNat 64
    + fieldAt (b2n x.valid) 96 + fieldAt (b2n x.countPrefixed) 97 + fieldAt x.stallThreshold.toNat 112)

/-- A descriptor from its 128 bits, counters zero (R104, R107). -/
def Ring.unpack (w : BitVec 128) : Ring :=
  let n := w.toNat
  { Ring.init with
    base := BitVec.ofNat 15 (bitsAt n 0 15), size := BitVec.ofNat 16 (bitsAt n 16 16),
    head := BitVec.ofNat 32 (bitsAt n 32 32), tail := BitVec.ofNat 32 (bitsAt n 64 32), valid := natBit n 96,
    countPrefixed := natBit n 97, stallThreshold := BitVec.ofNat 16 (bitsAt n 112 16) }

/-- Well formed (R105), against a page attribute function. -/
def Ring.wellFormed (x : Ring) (attr : Nat → BitVec 2) : Bool :=
  !x.valid ||
    (decide (1 ≤ x.size.toNat) && decide (x.size.toNat ≤ 32768) && decide (x.base.toNat + x.size.toNat ≤ 32768)
      && decide (x.occupancy ≤ x.size.toNat)
      && (rangeFrom (x.base.toNat / 64) ((x.base.toNat + x.size.toNat - 1) / 64 - x.base.toNat / 64 + 1)).all
        fun p => attr p != 2)

/-- End of a stall: the ring moved (R112). -/
def Ring.moved (x : Ring) : Ring := { x with timer := 0, raised := false }

/-- Adds or removes a waiter; when none is left the stall ends (R112). -/
def Ring.addWaiter (x : Ring) (w : Bool × BitVec 2) : Ring :=
  if x.waiting.contains w then x else { x with waiting := x.waiting ++ [w] }
def Ring.dropWaiter (x : Ring) (w : Bool × BitVec 2) : Ring :=
  let l := x.waiting.filter (· != w)
  if l.isEmpty then { x.moved with waiting := [] } else { x with waiting := l }

/-- A waiter code of the S-core: issue check 0, ring instruction 1 (R135). -/
def isCoreWaiter (w : Bool × BitVec 2) : Bool := w.2 == 0 || w.2 == 1

/-- The S-core waits on the ring as `w` says, or no more; a stall that goes on keeps its timer (R112). -/
def Ring.coreWaits (x : Ring) : Option (Bool × BitVec 2) → Ring
  | some w => if x.waiting.contains w then x else { x with waiting := x.waiting.filter (!isCoreWaiter ·) ++ [w] }
  | none =>
    if x.waiting.any isCoreWaiter then
      let l := x.waiting.filter (!isCoreWaiter ·)
      if l.isEmpty then { x.moved with waiting := [] } else { x with waiting := l }
    else x

/-- A consumer claims units (R59). -/
def Ring.claim (x : Ring) (id units : Nat) : Ring :=
  if units = 0 then x else { x with claimed := x.claimed + units, claims := x.claims ++ [⟨id, units, false⟩] }

/-- Advances the head over every finished consumer at the front (R60). -/
def Ring.popDone (x : Ring) : List Claim → Ring
  | [] => { x with claims := [] }
  | c :: cs =>
    if c.done then
      Ring.popDone { x.moved with head := x.head + BitVec.ofNat 32 c.units, claimed := x.claimed - c.units } cs
    else { x with claims := c :: cs }

/-- A consumer completes: its advance waits for every earlier consumer (R60). (DEDUCED, log 26) -/
def Ring.finish (x : Ring) (id : Nat) : Ring :=
  x.popDone (x.claims.map fun c => if c.id = id then { c with done := true } else c)

/-- An engine reset ends a consumer: its claim is released with no head advance (R80). -/
def Ring.release (x : Ring) (id : Nat) : Ring :=
  let gone := ((x.claims.filter fun c => c.id = id).map (·.units)).foldl (· + ·) 0
  { x with claimed := x.claimed - gone, claims := x.claims.filter fun c => c.id ≠ id }

/-- Reserves units for an issued producer, after those of earlier producers (R59, R66). -/
def Ring.reserve (x : Ring) (id : Nat) (mask : Bool) (units : Nat) : Ring :=
  if units = 0 then x else { x with reserved := x.reserved + units, owners := x.owners ++ [(id, mask, units)] }

/-- The next unit of the ring that is reserved is this producer's (R66). -/
def Ring.isNext (x : Ring) (id : Nat) (mask : Bool) : Bool :=
  match x.owners with
  | o :: _ => o.1 == id && o.2.1 == mask
  | [] => false

/-- The first reserving producer has written `n` of its units (R60). -/
def Ring.fill (x : Ring) (n : Nat) : Ring :=
  match x.owners with
  | o :: rest => { x with reserved := x.reserved - n, owners := if o.2.2 ≤ n then rest else (o.1, o.2.1, o.2.2 - n) :: rest }
  | [] => x

/-- Updates one ring of a tile. -/
def Tile.modRing (t : Tile) (r : RingNo) (f : Ring → Ring) : Tile := t.setRing r (f (t.ring r))

/-- Writes a unit at a distance past the tail, moving nothing. -/
def Tile.writeAhead (t : Tile) (r : RingNo) (ahead : Nat) (unit : List Byte) : Tile :=
  let x := t.ring r
  t.writeData (x.offset (x.tail.toNat + ahead)) unit

/-- Advances the tail over n written units (R60, R108). -/
def Tile.advanceTail (t : Tile) (r : RingNo) (n : Nat) : Tile :=
  if n = 0 then t else t.modRing r fun x => { x.moved with tail := x.tail + BitVec.ofNat 32 n }

/-- Writes one unit at the tail and advances it (R108, R280). -/
def Tile.pushUnit (t : Tile) (r : RingNo) (unit : List Byte) : Tile := (t.writeAhead r 0 unit).advanceTail r 1

/-- Reads n units of a ring from a running count; none when a word is uncorrectable. -/
def Tile.readUnits (t : Tile) (consumer : BitVec 3) (r : RingNo) : Nat → Nat → Tile × Option (List Byte)
  | _, 0 => (t, some [])
  | start, n + 1 =>
    let a := t.readData consumer ((t.ring r).offset start) 64
    match a.2 with
    | none => (a.1, none)
    | some bs =>
      let b := a.1.readUnits consumer r (start + 1) n
      (b.1, b.2.map (bs ++ ·))

/-! ### Count units (R239) -/

/-- Fields of a count unit. -/
structure CountUnit where
  rows : Nat
  units : Nat
  groupMap : Option Word32
deriving DecidableEq, Repr

/-- Reads a count unit (R239). -/
def CountUnit.parse (bs : List Byte) : CountUnit :=
  { rows := leAt bs 0 4, units := leAt bs 4 4,
    groupMap := if natBit (leAt bs 12 1) 0 then some (BitVec.ofNat 32 (leAt bs 8 4)) else none }

/-- Writes a count unit (R239, R255). -/
def CountUnit.encode (c : CountUnit) : List Byte :=
  fit 0 64 (leBytes 4 c.rows ++ leBytes 4 c.units ++ leBytes 4 ((c.groupMap.getD 0).toNat)
    ++ leBytes 1 (b2n c.groupMap.isSome))

/-! ### Faults (R78, R79, R86) -/

/-- The tile fault codes of R78. -/
inductive TileFault where
  | illegalInsn | pcRange | misaligned | addressRange | ringUndefined | ringNeedExceedsSize | queueParam
  | sendParam | reachAddress | bellCount | earlyHalt | pageFaultUnresolved | memoryUncorrectable | routerError
deriving DecidableEq, Repr

def TileFault.code : TileFault → BitVec 8
  | .illegalInsn => 0x01 | .pcRange => 0x02 | .misaligned => 0x03 | .addressRange => 0x04 | .ringUndefined => 0x05
  | .ringNeedExceedsSize => 0x06 | .queueParam => 0x07 | .sendParam => 0x08 | .reachAddress => 0x09
  | .bellCount => 0x0A | .earlyHalt => 0x0B | .pageFaultUnresolved => 0x10 | .memoryUncorrectable => 0x20
  | .routerError => 0x21

/-- Hardware faults (R78). -/
def TileFault.hardware : TileFault → Bool
  | .memoryUncorrectable | .routerError => true
  | _ => false

/-- The S-core waits on no ring any more (R112). -/
def Tile.waitsNowhere (t : Tile) : Tile := { t with rings := t.rings.map fun x => x.coreWaits none }

/-- Records a fault, the first since clear, and stops the S-core, which then waits on no ring (R79, R86, R112). -/
def Tile.recordFault (t : Tile) (f : TileFault) (pc : Nat) (insn : Word64) (addr : Nat) : Tile :=
  let rec' : FaultRecord :=
    { valid := true, hardware := f.hardware, code := f.code, pc := BitVec.ofNat 13 pc, insn := insn,
      addr := BitVec.ofNat 64 addr }
  let t := if t.core.run == .stalled then t.waitsNowhere else t
  { t with core := { t.core with
      fault := if t.core.fault.valid then t.core.fault else rec', run := .faulted, stallKind := .none,
      stallRing := 0, held := none } }

end Sys2Proof.Machine
end

