-- ==== Sys2Proof/Machine/Ops.lean ====
section
/-! DEFINITION. Operations over the whole state that many commands share: tiles and their places, free values,
what an image says of a tile, isolation, and the issue of one tile instruction. -/
namespace Sys2Proof.Machine

/-- The answer of a command. -/
abbrev Out := Host.Outcome State Fault Refusal

/-- Logical tiles of the device (R17). -/
def tileCount : Nat := 1536

/-- Arrays per tile (R2, R3). -/
def arrays : Nat := if Config.gradeT then 3 else 4

def State.tile (s : State) (t : Nat) : Tile := NMap.get Tile.init s.tiles t
def State.setTile (s : State) (t : Nat) (x : Tile) : State := { s with tiles := NMap.put s.tiles t x }
def State.modTile (s : State) (t : Nat) (f : Tile → Tile) : State := s.setTile t (f (s.tile t))

/-- Logical coordinates and bench of a tile number (R17, R18). -/
def tileX (t : Nat) : Nat := t % 48
def tileY (t : Nat) : Nat := t / 48
def tileBench (t : Nat) : Nat := tileX t / 16 + 3 * (tileY t / 16)
def tileAt (x y : Nat) : Nat := 48 * y + x

/-- Coordinates and bench of a tile number as the device presents them: field numbers in field mode (R492). -/
def State.tx (s : State) (t : Nat) : Nat := if s.pw.fieldBench.isSome then t % 16 else tileX t
def State.ty (s : State) (t : Nat) : Nat := if s.pw.fieldBench.isSome then t / 16 else tileY t
def State.tb (s : State) (t : Nat) : Nat := s.pw.fieldBench.getD (tileBench t)

/-- Number of a tile's bench row (R27). -/
def State.rowOf (s : State) (t : Nat) : Nat := s.tb t * 16 + s.ty t % 16

/-- The tile is the second one retired in an exhausted row: no physical tile serves it (R22, R25). -/
def State.lostTile (s : State) (t : Nat) : Bool := NMap.get none s.res.lost (s.rowOf t) == some (BitVec.ofNat 4 (s.tx t % 16))

/-- Half of a bench: false is north (R14). -/
def benchSouth (b : Nat) : Bool := decide (3 ≤ b)

/-- Hops and joint or seam crossings between two tiles (R123, R276). -/
def hops (a b : Nat) : Nat := (tileX a - tileX b) + (tileX b - tileX a) + (tileY a - tileY b) + (tileY b - tileY a)
def crossings (a b : Nat) : Nat :=
  let d (p q : Nat) : Nat := (p - q) + (q - p)
  d (tileX a / 16) (tileX b / 16) + d (tileY a / 16) (tileY b / 16)

/-- Device time in ns: 20/21 ns per full-clock cycle, as PTM last set it (R10, R38). -/
def State.now (s : State) : Nat := ((20 * s.clock.tick / 21 : Nat) + s.clock.skew).toNat

/-- PTM sets the time base to the host's time (R38, R371). (DEDUCED, log 126) -/
def State.setTime (s : State) (ns : Nat) : State :=
  { s with clock := { s.clock with skew := (ns : Int) - (20 * s.clock.tick / 21 : Nat) } }

/-- The next free value, for what the spec leaves unstated. (DESIGN CHOICE, log 6) -/
def State.free (s : State) : Word64 × State := (Config.freeValue s.freeCtr, { s with freeCtr := s.freeCtr + 1 })

/-- Free bytes, eight for each free value taken. -/
def State.freeBytes (s : State) : Nat → List Byte × State
  | 0 => ([], s)
  | n + 1 =>
    let f := s.free
    let rest := f.2.freeBytes n
    (leBytes 8 f.1.toNat ++ rest.1, rest.2)

/-- Image flags (R89). -/
def State.imageFlag (s : State) (b : Nat) : Bool :=
  match s.image with
  | some i => i.flags.getLsbD b
  | none => false

/-- Free-mode random bits in use (R325). -/
def State.freeMode (s : State) : Bool := s.imageFlag 2

/-- The active profile (R194, R196); 32 zero bytes when no image is loaded (R212). -/
def State.profile (s : State) : List Byte :=
  match s.image with
  | some i => i.profile
  | none => List.replicate 32 0

/-- G of the profile, 16 when no image is loaded (R180, R194). -/
def State.groupSize (s : State) : Nat :=
  match s.image with
  | some i => 4 * 2 ^ (leAt i.profile 1 1)
  | none => 16

/-- Draw bits of stochastic rounding (R194). -/
def State.srBits (s : State) : Nat :=
  match s.image with
  | some i => leAt i.profile 2 1
  | none => 4

/-- overflow_mode 1: Inf where the target has Inf (R190, R194). -/
def State.toInf (s : State) : Bool := leAt s.profile 3 1 == 1

/-- An evaluation runs (R354). -/
def State.inEval (s : State) : Bool :=
  match s.step with
  | some r => r.kind == .eval
  | none => false

/-- Step number N of the running step (R56, R323). -/
def State.stepNo (s : State) : Word64 :=
  match s.step with
  | some r => r.stepNo
  | none => 0

/-- Tile has a class in the loaded image (R70, R75). -/
def State.isLoaded (s : State) (t : Nat) : Bool :=
  match s.image with
  | some i => i.tileMap.any fun p => p.1 == t
  | none => false

/-- Tiles of the image's target (R89, R90). -/
def State.targetTiles (s : State) : Nat :=
  match s.image with
  | some i => if i.target = 0 then 1536 else 256
  | none => 1536

/-- Group state. -/
def State.group (s : State) (g : Nat) : BellGroup := NMap.get BellGroup.init s.bell.groups g
def State.setGroup (s : State) (g : Nat) (x : BellGroup) : State :=
  { s with bell := { s.bell with groups := NMap.set BellGroup.init s.bell.groups g x } }

/-- Groups that hold a tile, lowest first (R56 selector 8, R286). -/
def State.groupsOf (s : State) (t : Nat) : List Nat :=
  (List.range 8).filter fun g => (s.group g).loaded && (s.group g).members.contains t

/-- Member record of a tile on a group. -/
def Tile.member (x : Tile) (g : Nat) : Member := NMap.get Member.init x.sd.groups g
def Tile.setMember (x : Tile) (g : Nat) (m : Member) : Tile :=
  { x with sd := { x.sd with groups := NMap.set Member.init x.sd.groups g m } }

/-- Bench clock settings. -/
def State.bench (s : State) (b : Nat) : BenchClock := NMap.get BenchClock.init s.pw.benches b

/-- Night-hold or Midnight. -/
def PowerLevel.isGated : PowerLevel → Bool
  | .noon | .evening => false
  | .nightHold | .midnight => true

/-- A tile's domain is gated, or its wrapper has closed for dusk (R514, R518). -/
def State.gated (s : State) (t : Nat) : Bool :=
  (s.bench (s.tb t)).level.isGated ||
    match s.pw.transition with
    | some x => x.level.isGated && (!x.checked || s.step.isNone) && x.benches.contains (s.tb t)
    | none => false

/-- A tile lies in a block of tiles: kind 0 a tile, 1 a bench, 2 a half (R400). -/
def State.inBlock (s : State) (kind index t : Nat) : Bool :=
  (kind == 0 && index == t) || (kind == 1 && index == s.tb t) || (kind == 2 && index == b2n (benchSouth (s.tb t)))

/-- A tile behind its isolation wrapper: gated, retired for good, or under a block reset of tile, bench or half
(R25, R126, R300, R506). -/
def State.isolated (s : State) (t : Nat) : Bool :=
  s.gated t || s.lostTile t || s.pw.blockResets.any fun b => b.running && s.inBlock b.kind b.index t

/-- Adds a tile to the faulted tiles of the running step, with the code of its first fault (R79, R80). -/
def State.noteFault (s : State) (t : Nat) (f : TileFault) : State :=
  match s.step with
  | some r =>
    { s with step := some { r with
        programFault := r.programFault || !f.hardware,
        faulted := if r.faulted.any fun p => p.1 == t then r.faulted else r.faulted ++ [(t, f.code)] } }
  | none => s

/-- A tile fault found by the S-core or an engine: recorded, and signalled to firmware (R79, R176). -/
def State.tileFault (s : State) (t : Nat) (f : TileFault) (pc : Nat) (insn : Word64) (addr : Nat) : State :=
  (s.setTile t ((s.tile t).recordFault f pc insn addr)).noteFault t f

/-! ### Issue of one instruction (R45, R47, R59, R79) -/

/-- What one attempt to issue an instruction gives. -/
inductive Issue where
  /-- Issues; the core goes on at the next address. -/
  | done (t : Tile)
  /-- Issues and goes on at an absolute address (R570). -/
  | jump (t : Tile) (target : Nat)
  /-- Stalls; where the stall concerns rings, on those named, the first of which STALL_STATUS shows. -/
  | stall (t : Tile) (kind : StallKind) (rings : List RingNo)
  | fault (f : TileFault) (addr : Nat) (t : Tile)
deriving DecidableEq, Repr

/-- An instruction: its word, the registers that must not be pending, and its effect. -/
structure Insn where
  word : Word64
  scalars : List SReg
  vectors : List VReg
  body : State → Nat → Tile → Issue

/-- A register of the list has a pending write (R47). -/
def Tile.anyPending (t : Tile) (ss : List SReg) (vs : List VReg) : Bool :=
  (ss.any fun r => t.core.pendS.getLsbD r.toNat) || vs.any fun r => t.core.pendV.getLsbD r.toNat

/-- Waiter codes of the S-core: issue check 0, ring instruction 1 (R135). -/
def coreWaiter : StallKind → Bool × BitVec 2
  | .output => (true, 0)
  | .ring => (false, 1)
  | _ => (false, 0)

/-- Does a stall of this kind concern a ring (R85, R112)? -/
def StallKind.onRing : StallKind → Bool
  | .input | .output | .ring => true
  | _ => false

/-- The S-core no longer waits on the rings that `old` was stalled on (R112). -/
def Tile.leaveStall (t old : Tile) : Tile :=
  if old.core.run == .stalled && old.core.stallKind.onRing then t.waitsNowhere else t

/-- The S-core stalls (R45, R85). Every ring on which its check fails becomes waiting, and goes on waiting when it was; a ring
on which the check no longer fails stops waiting (R112). -/
def Tile.enterStall (t old : Tile) (kind : StallKind) (rings : List RingNo) (side : Bool) : Tile :=
  let t := { t with core := { t.core with run := .stalled, stallKind := kind,
                                          stallRing := if kind.onRing then rings.headD 0 else 0 } }
  let on (i : Fin 32) : Option (Bool × BitVec 2) :=
    if rings.any (fun r => r.toNat == i.val) then some (side, (coreWaiter kind).2) else none
  if kind.onRing then { t with rings := Vector.ofFn fun i : Fin 32 => (t.rings.get i).coreWaits (on i) }
  else t.leaveStall old

/-- The S-core can take an instruction: not halted, released, running or stalled, its memory initialised. -/
def Tile.canIssue (t : Tile) (single : Bool) : Bool :=
  t.mem.ready && (if single then t.core.halt && (t.core.run == .halted || t.core.run == .stalled)
    else !t.core.halt && (t.core.run == .running || t.core.run == .stalled))

/-- Runs, with no stall recorded. -/
def Tile.resume (t : Tile) : Tile :=
  { t with core := { t.core with run := .running, stallKind := .none, stallRing := 0 } }

/-- The instruction has issued: the stall is over and nothing is held for it. -/
def Tile.issued (t old : Tile) (pc : Nat) : Tile :=
  let t := t.leaveStall old
  { t with core := { t.core with pc := pc, held := none } }

/-- Halted again after a single step (R84). -/
def Tile.afterStep (single : Bool) (t : Tile) : Tile :=
  if single && t.core.run == .running then { t with core := { t.core with run := .halted } } else t

/-- The state after an issue attempt. A taken jump beyond the class is PC_RANGE at the jump (R570). -/
def State.settle (s : State) (single : Bool) (t : Nat) (old : Tile) (word : Word64) : Issue → State
  | .done x =>
    s.setTile t (Tile.afterStep single (x.issued old (old.core.pc + 1)))
  | .jump x target =>
    if target < old.core.codeLen then s.setTile t (Tile.afterStep single (x.issued old target))
    else s.tileFault t .pcRange old.core.pc word 0
  | .stall x kind rings =>
    let side := kind == .output || (kind == .ring && (encodeSide word))
    s.setTile t (x.enterStall old kind rings side)
  | .fault f addr x => (s.setTile t (x.leaveStall old)).tileFault t f old.core.pc word addr
where
  /-- A ring instruction of the producer side (RPUSH, RSPACE). -/
  encodeSide (w : Word64) : Bool := w.extractLsb' 52 12 == 0x603#12 || w.extractLsb' 52 12 == 0x606#12

/-- The S-core of tile `t` reaches an instruction. Where the core cannot take it (halted, at a bell, faulted,
gated), nothing happens. The fetch of the word is checked (R128), past the class there is PC_RANGE (R78), and
a pending register stalls it (R47, R59 condition 4). (DESIGN CHOICE, log 2; DEDUCED, log 16) -/
def issue (single : Bool) (t : Nat) (i : Insn) (s : State) : Out :=
  if tileCount ≤ t then .fault .noSuchUnit
  else
    let x := s.tile t
    if !x.canIssue single || s.isolated t then .next s
    else if x.core.codeLen ≤ x.core.pc then .next (s.tileFault t .pcRange x.core.pc 0 0)
    else
      let f := x.mem.checkWords true 5 x.core.pc 1
      let x' := { x with mem := f.1 }.resume
      if !f.2 then .next ((s.setTile t x').tileFault t .memoryUncorrectable x.core.pc 0 (8 * x.core.pc))
      else if x'.anyPending i.scalars i.vectors then .next (s.settle single t x i.word (.stall x' .pending []))
      else .next (s.settle single t x i.word (i.body s t x'))

end Sys2Proof.Machine
end

