-- ==== Sys2Proof/Machine/Clock.lean ====
section
/-! DEFINITION. The clocks of the benches (R10, R37, R524). -/
namespace Sys2Proof.Machine

/-- Effective division of a bench as a power of two: the slowest of its four sources (R524). -/
def State.effective (s : State) (b : Nat) : BitVec 2 :=
  let k := s.bench b
  let m (x y : BitVec 2) : BitVec 2 := if x.ult y then y else x
  m (m k.requested k.twilight) (m k.cap k.thermal)

/-- The bench's tile clocks have an edge in this full-clock cycle (R37). -/
def State.edge (s : State) (b : Nat) : Bool :=
  !(s.bench b).level.isGated && s.clock.tick % 2 ^ (s.effective b).toNat == 0

/-- Notes a bench that runs divided for the ledger entries of the running supersteps (R358). -/
def State.noteDivided (s : State) (b : Nat) : State :=
  { s with bell := { s.bell with groups := s.bell.groups.map fun p =>
      (p.1, if p.2.loaded && !p.2.dividedBenches.contains b then { p.2 with dividedBenches := p.2.dividedBenches ++ [b] } else p.2) } }

/-- Notes every bench that is divided now. -/
def State.noteAllDivided (s : State) : State :=
  (List.range 6).foldl (fun s b => if s.effective b != 0 then s.noteDivided b else s) s

end Sys2Proof.Machine
end

