-- ==== Sys2Proof/Machine/Events.lean ====
section
/-! DEFINITION. Events, telemetry records and MSI-X messages (R379, R402, R408, R409). -/
namespace Sys2Proof.Machine

/-- The answer that a command's accesses to host memory get: no request goes out while Bus Master Enable is 0 (R372). -/
def State.hostAnswer (s : State) (h : HostReply) : HostReply := if s.host.pcie.busMaster then h else .fail .masterOff

/-- Logs an error in AER (R371). -/
def State.logAer (s : State) (e : AerError) : State :=
  let p := s.host.pcie
  { s with host := { s.host with pcie := { p with aer := if p.aer.contains e then p.aer else p.aer ++ [e] } } }

/-- An access of the device failed: a completion timeout is logged (R371). (PRESUMED, log 8) -/
def State.hostFailed (s : State) (e : HostFault) : State := if e == .timeout then s.logAer .timeout else s

/-- Entry v of the MSI-X table. -/
def State.msix (s : State) (v : Nat) : MsixEntry := NMap.get MsixEntry.init s.host.msix v

/-- MSI-X message of a vector; a masked vector sets its PBA bit instead (R408). A message is a request, and none goes out while
Bus Master Enable is 0 (R372). (PRESUMED, log 8) -/
def State.raiseVector (s : State) (v : Nat) : State :=
  if (s.msix v).unmasked then
    (if s.host.pcie.busMaster then
      { s with host := { s.host with sent := NMap.set 0 s.host.sent v (NMap.get 0 s.host.sent v + 1) } }
    else s)
  else { s with host := { s.host with pba := if s.host.pba.contains v then s.host.pba else s.host.pba ++ [v] } }

/-- Unread records that firmware keeps (R402). -/
def telemetryDepth : Nat := 4096

/-- Appends a record; the oldest is overwritten when 4,096 are unread, and counts in the next one (R402). -/
def pushTelemetry (l : List Telemetry) (r : Telemetry) : List Telemetry :=
  if l.length < telemetryDepth then l ++ [r]
  else
    match l with
    | a :: b :: rest => { b with lost := min 255 (b.lost + a.lost + 1) } :: rest ++ [r]
    | _ => l ++ [r]

/-- Stamps a record for READ_TELEMETRY (R402). -/
def State.stamp (s : State) (bit block : Nat) (raw : List Byte) : State :=
  { s with host := { s.host with
    telemetry := pushTelemetry s.host.telemetry ⟨s.now, bit, block, fit 0 20 raw, 0⟩ } }

/-- Sets an event bit; a newly set and enabled bit raises the event vector (R379, R409). -/
def State.setEvent (s : State) (bit : Nat) : State :=
  let s' := { s with host := { s.host with event := s.host.event ||| (1#13 <<< bit) } }
  if !s.host.event.getLsbD bit && s.host.evEnable.getLsbD bit && s.host.evIrq then
    s'.raiseVector s.host.evVector.toNat
  else s'

/-- An event with its record. -/
def State.raise (s : State) (bit block : Nat) (raw : List Byte) : State := (s.stamp bit block raw).setEvent bit

end Sys2Proof.Machine
end

