-- ==== Sys2Proof/Machine/MemOps.lean ====
section
/-! DEFINITION. Reads and writes of main memory and the device address map (R74, R121, R342, R344, R446 to R456, R461). -/
namespace Sys2Proof.Machine

/-- Usable capacity of main memory in GiB: one bench's pool in field mode (R446, R453, R464, R492). -/
def State.usableGib (s : State) : Nat :=
  match s.pw.fieldBench with
  | some b => poolGib s.mm.cur.unchecked b
  | none => if s.mm.cur.unchecked then 2048 else 1984

/-- Channel of an address and its channel granule index (R448, R449, R492). -/
def State.channel (s : State) (addr : Nat) : Nat × Nat :=
  match s.pw.fieldBench with
  | some b =>
    let g := addr / 2048
    let n := benchChannels b
    (firstChannel b + (g + g / n) % n, g / n)
  | none => channelOf s.mm.cur addr

/-- A span lies in the usable part of main memory (R446). -/
def State.inMain (s : State) (a n : Nat) : Bool := decide (a + n ≤ s.usableGib * 2 ^ 30)

def State.memGroup (s : State) (p : Nat) : MemGroup := NMap.get MemGroup.init s.mm.groups p

/-- The controller group of an address answers in its isolation wrapper: gated or under block reset (R461). -/
def State.memIsolated (s : State) (a : Nat) : Bool := (s.memGroup ((s.channel a).1 / 4)).state != .service

/-- Cuts a span into its lines: address and offset within the span (R447). -/
def linePieces (a n : Nat) : List (Nat × Nat × Nat) :=
  (List.range (if n = 0 then 0 else (a + n - 1) / 64 - a / 64 + 1)).map fun i =>
    let lo := if i = 0 then a else 64 * (a / 64 + i)
    let hi := min (a + n) (64 * (a / 64 + i + 1))
    (lo, lo - a, hi - lo)

/-- MEM_UE_LOG as a word (R464). (DEDUCED, log 88) -/
def ueLogWord (l : Latch (BitVec 4 × Nat)) : Nat := fieldAt (b2n l.valid) 31 + fieldAt l.value.1.toNat 27 + l.value.2 % 128

/-- A persisted error: logged when it is the first since clear, counted, stamped, mem_error set (R455). -/
def State.memError (s : State) (consumer : BitVec 4) (a : Nat) : State :=
  let line := a / 64 * 64
  let ch := (s.channel line).1
  let s := { s with mm := { s.mm with
    ueLog := s.mm.ueLog.note (consumer, ch)
    ueAddr := if s.mm.ueLog.valid then s.mm.ueAddr else line
    ueCount := BitVec.ofNat 32 (satInc 32 s.mm.ueCount.toNat 1) } }
  s.raise 11 ch (leBytes 4 (ueLogWord ⟨true, consumer, ch⟩) ++ leBytes 8 line)

/-- What an access to main memory gives. -/
inductive MemAns where
  | ok (bs : List Byte)
  | outside
  | isolated
  | uncorrectable (addr : Nat)
deriving DecidableEq, Repr

/-- Bytes of main memory as stored. -/
def State.mainBytes (s : State) (a n : Nat) : List Byte := NMap.getRun 0 s.mm.bytes a n

/-! ### Lines and their checks (R450 to R455) -/

/-- Data of a line as stored. -/
def State.lineData (s : State) (l : Nat) : List Byte := s.mainBytes (64 * l) 64

/-- The check word stored for a line (R450, R451). -/
def State.storedCheck (s : State) (l : Nat) : BitVec 16 := lineCheck (s.lineData l) (64 * l) ^^^ NMap.get 0 s.mm.checks l

/-- Inverts data bits of a line; bits of the check. -/
def flipData (fs : List Nat) (bs : List Byte) : List Byte :=
  fs.foldl (fun bs i => if i < 512 then bs.modify (i / 8) (· ^^^ (1#8 <<< (i % 8))) else bs) bs
def flipCheck (fs : List Nat) : BitVec 16 :=
  fs.foldl (fun w i => if 512 ≤ i && i < 528 then w ^^^ (1#16 <<< (i - 512)) else w) 0

/-- Bits of a stored line flip; its stored check keeps its own bits. -/
def State.upsetLine (s : State) (l : Nat) (fs : List Nat) : State :=
  if fs.isEmpty then s
  else
    let d := flipData fs (s.lineData l)
    let w := lineCheck d (64 * l) ^^^ s.storedCheck l ^^^ flipCheck fs
    { s with mm := { s.mm with
      bytes := NMap.setRun 0 s.mm.bytes (64 * l) d
      checks := if s.mm.cur.unchecked then s.mm.checks else NMap.set 0 s.mm.checks l w } }

/-- One read of a line: its data, or none where the check fails or ECC reports an error (R451, R453). A read that returns what is
stored passes when the stored check is that of the stored data. -/
def State.lineReads (s : State) (l : Nat) (r : LineRead) : Option (List Byte) :=
  let l' := r.source.getD l
  let d := flipData r.flips (s.lineData l')
  let pass := s.mm.cur.unchecked ||
    if l' = l && r.flips.isEmpty then NMap.get 0 s.mm.checks l == 0
    else lineCheck d (64 * l) == s.storedCheck l ^^^ flipCheck r.flips
  if r.reported || !pass then none else some d

/-- A controller reads a line for a consumer: once more where the first read fails, and an error that persists is recorded
(R454, R455). -/
def State.serveLine (s : State) (consumer : BitVec 4) (l : Nat) (c : LineCheck) : State × Option (List Byte) :=
  let s := s.upsetLine l c.upset
  let s := if c.linkCorrected then
      { s with mm := { s.mm with linkCe := BitVec.ofNat 32 (satInc 32 s.mm.linkCe.toNat 1) } }
    else s
  match s.lineReads l c.first with
  | some d => (s, some d)
  | none =>
    match s.lineReads l c.second with
    | some d => ({ s with mm := { s.mm with retryOk := BitVec.ofNat 32 (satInc 32 s.mm.retryOk.toNat 1) } }, some d)
    | none => (s.memError consumer (64 * l), none)

/-- Key of the check line of an address, and the check lines that an access fetches (R452): those of the granules that it
touches, of a write only those of granules that it does not cover. -/
def State.checkKey (s : State) (a : Nat) : Nat := (s.channel a).1 * 2 ^ 40 + Machine.checkLine (s.channel a).2
/-- (DEDUCED, log 87) -/
def State.fetchChecks (s : State) (a n : Nat) (write : Bool) : State :=
  if s.mm.cur.unchecked || n = 0 then s
  else
    let touched := rangeFrom (a / 2048) ((a + n - 1) / 2048 - a / 2048 + 1)
    let some' := touched.filter fun g => !(write && decide (a ≤ 2048 * g) && decide (2048 * (g + 1) ≤ a + n))
    { s with mm := { s.mm with cache := some'.foldl (fun c g =>
        let k := s.checkKey (2048 * g)
        if c.contains k then c else c ++ [k]) s.mm.cache } }

/-- A line of a span whose read is not plainly what is stored: its check does not match, or an answer waits for the consumer. -/
def State.disturbed (s : State) (consumer : BitVec 4) (a n : Nat) : Bool :=
  let inside (l : Nat) : Bool := decide (a / 64 ≤ l) && decide (64 * l < a + n)
  (s.mm.checks.any fun p => inside p.1)
    || s.mm.served.any fun p => p.1 % 16 == consumer.toNat && inside (p.1 / 16)

/-- The line as the consumer's access finds it: the answer that waits for it, or a read now. -/
def State.takeLine (s : State) (consumer : BitVec 4) (l : Nat) : State × Option (List Byte) :=
  match s.mm.served.find? fun p => p.1 == 16 * l + consumer.toNat with
  | some p => ({ s with mm := { s.mm with served := NMap.drop s.mm.served p.1 } }, p.2)
  | none => s.serveLine consumer l .good

/-- Reads pieces in order, up to the first line whose error persists. -/
def readPieces (consumer : BitVec 4) : List (Nat × Nat × Nat) → State → List Byte → State × MemAns
  | [], s, acc => (s, .ok acc)
  | p :: ps, s, acc =>
    match s.takeLine consumer (p.1 / 64) with
    | (s, some d) => readPieces consumer ps s (acc ++ (d.drop (p.1 % 64)).take p.2.2)
    | (s, none) => (s, .uncorrectable (p.1 / 64 * 64))

/-- Reads main memory for a consumer of R464 (R447, R452, R454). -/
def State.mainRead (s : State) (consumer : BitVec 4) (a n : Nat) : State × MemAns :=
  if !s.inMain a n then (s, .outside)
  else if (linePieces a n).any fun p => s.memIsolated p.1 then (s, .isolated)
  else
    let s := s.fetchChecks a n false
    if s.disturbed consumer a n then readPieces consumer (linePieces a n) s [] else (s, .ok (s.mainBytes a n))

/-- Writes bytes of a line, whose check is valid from then on (R447, R451). -/
def State.writePiece (s : State) (lo : Nat) (bs : List Byte) : State :=
  { s with mm := { s.mm with
    bytes := NMap.setRun 0 s.mm.bytes lo bs
    checks := NMap.drop s.mm.checks (lo / 64), served := s.mm.served.filter fun p => p.1 / 16 ≠ lo / 64 } }

/-- Merges a piece into its line: none when the error of the read that the merge needs persists, with the line unchanged
(R447, R454). -/
def State.mergePiece (s : State) (consumer : BitVec 4) (lo : Nat) (piece : List Byte) : State × Bool :=
  match s.takeLine consumer (lo / 64) with
  | (s, some d) => (s.writePiece (lo / 64 * 64) (patch d (lo % 64) piece), true)
  | (s, none) => (s, false)

/-- Writes line by line; a partial write whose merge read fails its check leaves the line and stops (R447, R454).
(DEDUCED, log 89) -/
def writeLines (consumer : BitVec 4) (bs : List Byte) : List (Nat × Nat × Nat) → State → State × MemAns
  | [], s => (s, .ok [])
  | p :: ps, s =>
    let piece := (bs.drop p.2.1).take p.2.2
    if piece.length < 64 && s.disturbed consumer p.1 1 then
      match s.mergePiece consumer p.1 piece with
      | (s, true) => writeLines consumer bs ps s
      | (s, false) => (s, .uncorrectable (p.1 / 64 * 64))
    else writeLines consumer bs ps (s.writePiece p.1 piece)

/-- Writes main memory; a merge that fails is logged as consumer 6 (R447, R452, R454, R464). -/
def State.mainWrite (s : State) (a : Nat) (bs : List Byte) : State × MemAns :=
  if !s.inMain a bs.length then (s, .outside)
  else if (linePieces a bs.length).any fun p => s.memIsolated p.1 then (s, .isolated)
  else writeLines 6 bs (linePieces a bs.length) (s.fetchChecks a bs.length true)

/-- Writes that firmware makes to its own records; what the answer is does not matter to it. -/
def State.mainPut (s : State) (a : Nat) (bs : List Byte) : State := (s.mainWrite a bs).1

/-! ### The device address map (R121, R201, R338, R342, R446) -/

/-- What a span of device addresses names. -/
inductive Place where
  | main (a : Nat)
  /-- Main memory through the write alias. -/
  | writeAlias (a : Nat)
  | tile (t off : Nat)
  | scale (off : Nat)
  | seq (off : Nat)
  | bankWord
  | outside
deriving DecidableEq, Repr

def tileWindowBase : Nat := 0x100000000000
def scaleWindowBase : Nat := 0x200000000000
def seqWindowBase : Nat := 0x200000200000
def readAliasBase : Nat := 0x300000000000
def writeAliasBase : Nat := 0x380000000000
def bankWordAddr : Nat := 0x3FFFFFFFF000

/-- U as sampled at the last step start, or the current U when none has started since it was set (R342). -/
def State.sampledU (s : State) : Word64 := s.train.uSampled.getD s.train.u

/-- U that selects the banks: the sample of a running STEP, otherwise the current U (R339). (DEDUCED, log 57) -/
def State.bankU (s : State) : Word64 :=
  match s.step with
  | some r => if r.kind == .eval then s.train.u else s.sampledU
  | none => s.train.u

/-- Bases of the read bank and of the write bank (R339). -/
def State.readBankBase (s : State) : Nat := (if s.bankU.getLsbD 0 then s.train.bankB else s.train.bankA).toNat
def State.writeBankBase (s : State) : Nat := (if s.bankU.getLsbD 0 then s.train.bankA else s.train.bankB).toNat

/-- An alias span mapped to main memory (R342). -/
def State.alias (s : State) (o n base : Nat) (k : Nat → Place) : Place :=
  if s.train.enable && decide (o + n ≤ s.train.bankLen.toNat) && s.inMain (base + o) n then k (base + o) else .outside

/-- What `n` bytes at a device address name (R446). -/
def State.place (s : State) (a n : Nat) : Place :=
  if s.inMain a n then .main a
  else if decide (tileWindowBase ≤ a) && decide (a < tileWindowBase + tileCount * 2 ^ 22) then
    let off := (a - tileWindowBase) % 2 ^ 22
    if off + n ≤ dataBytes then .tile ((a - tileWindowBase) / 2 ^ 22) off else .outside
  else if decide (scaleWindowBase ≤ a) && decide (a + n ≤ seqWindowBase) then .scale (a - scaleWindowBase)
  else if decide (seqWindowBase ≤ a) && decide (a + n ≤ seqWindowBase + 0x4000) then .seq (a - seqWindowBase)
  else if a = bankWordAddr && n ≤ 8 then .bankWord
  else if decide (writeAliasBase ≤ a) && decide (a + n ≤ bankWordAddr) then
    (if s.inEval then .outside else s.alias (a - writeAliasBase) n s.writeBankBase .writeAlias)
  else if decide (readAliasBase ≤ a) && decide (a + n ≤ writeAliasBase) then
    s.alias (a - readAliasBase) n s.readBankBase .main
  else .outside

/-- A drain that reads the bank holds a write-alias write into a 2 MiB region that it has not read yet (R344).
(DEDUCED, log 96) -/
def State.drainHolds (s : State) (a n : Nat) : Bool :=
  match s.res.drain with
  | some d =>
    d.begun && !d.shipping && (rangeFrom (a / 2 ^ 21) ((a + n - 1) / 2 ^ 21 - a / 2 ^ 21 + 1)).any fun r =>
      decide (d.bankBase < (r + 1) * 2 ^ 21) && decide (r * 2 ^ 21 < d.bankBase + d.bankLen) && !d.regions.contains r
  | none => false

end Sys2Proof.Machine
end

