-- ==== Sys2Proof/Machine/LinkTx.lean ====
section
/-! DEFINITION. The sending side of haul roads and Ethernet ports, and the partner table (R411 to R427, R437 to R440). -/
namespace Sys2Proof.Machine

/-! ### Partners (R411, R415) -/

def State.partner (s : State) (i : Nat) : Partner := NMap.get Partner.init s.link.partners i
def State.setPartner (s : State) (i : Nat) (p : Partner) : State :=
  { s with link := { s.link with partners := NMap.set Partner.init s.link.partners i p } }

/-- The self entry, when one exists. -/
def State.selfEntry (s : State) : Option Partner := (s.link.partners.find? fun p => p.2.state == 2 && p.2.path == 2).map (·.2)

/-- This device's rank, 255 outside a domain. -/
def State.ownRank (s : State) : Nat := (s.selfEntry.map (·.rank)).getD 255

/-- Remote entries in state up, with their indices. -/
def State.upPartners (s : State) : List (Nat × Partner) := s.link.partners.filter fun p => p.2.state == 2 && p.2.path != 2

/-- The remote members of the sync domain as (rank, index) (R415). -/
def State.domainPeers (s : State) : List (Nat × Nat) :=
  (s.upPartners.filter fun p => decide (p.2.rank < 255)).map fun p => (p.2.rank, p.1)

/-- Ranks 0 to the highest are all present (R415). -/
def State.domainComplete (s : State) : Bool :=
  match s.selfEntry with
  | none => false
  | some e =>
    let ranks := e.rank :: s.domainPeers.map (·.1)
    (List.range (ranks.foldl max 0 + 1)).all fun r => ranks.contains r

/-- The entry in state up for a rank. -/
def State.partnerOfRank (s : State) (rank : Nat) : Option (Nat × Partner) :=
  if rank = 255 then none else s.upPartners.find? fun p => p.2.rank == rank

/-- The direct haul-road entry for a rank (R425). -/
def State.directRoad (s : State) (rank : Nat) : Option (Nat × Partner) :=
  if rank = 255 then none else s.upPartners.find? fun p => p.2.rank == rank && p.2.path == 0 && p.2.hops == 1

/-! ### Packet headers (R419) -/

/-- Fields of a packet header. -/
structure PktHeader where
  vc : Nat
  destRank : Nat
  srcRank : Nat
  destTile : Nat
  destRing : Nat
  units : Nat
  marker : Bool
  group : Nat
  indexLo : Nat
  srcTile : Nat
deriving DecidableEq, Repr

def PktHeader.pack (h : PktHeader) : Word64 :=
  BitVec.ofNat 64 (fieldAt (h.vc % 4) 62 + fieldAt (h.destRank % 256) 54 + fieldAt (h.srcRank % 256) 46
    + fieldAt (h.destTile % 2048) 35 + fieldAt (h.destRing % 32) 30 + fieldAt ((h.units - 1) % 4) 28
    + fieldAt (b2n h.marker) 27 + fieldAt (h.group % 8) 24 + fieldAt (h.indexLo % 256) 16 + fieldAt (h.srcTile % 2048) 5)

def PktHeader.parse (w : Word64) : PktHeader :=
  let n := w.toNat
  { vc := bitsAt n 62 2, destRank := bitsAt n 54 8, srcRank := bitsAt n 46 8, destTile := bitsAt n 35 11,
    destRing := bitsAt n 30 5, units := bitsAt n 28 2 + 1, marker := natBit n 27, group := bitsAt n 24 3,
    indexLo := bitsAt n 16 8, srcTile := bitsAt n 5 11 }

/-- The index nearest the receiver's own within −127 to +128 (R419). -/
def nearestIndex (own lo : Nat) : Nat :=
  let d := (lo + 256 - own % 256) % 256
  if d ≤ 128 then own + d else own + d - 256

/-! ### Haul roads (R420, R421) -/

def roadCount : Nat := 8
def State.road (s : State) (p : Nat) : Road := NMap.get Road.init s.link.roads p
def State.setRoad (s : State) (p : Nat) (r : Road) : State :=
  { s with link := { s.link with roads := NMap.set Road.init s.link.roads p r } }

/-- Receive buffers of each virtual channel, the credits of a port that has just trained (R420). (DEDUCED, log 85) -/
def fullCredits : NMap Nat := [(0, 64), (1, 16), (2, 32), (3, 32)]

/-- Flits of a replay buffer (R421). -/
def replayDepth : Nat := 256

/-- A channel has a packet to send and a credit for it. -/
def Road.ready (r : Road) (vc : Nat) : Bool := (r.waiting.any fun p => p.1 == vc) && decide (0 < NMap.get 0 r.credits vc)

/-- The channel served next: VC1, then VC0 and VC3 round-robin, then VC2 (R420). -/
def Road.nextVc (r : Road) : Option Nat := ([1] ++ (if r.vc3Next then [3, 0] else [0, 3]) ++ [2]).find? r.ready

/-- Takes the first n packets of a channel from a waiting list. -/
def takeVc (vc : Nat) : Nat → List (Nat × LinkPacket) → List LinkPacket × List (Nat × LinkPacket)
  | _, [] => ([], [])
  | 0, l => ([], l)
  | n + 1, x :: xs =>
    if x.1 = vc then let r := takeVc vc n xs; (x.2 :: r.1, r.2) else let r := takeVc vc (n + 1) xs; (r.1, x :: r.2)

def flitBytes : Nat := 544

/-- The link header of a flit that leaves now: the last good flit received, a retry request, and the freed buffers of one channel
(R417, R420, R421). -/
def Road.header (r : Road) (slots : Nat) : Word64 :=
  let back := r.owed.headD (0, 0)
  BitVec.ofNat 64 (fieldAt r.txSeq 52 + fieldAt ((r.rxSeq + 4095) % 4096) 40 + fieldAt (b2n r.retrying) 39 + fieldAt (back.1 % 4) 34
    + fieldAt (min 255 back.2) 26 + fieldAt slots 24)

/-- The 544 bytes of a flit (R417). -/
def flitImage (header : Word64) (ps : List LinkPacket) : List Byte :=
  let slot (k : LinkPacket) : List Byte := fit 0 264 (leBytes 8 k.header.toNat ++ (k.units.map (fit 0 64)).flatten)
  let body := fit 0 0x218 (leBytes 8 header.toNat ++ (ps.map slot).flatten)
  body ++ leBytes 4 (crc32 body).toNat ++ leBytes 4 0

/-- Sends one flit: up to two packets of one channel, against one credit, with the freed buffers of one channel. -/
def Road.sendFlit (r : Road) (vc : Nat) : Road :=
  let p := takeVc vc 2 r.waiting
  let w := r.header p.1.length
  { r with
    waiting := p.2
    replay := r.replay ++ [⟨r.txSeq, vc, w, p.1⟩]
    out := r.out ++ [flitImage w p.1]
    txSeq := (r.txSeq + 1) % 4096
    credits := NMap.set 0 r.credits vc (NMap.get 0 r.credits vc - 1)
    vc3Next := if vc = 0 then true else if vc = 3 then false else r.vc3Next
    owed := r.owed.drop 1 }

/-- Sends a flit without slots: it acknowledges, and returns the freed buffers of one channel. (DEDUCED, log 75) -/
def Road.sendHeader (r : Road) : Road := { r with out := r.out ++ [flitImage (r.header 0) []], owed := r.owed.drop 1 }

/-- Sends what credits and the replay buffer allow; the fuel bounds the flits. (DEDUCED, log 124) -/
def Road.pump : Nat → Road → Road
  | 0, r => r
  | n + 1, r =>
    if r.state == .up && decide (r.replay.length < replayDepth) then
      match r.nextVc with
      | some vc => Road.pump n (r.sendFlit vc)
      | none => r
    else r

/-- Runs the sender of a port; without its reference clock it stands still (R561). -/
def State.pumpRoad (s : State) (p : Nat) : State :=
  if s.link.srefclk then s.setRoad p (({ s.road p with out := [] } : Road).pump (s.road p).waiting.length) else s

/-- Runs the sender of a port, and lets flits without slots carry what no packet has carried: the answer that a received flit
asks for, and freed buffers (R420, R421). -/
def State.replyRoad (s : State) (p : Nat) (answers : Bool) : State :=
  let s := s.pumpRoad p
  let r := s.road p
  if r.state == .up && s.link.srefclk then
    let r := if answers && r.out.isEmpty then r.sendHeader else r
    s.setRoad p (r.owed.foldl (fun r _ => r.sendHeader) r)
  else s

def State.sendOnRoad (s : State) (p vc : Nat) (k : LinkPacket) : State :=
  let r := s.road p
  (s.setRoad p { r with waiting := r.waiting ++ [(vc, k)] }).pumpRoad p

/-! ### Ethernet contexts (R437 to R439) -/

def ethCount : Nat := 4
def State.ethPort (s : State) (e : Nat) : EthPort := NMap.get EthPort.init s.link.eth e
def State.setEth (s : State) (e : Nat) (x : EthPort) : State :=
  { s with link := { s.link with eth := NMap.set EthPort.init s.link.eth e x } }
def State.ethCtx (s : State) (i : Nat) : EthCtx := NMap.get EthCtx.init s.link.ctx i
def State.setCtx (s : State) (i : Nat) (c : EthCtx) : State :=
  { s with link := { s.link with ctx := NMap.set EthCtx.init s.link.ctx i c } }

/-- The receive buffer of a port holds n bytes: with PFC on, a pause goes out above 75 % of 2 MiB and its release below
50 % (R436). -/
def EthPort.fillTo (e : EthPort) (n : Nat) : EthPort :=
  { e with rxFill := n, pausing := e.pfcEnable && (decide (3 * 2 ^ 19 < n) || (e.pausing && decide (2 ^ 20 ≤ n))) }

/-- Datagrams of a window (R438). -/
def windowSize : Nat := 256

/-- Bytes of a frame: MAC header, tag, IP and UDP headers, payload and frame check sequence (R435). -/
def frameBytes (f : EthFrame) : Nat :=
  14 + (if f.tag.isSome then 4 else 0) + (if f.dest.toNat / 2 ^ 32 = 0xFFFF then 20 else 40) + 8 + f.payload.length + 4

/-- Slot bytes that fit a datagram in a tagged IPv6 frame of 9,216 bytes (R435, R437). (DEDUCED, log 84) -/
def slotRoom : Nat := 9216 - 14 - 4 - 40 - 8 - 32 - 4

/-- Bytes of a slot of a datagram (R437). -/
def slotBytes (k : LinkPacket) : Nat := 8 + 64 * k.units.length

/-- The packets of one kind that lead a waiting list and fit a datagram. -/
def takeKind (kind : Nat) : Nat → List (Nat × LinkPacket) → List LinkPacket × List (Nat × LinkPacket)
  | _, [] => ([], [])
  | room, x :: xs =>
    if x.1 = kind && slotBytes x.2 ≤ room then
      let r := takeKind kind (room - slotBytes x.2) xs
      (x.2 :: r.1, r.2)
    else if x.1 = kind then ([], x :: xs)
    else let r := takeKind kind room xs; (r.1, x :: r.2)

/-- An IPv4 address in its mapped form (R411). -/
def mapped (v4 : Word32) : BitVec 128 := BitVec.ofNat 128 (0xFFFF * 2 ^ 32 + v4.toNat)

/-- The transport header and the slots of a datagram that leaves now (R437, R438). -/
def EthCtx.payload (c : EthCtx) (kind : Nat) (ps : List LinkPacket) : List Byte :=
  let sack := (List.range 32).foldl (fun w i =>
    w + fieldAt (b2n (c.early.any fun d => d.psn == (c.rxPsn + 1 + i) % 2 ^ 24)) i) 0
  [1] ++ leBytes 1 kind ++ leBytes 2 ps.length ++ leBytes 4 c.nextPsn ++ leBytes 4 (c.rxPsn + fieldAt (b2n c.ece) 31) ++ leBytes 4 sack
    ++ leBytes 8 Config.identity.toNat ++ leBytes 8 0
    ++ (ps.map fun k => leBytes 8 k.header.toNat ++ (k.units.map (fit 0 64)).flatten).flatten

/-- The frame that a port sends to an address: to its next hop, from its own addresses, with ECT(0) (R435, R437, R440).
(DEDUCED, log 84) -/
def State.frameTo (s : State) (e : Nat) (a : NetAddr) (payload : List Byte) : EthFrame :=
  let x := s.ethPort e
  { destMac := x.nextHop, srcMac := Config.mac e, tag := if x.vlan = 0 && x.pcp = 0 then none else some (x.vlan, x.pcp)
    src := if a.ip.toNat / 2 ^ 32 = 0xFFFF then mapped x.ipv4 else x.ipv6, dest := a.ip, ecn := 2
    udp := some (s.link.udpPort, a.port), payload := payload }

/-- Sends what the window allows, haul and control ahead of drain; each datagram acknowledges (R437 to R439). -/
def EthCtx.pump (now : Nat) (frame : List Byte → EthFrame) : Nat → EthCtx → EthCtx
  | 0, c => c
  | n + 1, c =>
    if c.unacked.length < windowSize && !c.waiting.isEmpty then
      let kind := ((c.waiting.find? fun x => x.1 != 2).map (·.1)).getD 2
      let p := takeKind kind slotRoom c.waiting
      EthCtx.pump now frame n { c with
        waiting := p.2, unacked := c.unacked ++ [Datagram.mk c.nextPsn kind p.1 now false (some (frame (c.payload kind p.1)))]
        nextPsn := (c.nextPsn + 1) % 2 ^ 24, sinceAck := 0, ece := false }
    else c

/-- The Ethernet port of an entry, and the address of its partner. -/
def State.portOf (s : State) (i : Nat) : Nat := (s.partner i).port - 8
def State.addressOf (s : State) (i : Nat) : NetAddr := ⟨(s.partner i).ip, BitVec.ofNat 16 (s.partner i).udpPort⟩

/-- The port carries traffic: trained, enabled and clocked (R434, R561). -/
def State.ethUp (s : State) (e : Nat) : Bool := s.link.srefclk && (s.ethPort e).state == 2 && (s.ethPort e).enable

/-- A frame leaves a port. -/
def State.emit (s : State) (e : Nat) (f : Option EthFrame) : State :=
  if f.isNone then s else s.setEth e { s.ethPort e with out := f }

/-- Runs the sender of a context, while its port is up and not paused (R436, R561). -/
def State.pumpCtx (s : State) (i : Nat) : State :=
  let e := s.portOf i
  let x := s.ethPort e
  if s.ethUp e && decide (x.paused ≤ s.now) then
    let c := s.ethCtx i
    let c' := c.pump s.now (s.frameTo e (s.addressOf i)) c.waiting.length
    (s.setCtx i c').emit e (if c'.nextPsn = c.nextPsn then none else (c'.unacked.getLast?).bind (·.frame))
  else s

/-- Sends a packet to a partner on a virtual channel (R420, R437). -/
def State.sendVia (s : State) (i vc : Nat) (k : LinkPacket) : State :=
  let p := s.partner i
  if p.path = 0 then s.sendOnRoad p.port vc k
  else
    let c := s.ethCtx i
    (s.setCtx i { c with waiting := c.waiting ++ [(if vc = 1 then 1 else if vc = 2 then 2 else 0, k)] }).pumpCtx i

/-- A frame that no entry admits is dropped and counted (R414). -/
def State.dropFrame (s : State) : State :=
  { s with link := { s.link with drops := BitVec.ofNat 32 (satInc 32 s.link.drops.toNat 1) } }

/-- Queues packets for a partner on a virtual channel, in order. -/
def State.sendAllVia (s : State) (i vc : Nat) (ks : List LinkPacket) : State := ks.foldl (fun s k => s.sendVia i vc k) s

/-- What waits for a partner on VC2 is no longer sent (R479). -/
def State.dropDrainData (s : State) (i : Nat) : State :=
  let p := s.partner i
  if p.path = 0 then s.setRoad p.port { s.road p.port with waiting := (s.road p.port).waiting.filter fun x => x.1 != 2 }
  else s.setCtx i { s.ethCtx i with waiting := (s.ethCtx i).waiting.filter fun x => x.1 != 2 }

/-- A VC1 message of one unit for a partner (R419): kinds 0 acknowledgement, 1 error response, 2 bell frame, 3 feed notice,
4 handshake. -/
def State.sendControl (s : State) (i kind tile : Nat) (unit : List Byte) : State :=
  s.sendVia i 1 ⟨(PktHeader.mk 1 (s.partner i).rank s.ownRank tile kind 1 false 0 0 0).pack, [fit 0 64 unit]⟩

/-- The unit of an acknowledgement or error response: issuing tile, sequence number, failure code (R419).
(DESIGN CHOICE, log 50) -/
def answerUnit (tile seq code : Nat) : List Byte := leBytes 2 tile ++ leBytes 2 seq ++ leBytes 1 code

/-- Answers a remote send to the device that issued it (R427, R428). -/
def State.answerRemote (s : State) (rank tile seq : Nat) (code : Option Nat) : State :=
  match s.partnerOfRank rank with
  | some p => s.sendControl p.1 (if code.isSome then 1 else 0) tile (answerUnit tile seq (code.getD 0))
  | none => s

end Sys2Proof.Machine
end

