-- ==== Sys2Proof/Machine/BellCond.lean ====
section
/-! DEFINITION. The completion condition of a bell, member by member (R283 to R289, R297, R301). -/
namespace Sys2Proof.Machine

/-- Superstep count of the loaded image (R89). -/
def State.supersteps (s : State) : Nat :=
  match s.image with
  | some i => i.supersteps
  | none => 0

/-- Engines of R289 are idle, every queued instruction completed: matrix, mover, random lanes, reach and the norm tap
(R289, R361). -/
def Tile.matrixIdle (c : Tile) : Bool :=
  c.mx.queue.isEmpty && c.mx.loader.isNone && c.mx.feed.isNone && c.mx.drain.isNone
def Tile.moverIdle (c : Tile) : Bool := c.mv.queue.isEmpty && c.mv.slots.all fun p => p.2.isNone
def Tile.sendIdle (c : Tile) : Bool := c.sd.queue.isEmpty
def Tile.randomIdle (c : Tile) : Bool := c.rn.queue.isEmpty
def Tile.reachIdle (c : Tile) : Bool := c.rc.out.isEmpty
def Tile.tapIdle (c : Tile) : Bool := c.nt.slots.isEmpty && c.nt.flight.isEmpty
def Tile.enginesIdle (c : Tile) : Bool :=
  c.matrixIdle && c.moverIdle && c.randomIdle && c.reachIdle && c.tapIdle

/-- The member's arrival counts for the bell that the group is at (R288, R296, R297). -/
def Member.arrivedFor (m : Member) : BellPhase → Bool
  | .cut => m.phase == .cut && m.arrived && !m.rolled
  | .haul => m.rolled || (m.phase == .haul && m.arrived)
  | .final => m.phase == .final && m.arrived && !m.rolled
  | .done => false

/-- A send attributed to (g, n) has not completed. -/
def Tile.openSends (c : Tile) (g n : Nat) : Bool :=
  c.sd.queue.any fun i => i.group.toNat == g && i.index == n

/-- Markers received reach the expectation, or the condition is waived (R284, R285, R301). -/
def markersMet (G : BellGroup) (m : Member) (n : Nat) : Bool :=
  G.waived || decide (NMap.get 0 m.expect n ≤ NMap.get 0 m.markers n)

/-- Why a member does not meet R288, in the reason codes of R307; none when it does or is excused. (DEDUCED, log 53) -/
def memberReason (G : BellGroup) (g supersteps : Nat) (c : Tile) : Option (BitVec 2) :=
  let m := c.member g
  if m.excused then none
  else if !m.arrivedFor G.phase then some 0
  else
    match G.phase with
    | .cut => none
    | .haul => if c.openSends g G.index then some 1 else if markersMet G m G.index then none else some 2
    | .final =>
      if !c.enginesIdle then some 0
      else if !c.sendIdle then some 1
      else if markersMet G m supersteps then none else some 2
    | .done => some 0

def State.memberReason (s : State) (g t : Nat) : Option (BitVec 2) :=
  Machine.memberReason (s.group g) g s.supersteps (s.tile t)

/-- Members of the group that meet R288 or are excused (R308). -/
def State.readyMembers (s : State) (g : Nat) : List Nat :=
  (s.group g).members.filter fun t => (s.memberReason g t).isNone

/-- The local condition of R288 holds. -/
def State.localCondition (s : State) (g : Nat) : Bool :=
  (s.group g).loaded && (s.group g).phase != .done && (s.group g).members.all fun t => (s.memberReason g t).isNone

/-- The member's arrival counts at the bell its group is at: at a final bell only with its engines idle (R289, R297). -/
def arrivalCounts (G : BellGroup) (c : Tile) (m : Member) : Bool :=
  m.arrivedFor G.phase && (G.phase != .final || c.enginesIdle)

/-- Notes the times at which a member's arrival first counts and at which it first meets the condition of the bell that
one of its groups is at (R357). -/
def State.noteMet (s : State) (t : Nat) : State :=
  (s.groupsOf t).foldl (fun s g =>
    let c := s.tile t
    let m := c.member g
    let m' := if !m.counted && arrivalCounts (s.group g) c m then { m with counted := true, arriveTime := s.now } else m
    let m' := if !m'.met && (s.memberReason g t).isNone then { m' with met := true, metTime := s.now } else m'
    if m' = m then s else s.setTile t (c.setMember g m')) s

/-- A step of the engine of a tile behind no isolation wrapper, its memory initialised (R131); what it completes may meet a
bell's condition. -/
def engineStep (t : Nat) (f : State → Nat → State) (s : State) : Host.Outcome State Fault Refusal :=
  if tileCount ≤ t then .fault .noSuchUnit else if s.isolated t || !(s.tile t).mem.ready then .next s
  else .next ((f s t).noteMet t)

end Sys2Proof.Machine
end

