-- ==== Sys2Proof/Machine/Numbers.lean ====
section
/-! DEFINITION. Number formats, exact values and their conversion (spec/05: R182 to R193), FP32 arithmetic
of the vector unit (R193), the fold of the matrix engine (R152 to R157) and powers of two for scales (R206). -/
namespace Sys2Proof.Machine

/-- The format codes of R182. -/
inductive Format where
  | e4m3 | e5m2 | int8 | bf16 | fp16 | fp32 | int32
  | mxE4m3 | mxE5m2 | mxE2m3 | mxE3m2 | mxE2m1 | mxInt8
deriving DecidableEq, Repr

/-- R182. -/
def Format.ofCode (c : Nat) : Option Format :=
  match c with
  | 0x00 => some .e4m3 | 0x01 => some .e5m2 | 0x02 => some .int8 | 0x03 => some .bf16 | 0x04 => some .fp16
  | 0x05 => some .fp32 | 0x06 => some .int32 | 0x10 => some .mxE4m3 | 0x11 => some .mxE5m2
  | 0x12 => some .mxE2m3 | 0x13 => some .mxE3m2 | 0x14 => some .mxE2m1 | 0x15 => some .mxInt8
  | _ => none

/-- Code of a format (R182). -/
def Format.code : Format → Nat
  | .e4m3 => 0x00 | .e5m2 => 0x01 | .int8 => 0x02 | .bf16 => 0x03 | .fp16 => 0x04 | .fp32 => 0x05 | .int32 => 0x06
  | .mxE4m3 => 0x10 | .mxE5m2 => 0x11 | .mxE2m3 => 0x12 | .mxE3m2 => 0x13 | .mxE2m1 => 0x14 | .mxInt8 => 0x15

/-- Element width in bits (R183, R184). -/
def Format.bits : Format → Nat
  | .e4m3 | .e5m2 | .int8 | .mxE4m3 | .mxE5m2 | .mxInt8 => 8
  | .bf16 | .fp16 => 16
  | .fp32 | .int32 => 32
  | .mxE2m3 | .mxE3m2 => 6
  | .mxE2m1 => 4

/-- The MX formats of R182. -/
def Format.isMx : Format → Bool
  | .mxE4m3 | .mxE5m2 | .mxE2m3 | .mxE3m2 | .mxE2m1 | .mxInt8 => true
  | _ => false

/-- Formats accepted as held or passing operand (R182). -/
def Format.isOperand : Format → Bool
  | .fp32 | .int32 => false
  | _ => true

/-- Formats accepted by MDRN (R182). -/
def Format.isDrain : Format → Bool
  | .int32 => false
  | _ => true

/-- Formats accepted as a MACC source (R161, R182). -/
def Format.isPreload : Format → Bool
  | .fp32 | .bf16 | .fp16 | .int32 => true
  | _ => false

/-- Integer element formats (R184). -/
def Format.isInt : Format → Bool
  | .int8 | .int32 | .mxInt8 => true
  | _ => false

/-- K per pass of the operand geometry (R140). -/
def Format.kPass : Format → Nat
  | .mxE2m1 => 64
  | _ => 32

/-- Held units (R140). -/
def Format.heldUnits : Format → Nat
  | .bf16 | .fp16 => 32
  | .mxE4m3 | .mxE5m2 | .mxInt8 | .mxE2m1 => 17
  | .mxE2m3 | .mxE3m2 => 13
  | _ => 16

/-- Cycles per passing row c (R140). -/
def Format.rowCycles : Format → Nat
  | .bf16 | .fp16 => 2
  | _ => 1

/-- Pairing sets of R141. -/
def Format.pairs (h p : Format) : Bool :=
  match h, p with
  | .e4m3, .e4m3 | .e4m3, .e5m2 | .e5m2, .e4m3 | .e5m2, .e5m2 => true
  | .bf16, .bf16 | .fp16, .fp16 | .int8, .int8 | .mxInt8, .mxInt8 | .mxE2m1, .mxE2m1 => true
  | h, p => mxSet h && mxSet p
where
  mxSet : Format → Bool
    | .mxE4m3 | .mxE5m2 | .mxE2m3 | .mxE3m2 => true
    | _ => false

/-- A floating-point layout: exponent and mantissa bits, bias, the largest finite magnitude encoding, whether
an all-ones exponent holds Inf and NaN, and the canonical NaN (R183, R185). -/
structure FpSpec where
  eb : Nat
  mb : Nat
  bias : Nat
  maxMag : Nat
  ieee : Bool
  nan : Nat
deriving DecidableEq, Repr

/-- Layouts of R183. E4M3 has no Inf and one NaN magnitude; FP6 and FP4 have neither. -/
def Format.fp : Format → FpSpec
  | .e4m3 | .mxE4m3 => ⟨4, 3, 7, 0x7E, false, 0x7F⟩
  | .e5m2 | .mxE5m2 => ⟨5, 2, 15, 0x7B, true, 0x7F⟩
  | .mxE2m3 => ⟨2, 3, 1, 0x1F, false, 0⟩
  | .mxE3m2 => ⟨3, 2, 3, 0x1F, false, 0⟩
  | .mxE2m1 => ⟨2, 1, 1, 0x7, false, 0⟩
  | .fp16 => ⟨5, 10, 15, 0x7BFF, true, 0x7E00⟩
  | .bf16 => ⟨8, 7, 127, 0x7F7F, true, 0x7FC0⟩
  | _ => ⟨8, 23, 127, 0x7F7F_FFFF, true, 0x7FC0_0000⟩

/-- An exact value: NaN, an infinity, or ± m × 2^e. -/
inductive Num where
  | nan
  | inf (neg : Bool)
  | fin (neg : Bool) (m : Nat) (e : Int)
deriving DecidableEq, Repr

/-- An exact finite sum: m × 2^e. -/
structure Dyadic where
  m : Int
  e : Int
deriving DecidableEq, Repr

def Dyadic.zero : Dyadic := ⟨0, 0⟩

/-- Exact addition. -/
def Dyadic.add (a b : Dyadic) : Dyadic :=
  if a.m = 0 then b
  else if b.m = 0 then a
  else
    let e := min a.e b.e
    ⟨a.m * 2 ^ (a.e - e).toNat + b.m * 2 ^ (b.e - e).toNat, e⟩

/-- Exact product. -/
def Dyadic.mul (a b : Dyadic) : Dyadic := ⟨a.m * b.m, a.e + b.e⟩

/-- Exact comparison a < b. -/
def Dyadic.lt (a b : Dyadic) : Bool := decide ((Dyadic.add b ⟨-a.m, a.e⟩).m > 0)

/-- The finite value of a Num, zero for the others. -/
def Num.dyadic : Num → Dyadic
  | .fin neg m e => ⟨if neg then -(m : Int) else m, e⟩
  | _ => .zero

def Num.isZero : Num → Bool
  | .fin _ 0 _ => true
  | _ => false

def Num.isNan : Num → Bool
  | .nan => true
  | _ => false

def Num.isInf : Num → Bool
  | .inf _ => true
  | _ => false

/-- Sign bit of a value; false for NaN. -/
def Num.neg : Num → Bool
  | .nan => false
  | .inf n => n
  | .fin n _ _ => n

/-- Decodes the bits of a floating-point layout (R183, R185, R187). -/
def FpSpec.decode (f : FpSpec) (bits : Nat) : Num :=
  let neg := natBit bits (f.eb + f.mb)
  let mag := bits % 2 ^ (f.eb + f.mb)
  let ex := mag / 2 ^ f.mb
  let fr := mag % 2 ^ f.mb
  if f.ieee && ex == 2 ^ f.eb - 1 then (if fr = 0 then .inf neg else .nan)
  else if !f.ieee && f.nan != 0 && mag == f.nan then .nan
  else if ex = 0 then .fin neg fr (1 - (f.bias : Int) - f.mb)
  else .fin neg (2 ^ f.mb + fr) ((ex : Int) - f.bias - f.mb)

/-- Two's-complement reading of `w` bits. -/
def signed (w bits : Nat) : Int := if natBit bits (w - 1) then (bits % 2 ^ w : Int) - 2 ^ w else bits % 2 ^ w

/-- Two's-complement encoding in `w` bits. -/
def encodeInt (w : Nat) (i : Int) : Nat := (i % 2 ^ w).toNat

/-- Value of an element of any format, MX scale not applied (R183, R184). -/
def Format.decode (f : Format) (bits : Nat) : Num :=
  match f with
  | .int8 => let i := signed 8 bits; .fin (decide (i < 0)) i.natAbs 0
  | .mxInt8 => let i := signed 8 bits; .fin (decide (i < 0)) i.natAbs (-6)
  | .int32 => let i := signed 32 bits; .fin (decide (i < 0)) i.natAbs 0
  | f => f.fp.decode (bits % 2 ^ f.bits)

/-- The zero test of R218. -/
def Format.isZeroElem (f : Format) (bits : Nat) : Bool :=
  if f.isInt then bits % 2 ^ f.bits == 0 else bits % 2 ^ (f.bits - 1) == 0

/-- Rounding modes of R188, stochastic with its draw and draw bits (R189). -/
inductive Rounding where
  | rne
  | stochastic (draw n : Nat)
  | zero
deriving DecidableEq, Repr

/-- Rounds m × 2^e to a multiple of 2^u, as the number of units (R188, R189). -/
def roundUnits (r : Rounding) (m : Nat) (e u : Int) : Nat :=
  if e ≥ u then m * 2 ^ (e - u).toNat
  else
    let k := (u - e).toNat
    let a := m / 2 ^ k
    let rem := m % 2 ^ k
    if rem = 0 then a
    else
      match r with
      | .zero => a
      | .rne => if 2 * rem > 2 ^ k || (2 * rem == 2 ^ k && a % 2 == 1) then a + 1 else a
      | .stochastic draw n =>
        let t := (rem * 2 ^ (n + 1) + 2 ^ k) / 2 ^ (k + 1)
        if draw % 2 ^ n < t then a + 1 else a

/-- Exponent of the spacing of a layout at magnitude m × 2^e, unlimited above (R188). -/
def FpSpec.ulp (f : FpSpec) (m : Nat) (e : Int) : Int :=
  max (e + ilog2 m - f.mb) (1 - (f.bias : Int) - f.mb)

/-- Magnitude encoding of q × 2^u, or none when it exceeds the largest finite value. -/
def FpSpec.encodeMag (f : FpSpec) (q : Nat) (u : Int) : Option Nat :=
  if q = 0 then some 0
  else
    let l := ilog2 q
    let mag : Int :=
      if l < f.mb then q else ((u + l + f.bias - 1) * 2 ^ f.mb + (q * 2 ^ f.mb / 2 ^ l : Nat))
    if mag > f.maxMag then none else some mag.toNat

/-- What a finite overflow becomes: the largest finite value or Inf (R190). -/
def FpSpec.overflow (f : FpSpec) (toInf : Bool) : Nat :=
  if toInf && f.ieee then (2 ^ f.eb - 1) * 2 ^ f.mb else f.maxMag

/-- A rounded value: the encoded bits and whether it was a finite overflow. -/
structure Rounded where
  bits : Nat
  overflow : Bool
deriving DecidableEq, Repr

/-- Conversion to a floating-point layout (R188 to R190). E4M3 takes ±Inf to ±448. -/
def FpSpec.convert (f : FpSpec) (r : Rounding) (toInf : Bool) (x : Num) : Rounded :=
  let s (n : Bool) := if n then 2 ^ (f.eb + f.mb) else 0
  match x with
  | .nan => ⟨f.nan, false⟩
  | .inf n => ⟨s n + f.overflow true, false⟩
  | .fin n m e =>
    if m = 0 then ⟨s n, false⟩
    else
      match f.encodeMag (roundUnits r m e (f.ulp m e)) (f.ulp m e) with
      | some mag => ⟨s n + mag, false⟩
      | none => ⟨s n + f.overflow toInf, true⟩

/-- Clamps to an integer range. -/
def clampInt (lo hi i : Int) : Int := max lo (min hi i)

/-- Conversion to an integer of `w` bits with unit 2^u (R190, R191): NaN gives 0. -/
def toInteger (w : Nat) (u : Int) (r : Rounding) (x : Num) : Rounded :=
  let lo : Int := -2 ^ (w - 1)
  let hi : Int := 2 ^ (w - 1) - 1
  match x with
  | .nan => ⟨0, false⟩
  | .inf n => ⟨encodeInt w (if n then lo else hi), false⟩
  | .fin n m e =>
    let q : Int := roundUnits r m e u
    let v := if n then -q else q
    ⟨encodeInt w (clampInt lo hi v), decide (v < lo ∨ hi < v)⟩

/-- Conversion of a value to a non-MX format, or to an MX element (R188 to R191). -/
def Format.convert (f : Format) (r : Rounding) (toInf : Bool) (x : Num) : Rounded :=
  match f with
  | .int8 => toInteger 8 0 r x
  | .int32 => toInteger 32 0 r x
  | .mxInt8 => toInteger 8 (-6) r x
  | f => f.fp.convert r (toInf && !f.isMx) x

/-- FP32 decode. -/
def f32 (b : Word32) : Num := Format.fp32.fp.decode b.toNat

/-- FP32 encode under RNE, overflow to Inf (R193). -/
def toF32 (x : Num) : Word32 := BitVec.ofNat 32 (Format.fp32.fp.convert .rne true x).bits

/-- BF16 encode under RNE, overflow to Inf (R193). -/
def toBf16 (x : Num) : Nat := (Format.bf16.fp.convert .rne true x).bits

/-- Exact sum as a value; an exact zero of two nonzero or unlike-signed terms is +0 (R193). -/
def Num.add (x y : Num) : Num :=
  match x, y with
  | .nan, _ | _, .nan => .nan
  | .inf a, .inf b => if a = b then .inf a else .nan
  | .inf a, _ | _, .inf a => .inf a
  | .fin a m e, .fin b n g =>
    let d := Dyadic.add (Num.fin a m e).dyadic (Num.fin b n g).dyadic
    if d.m = 0 then .fin (a && b && m == 0 && n == 0) 0 0 else .fin (decide (d.m < 0)) d.m.natAbs d.e

/-- Exact product as a value (R152, R193). (DEDUCED, log 128) -/
def Num.mul (x y : Num) : Num :=
  match x, y with
  | .nan, _ | _, .nan => .nan
  | .inf a, .inf b => .inf (a != b)
  | .inf a, .fin b m _ | .fin b m _, .inf a => if m = 0 then .nan else .inf (a != b)
  | .fin a m e, .fin b n g => .fin (a != b) (m * n) (e + g)

/-- Negation. -/
def Num.negate : Num → Num
  | .nan => .nan
  | .inf a => .inf (!a)
  | .fin a m e => .fin (!a) m e

def f32Add (a b : Word32) : Word32 := toF32 ((f32 a).add (f32 b))
def f32Sub (a b : Word32) : Word32 := toF32 ((f32 a).add (f32 b).negate)
def f32Mul (a b : Word32) : Word32 := toF32 ((f32 a).mul (f32 b))
/-- Fused multiply-add with one rounding (R193). -/
def f32Fma (a b c : Word32) : Word32 := toF32 (((f32 a).mul (f32 b)).add (f32 c))

/-- Order of FP32 values, −0 equal to +0; false when either is NaN. -/
def Num.lt (x y : Num) : Bool :=
  match x, y with
  | .nan, _ | _, .nan => false
  | .inf a, .inf b => a && !b
  | .inf a, _ => a
  | _, .inf b => !b
  | x, y => Dyadic.lt x.dyadic y.dyadic

/-- Equality of FP32 values; false when either is NaN. -/
def Num.eq (x y : Num) : Bool := !x.isNan && !y.isNan && !x.lt y && !y.lt x

/-- Applies a value operation to both BF16 halves of a lane (R193, R571). -/
def bfHalves (op : Num → Num → Num → Num) (a b c : Word32) : Word32 :=
  let h (w : Word32) (i : Nat) := Format.bf16.fp.decode (bitsAt w.toNat (16 * i) 16)
  BitVec.ofNat 32 (toBf16 (op (h a 0) (h b 0) (h c 0)) + 2 ^ 16 * toBf16 (op (h a 1) (h b 1) (h c 1)))

/-- An exact group sum of products (R152 to R154): the finite part and what else it holds. -/
structure GroupSum where
  sum : Dyadic
  nan : Bool
  posInf : Bool
  negInf : Bool
deriving DecidableEq, Repr

def GroupSum.zero : GroupSum := ⟨.zero, false, false, false⟩

/-- Product of one passing and one held element (R152): zero first, then NaN. `bad` says that either
scale is 0xFF. -/
def product (x y : Num) (bad : Bool) : Num :=
  if x.isZero || y.isZero then .fin false 0 0
  else if bad then .nan
  else x.mul y

/-- Adds a product to a group sum, exactly. -/
def GroupSum.addProduct (g : GroupSum) (p : Num) : GroupSum :=
  match p with
  | .nan => { g with nan := true }
  | .inf true => { g with negInf := true }
  | .inf false => { g with posInf := true }
  | .fin _ _ _ => { g with sum := g.sum.add p.dyadic }

/-- The result of a fold: new accumulator value, saturation flag, NaN flag (R154, R157). -/
structure Folded where
  acc : Word32
  sat : Bool
  nan : Bool
deriving DecidableEq, Repr

/-- FLT_MAX with a sign. -/
def fltMax (neg : Bool) : Word32 := if neg then 0xFF7F_FFFF else 0x7F7F_FFFF

/-- Fold of a group sum, already scaled, into an FP32 accumulator (R154). -/
def foldF32 (a : Word32) (g : GroupSum) : Folded :=
  let x := f32 a
  if x.isNan then ⟨a, false, false⟩
  else if g.nan || (g.posInf && g.negInf) then ⟨0x7FC0_0000, false, true⟩
  else if g.posInf || g.negInf then ⟨fltMax g.negInf, true, false⟩
  else if g.sum.m = 0 then ⟨a, false, false⟩
  else if x.isInf then ⟨fltMax x.neg, true, false⟩
  else
    let d := x.dyadic.add g.sum
    if d.m = 0 then ⟨0, false, false⟩
    else
      let r := Format.fp32.fp.convert .rne false (.fin (decide (d.m < 0)) d.m.natAbs d.e)
      ⟨BitVec.ofNat 32 r.bits, r.overflow, false⟩

/-- Fold of an integer group sum into a 32-bit integer accumulator (R157). -/
def foldInt (a : Word32) (s : Int) : Folded :=
  let v := a.toInt + s
  ⟨BitVec.ofInt 32 (clampInt (-2 ^ 31) (2 ^ 31 - 1) v), decide (v < -2 ^ 31 ∨ 2 ^ 31 - 1 < v), false⟩

/-- A power of two as FP32, for −126 ≤ e ≤ 127 (R205). -/
def pow2F32 (e : Int) : Word32 := BitVec.ofNat 32 ((e + 127).toNat * 2 ^ 23)

/-- floor(log2(F ÷ v)) of two positive finite values (R206). -/
def floorLog2Ratio (mF : Nat) (eF : Int) (mV : Nat) (eV : Int) : Int :=
  let p := eF + ilog2 mF
  let q := eV + ilog2 mV
  -- f ≥ m, both normalised to [1, 2)
  if mF * 2 ^ ilog2 mV ≥ mV * 2 ^ ilog2 mF then p - q else p - q - 1

/-- fmt_max of R206, none where the format has none. -/
def Format.fmtMax : Format → Option (Nat × Int)
  | .e4m3 => some (448, 0)
  | .e5m2 => some (57344, 0)
  | .fp16 => some (65504, 0)
  | .bf16 => some (255, 120)
  | .int8 => some (127, 0)
  | _ => none

/-- emax of R192 step 3. -/
def Format.emax : Format → Int
  | .mxE4m3 => 8
  | .mxE5m2 => 15
  | .mxE2m3 => 2
  | .mxE3m2 => 4
  | .mxE2m1 => 2
  | _ => 0

/-- floor(log2 v) of a nonzero magnitude. -/
def Num.exponent : Num → Int
  | .fin _ m e => e + ilog2 m
  | _ => 0

/-- The larger magnitude of two finite values. -/
def Num.maxMag (x y : Num) : Num :=
  let d (n : Num) : Dyadic := match n with | .fin _ m e => ⟨m, e⟩ | _ => .zero
  if Dyadic.lt (d x) (d y) then y else x

/-- Conversion of one block of 32 values to an MX format (R192): element bits and the E8M0 scale.
`r` gives the rounding of each element by its position in the block. (DEDUCED, log 36) -/
def mxBlock (f : Format) (r : Nat → Rounding) (vs : List Num) : List Nat × Nat :=
  if vs.any fun v => v.isNan || v.isInf then (vs.map fun _ => 1, 0xFF)
  else
    let big := vs.foldl Num.maxMag (.fin false 0 0)
    if big.isZero then (vs.map fun _ => 0, 0)
    else
      let k := clampInt (-127) 127 (big.exponent - f.emax)
      let scaled (v : Num) : Num := match v with | .fin n m e => .fin n m (e - k) | v => v
      ((vs.zip (List.range vs.length)).map fun p => (f.convert (r p.2) false (scaled p.1)).bits, (k + 127).toNat)

/-- Lane-wise FP32 maximum or minimum of VRED: any NaN gives the canonical NaN, −0 is below +0 (R572). -/
def f32Extreme (wantMax : Bool) (a b : Word32) : Word32 :=
  if (f32 a).isNan || (f32 b).isNan then 0x7FC0_0000
  else if (f32 a).isZero && (f32 b).isZero then
    (if (f32 a).neg = wantMax then b else a)
  else if ((f32 a).lt (f32 b)) = wantMax then b else a

/-- One level of the pairwise sum tree of R294. -/
def sumLevel : List Word32 → List Word32
  | a :: b :: r => f32Add a b :: sumLevel r
  | r => r

/-- The pairwise sum tree of R294, 0 for no value; the fuel bounds the number of levels. -/
def sumTree : Nat → List Word32 → Word32
  | _, [] => 0
  | _, [a] => a
  | 0, a :: _ => a
  | n + 1, r => sumTree n (sumLevel r)

end Sys2Proof.Machine
end

