-- ==== Sys2Proof/Machine/Activation.lean ====
section
/-! DEFINITION. The activations of the drain epilogue (R171), correctly rounded. Each transcendental function
is enclosed between two fixed-point bounds, and the precision is raised until both bounds round to one FP32
value. Bounds are pairs of integers in units of 2^-P, lower bound first. -/
namespace Sys2Proof.Machine

/-- An enclosure [lo, hi] in units of 2^-P. -/
structure Bounds where
  lo : Int
  hi : Int
deriving DecidableEq, Repr

/-- Quotient rounded down. -/
def fdiv (a b : Int) : Int := a.fdiv b

/-- Quotient rounded up. -/
def cdiv (a b : Int) : Int := -((-a).fdiv b)

/-- Terms of the exponential series for r in units of 2^-P, 0 ≤ r ≤ 1; stops when a term vanishes.
Answers the sum of the terms rounded down and their number. -/
def expSeries (P r : Nat) : Nat → Nat → Nat → Nat → Nat × Nat
  | 0, n, _, acc => (acc, n)
  | fuel + 1, n, term, acc =>
    let t := term * r / (n + 1) / 2 ^ P
    if t = 0 then (acc, n + 1) else expSeries P r fuel (n + 1) t (acc + t)

/-- Squares an enclosure of a value in [0, 1] k times. -/
def squareTimes (P : Nat) : Nat → Bounds → Bounds
  | 0, b => b
  | k + 1, b => squareTimes P k ⟨fdiv (b.lo * b.lo) (2 ^ P), cdiv (b.hi * b.hi) (2 ^ P)⟩

/-- Encloses e^(−x) for x = m × 2^e ≥ 0 with x < 512: the argument is divided by 2^10, its exponential
summed with every error counted, inverted and squared ten times. -/
def expNeg (P m : Nat) (e : Int) : Bounds :=
  let sh := (P : Int) + e - 10
  let rLo : Nat := if sh ≥ 0 then m * 2 ^ sh.toNat else m / 2 ^ (-sh).toNat
  let exact := sh ≥ 0 || m % 2 ^ (-sh).toNat == 0
  let rHi := if exact then rLo else rLo + 1
  let one := 2 ^ P
  let sLo := expSeries P rLo P 0 one one
  let sHi := expSeries P rHi P 0 one one
  squareTimes P 10 ⟨fdiv (one * one : Nat) (sHi.1 + 2 * sHi.2 + 8 : Nat), cdiv (one * one : Nat) sLo.1⟩

/-- Alternating arctangent series of 1/q in units of 2^-P: the partial sum, and its error bound in units. -/
def atanInv (P q : Nat) : Int × Nat := go P 0 (2 ^ P / q) 0
where
  go : Nat → Nat → Nat → Int → Int × Nat
    | 0, n, _, acc => (acc, 2 * n + 4)
    | fuel + 1, n, pw, acc =>
      if pw = 0 then (acc, 2 * n + 4)
      else
        let t : Int := pw / (2 * n + 1)
        go fuel (n + 1) (pw / (q * q)) (if n % 2 = 0 then acc + t else acc - t)

/-- Encloses π by Machin's formula. -/
def piBounds (P : Nat) : Bounds :=
  let a := atanInv P 5
  let b := atanInv P 239
  let v := 16 * a.1 - 4 * b.1
  let err := 16 * a.2 + 4 * b.2
  ⟨v - err, v + err⟩

/-- Integer square root by bits, from bit k down. -/
def isqrtBits (n : Nat) : Nat → Nat → Nat
  | 0, r => r
  | k + 1, r => if (r + 2 ^ k) * (r + 2 ^ k) ≤ n then isqrtBits n k (r + 2 ^ k) else isqrtBits n k r

/-- Integer square root. -/
def isqrt (n : Nat) : Nat := isqrtBits n (ilog2 n / 2 + 1) 0

/-- Encloses √(2/π). -/
def sqrtTwoOverPi (P : Nat) : Bounds :=
  let pi := piBounds P
  let one : Nat := 2 ^ P
  let lo := fdiv ((2 * one * one : Nat) : Int) pi.hi
  let hi := cdiv ((2 * one * one : Nat) : Int) pi.lo
  ⟨isqrt (lo.toNat * one), isqrt (hi.toNat * one) + 1⟩

/-- One fixed-point bound as an exact value. -/
def fixedNum (P : Nat) (v : Int) : Num := .fin (decide (v < 0)) v.natAbs (-(P : Int))

/-- Encloses a quotient of two positive enclosures. -/
def divPos (P : Nat) (a b : Bounds) : Bounds := ⟨fdiv (a.lo * 2 ^ P) b.hi, cdiv (a.hi * 2 ^ P) b.lo⟩

/-- Encloses m × 2^e × b for b ≥ 0. -/
def scaleBounds (m : Nat) (e : Int) (b : Bounds) : Bounds :=
  if e ≥ 0 then ⟨b.lo * m * 2 ^ e.toNat, b.hi * m * 2 ^ e.toNat⟩
  else ⟨fdiv (b.lo * m) (2 ^ (-e).toNat), cdiv (b.hi * m) (2 ^ (-e).toNat)⟩

/-- The transcendental activations of R171. -/
inductive Transcendental where
  | gelu | silu | sigmoid | tanh
deriving DecidableEq, Repr

/-- Encloses |f(y)| at precision P for a finite nonzero y = ± m × 2^e in the range where f is not already
decided (see `transcendental`). With q = e^(−z), z > 0: sigmoid is 1/(1+q) or q/(1+q), tanh is
(1−q)/(1+q) with z = 2|y|, SiLU is |y| times the sigmoid and GELU |y| times the sigmoid at twice its inner
argument, since (1 + tanh w)/2 is the sigmoid of 2w. (DEDUCED, log 37) -/
def enclose (f : Transcendental) (P : Nat) (neg : Bool) (m : Nat) (e : Int) : Bounds :=
  let one : Int := 2 ^ P
  let sig (q : Bounds) : Bounds :=
    if neg then divPos P q ⟨one + q.lo, one + q.hi⟩ else divPos P ⟨one, one⟩ ⟨one + q.lo, one + q.hi⟩
  match f with
  | .sigmoid => sig (expNeg P m e)
  | .silu => scaleBounds m e (sig (expNeg P m e))
  | .tanh =>
    let q := expNeg P m (e + 1)
    divPos P ⟨one - q.hi, one - q.lo⟩ ⟨one + q.lo, one + q.hi⟩
  | .gelu =>
    -- inner argument w = c (y + 0.044715 y^3), the bracket exactly as a fraction over 10^6
    let c := sqrtTwoOverPi P
    let y2 := scaleBounds (m * m) (2 * e) ⟨one, one⟩
    let br : Bounds := ⟨one + fdiv (44715 * y2.lo) 1000000, one + cdiv (44715 * y2.hi) 1000000⟩
    let w := scaleBounds m e ⟨fdiv (c.lo * br.lo) one, cdiv (c.hi * br.hi) one⟩
    let lo := expNeg P (2 * w.hi).toNat (-(P : Int))
    let hi := expNeg P (2 * w.lo).toNat (-(P : Int))
    scaleBounds m e (sig ⟨lo.lo, hi.hi⟩)

/-- Raises the precision until both bounds round to one FP32 magnitude (R171). -/
def settle (f : Transcendental) (neg : Bool) (m : Nat) (e : Int) : Nat → Nat → Word32
  | 0, P => toF32 (fixedNum P (enclose f P neg m e).lo)
  | fuel + 1, P =>
    let b := enclose f P neg m e
    let lo := toF32 (fixedNum P b.lo)
    if lo = toF32 (fixedNum P b.hi) then lo else settle f neg m e fuel (2 * P)

/-- True when |m × 2^e| ≥ 2^k. -/
def magAtLeast (m : Nat) (e k : Int) : Bool := decide (e + ilog2 m ≥ k)

/-- A transcendental activation of a finite value (R171). Where the magnitude alone decides the rounded
result it is given at once: from 2^5 for the sigmoid, SiLU and GELU of a positive value and for tanh, and
from 2^7 (2^4 for GELU) for the vanishing tails of negative values. A result that rounds to zero keeps its sign. -/
def transcendental (f : Transcendental) (neg : Bool) (m : Nat) (e : Int) : Word32 :=
  let sgn (w : Word32) : Word32 := w ||| 0x8000_0000
  let y := toF32 (.fin neg m e)
  if m = 0 then (match f with | .sigmoid => 0x3F00_0000 | _ => y)
  else
    match f with
    | .sigmoid =>
      if magAtLeast m e 7 && neg then 0 else if magAtLeast m e 5 && !neg then 0x3F80_0000
      else settle f neg m e 6 256
    | .tanh =>
      let r := if magAtLeast m e 5 then 0x3F80_0000 else settle f false m e 6 256
      if neg then sgn r else r
    | .silu =>
      if magAtLeast m e 7 && neg then 0x8000_0000 else if magAtLeast m e 5 && !neg then y
      else (let r := settle f neg m e 6 256; if neg then sgn r else r)
    | .gelu =>
      if magAtLeast m e 4 && neg then 0x8000_0000 else if magAtLeast m e 4 && !neg then y
      else (let r := settle f neg m e 6 256; if neg then sgn r else r)

/-- The activation stage of the epilogue (R168 stage 4, R171); `code` is the field of R169. -/
def activate (code : Nat) (lo hi y : Word32) : Word32 :=
  let x := f32 y
  let nan : Word32 := 0x7FC0_0000
  let trans (f : Transcendental) (posInf negInf : Word32) : Word32 :=
    match x with
    | .nan => nan
    | .inf false => posInf
    | .inf true => negInf
    | .fin n m e => transcendental f n m e
  match code with
  | 0 => if x.isNan then nan else y
  | 1 => if x.isNan then nan else if x.neg || x.isZero then 0 else y
  | 2 => trans .gelu 0x7F80_0000 0x8000_0000
  | 3 => trans .silu 0x7F80_0000 0x8000_0000
  | 4 => trans .sigmoid 0x3F80_0000 0
  | 5 => trans .tanh 0x3F80_0000 0xBF80_0000
  | 6 => if x.isNan then nan else f32Extreme false (f32Extreme true y lo) hi
  | _ => y

end Sys2Proof.Machine
end

