-- ==== Sys2Proof/Machine/Scalar.lean ====
section
/-! DEFINITION. Scalar and control instructions (R48 to R56, R77, R568 to R570). -/
namespace Sys2Proof.Machine

/-- Value of a second operand (R568). -/
def Tile.src2 (x : Tile) : Src2 → Word64
  | .reg b => x.sreg b
  | .imm i => sext i

/-- Registers that a second operand reads. -/
def operandRegs : Src2 → List SReg
  | .reg b => [b]
  | .imm _ => []

/-- A scalar op: d takes a function of a, the second operand and the old d (R568, R569). -/
def scalarOp (op : BitVec 8) (d a : SReg) (x : Src2) (f : Word64 → Word64 → Word64 → Word64) : Insn :=
  { word := encS op d a x, scalars := d :: a :: operandRegs x, vectors := [],
    body := fun _ _ t => .done (t.setS d (f (t.sreg a) (t.src2 x) (t.sreg d))) }

/-- Shift amount, bits [5:0] (R569). -/
def shiftAmount (b : Word64) : Nat := b.toNat % 64

/-- Signed quotient toward zero; all ones for a zero divisor; −2^63 ÷ −1 wraps (R52). -/
def divSigned (a b : Word64) : Word64 :=
  if b = 0 then BitVec.allOnes 64 else BitVec.ofInt 64 (a.toInt.tdiv b.toInt)

/-- Remainder with the sign of the dividend; the dividend for a zero divisor (R52). -/
def remSigned (a b : Word64) : Word64 :=
  if b = 0 then a else BitVec.ofInt 64 (a.toInt.tmod b.toInt)

/-- High 64 bits of the signed product (R569). -/
def mulHigh (a b : Word64) : Word64 := BitVec.ofInt 64 ((a.toInt * b.toInt) / 2 ^ 64)

def insnAdd (d a : SReg) (x : Src2) : Insn := scalarOp 0x01 d a x fun a b _ => a + b
def insnSub (d a : SReg) (x : Src2) : Insn := scalarOp 0x02 d a x fun a b _ => a - b
def insnAnd (d a : SReg) (x : Src2) : Insn := scalarOp 0x03 d a x fun a b _ => a &&& b
def insnOr (d a : SReg) (x : Src2) : Insn := scalarOp 0x04 d a x fun a b _ => a ||| b
def insnXor (d a : SReg) (x : Src2) : Insn := scalarOp 0x05 d a x fun a b _ => a ^^^ b
def insnShl (d a : SReg) (x : Src2) : Insn := scalarOp 0x06 d a x fun a b _ => a <<< shiftAmount b
def insnShr (d a : SReg) (x : Src2) : Insn := scalarOp 0x07 d a x fun a b _ => a >>> shiftAmount b
def insnSra (d a : SReg) (x : Src2) : Insn := scalarOp 0x08 d a x fun a b _ => a.sshiftRight (shiftAmount b)
def insnMul (d a : SReg) (x : Src2) : Insn := scalarOp 0x09 d a x fun a b _ => a * b
def insnMulh (d a : SReg) (x : Src2) : Insn := scalarOp 0x0A d a x fun a b _ => mulHigh a b
def insnDiv (d a : SReg) (x : Src2) : Insn := scalarOp 0x0B d a x fun a b _ => divSigned a b
def insnRem (d a : SReg) (x : Src2) : Insn := scalarOp 0x0C d a x fun a b _ => remSigned a b
def insnSlt (d a : SReg) (x : Src2) : Insn := scalarOp 0x0D d a x fun a b _ => if a.slt b then 1 else 0
def insnSltu (d a : SReg) (x : Src2) : Insn := scalarOp 0x0E d a x fun a b _ => if a.ult b then 1 else 0
/-- The sign-extended immediate, or register b (R568). -/
def insnLi (d : SReg) (x : Src2) : Insn := scalarOp 0x0F d 0 x fun _ b _ => b
/-- Bits [31:0] of the operand into bits [63:32]; the low bits stay (R568). -/
def insnLui (d : SReg) (x : Src2) : Insn := scalarOp 0x10 d 0 x fun _ b old =>
  (b.extractLsb' 0 32 : BitVec 32) ++ (old.extractLsb' 0 32 : BitVec 32)
def insnAddi (d a : SReg) (x : Src2) : Insn := scalarOp 0x11 d a x fun a b _ => a + b

/-- Superstep index of the send group (R56 selector 6, R283). (DEDUCED, log 15) -/
def Tile.superstepIndex (x : Tile) : Nat := (x.member x.sd.sendGroup.toNat).index

/-- Selectors 0 to 8 of SYS (R56); none for a selector outside the table. -/
def sysValue (s : State) (t : Nat) (x : Tile) (sel : Nat) : Option Word64 :=
  match sel with
  | 0 => some (BitVec.ofNat 64 t)
  | 1 => some (BitVec.ofNat 64 (s.tx t))
  | 2 => some (BitVec.ofNat 64 (s.ty t))
  | 3 => some (BitVec.ofNat 64 (s.tb t))
  | 4 => some (BitVec.ofNat 64 arrays)
  | 5 => some s.stepNo
  | 6 => some (BitVec.ofNat 64 x.superstepIndex)
  | 7 => some x.core.cycles
  | 8 => some (BitVec.ofNat 64 (((s.groupsOf t).map fun g => 2 ^ g).foldl (· + ·) 0))
  | _ => none

/-- SYS (R56, R244, R568): selector 9 reads the count word of ring `a`, and stalls until its first unclaimed
unit is there. In the immediate form `a` is zero unless the selector is 9. -/
def sysBody (d a : SReg) (x : Src2) : State → Nat → Tile → Issue := fun s t c =>
  let sel := (c.src2 x).toNat % 2 ^ 32
  let badA := match x with | .imm i => i != 9 && a != 0 | .reg _ => false
  if badA then .fault .illegalInsn 0 c
  else if sel = 9 then
    let r := c.ring a
    if !r.valid then .fault .ringUndefined 0 c
    else if !r.countPrefixed then .done (c.setS d 0)
    else if r.available = 0 then .stall c .input [a]
    else
      match c.readUnits 0 a r.firstFree 1 with
      | (c, some bs) => .done (c.setS d (BitVec.ofNat 64 (CountUnit.parse bs).rows))
      | (c, none) => .fault .memoryUncorrectable (r.offset r.firstFree) c
  else
    match sysValue s t c sel with
    | some v => .done (c.setS d v)
    | none => .fault .illegalInsn 0 c

def insnSys (d a : SReg) (x : Src2) : Insn :=
  { word := encS 0x12 d a x, scalars := d :: operandRegs x, vectors := [], body := sysBody d a x }

/-- A tile-memory access of `n` bytes by the S-core at a + imm: alignment, range (R49, R78), then the touch of
its page (R117, R119); `k` goes on once the page is ready. -/
def withAddress (c : Tile) (a : Word64) (n : Nat) (write : Bool) (k : Nat → Tile → Issue) : Issue :=
  let off := a.toNat
  if off % n ≠ 0 then .fault .misaligned off c
  else if dataBytes < off + n then .fault .addressRange off c
  else
    match c.touch off n with
    | .ok => k off c
    | .wait c p => .stall (c.setWait write 0 p) (if write then .pageWrite else .pageRead) []
    | .unresolved => .fault .pageFaultUnresolved off c

/-- A load by the S-core (R49, R128). -/
def loadBody (a : Word64) (n : Nat) (k : List Byte → Tile → Tile) (c : Tile) : Issue :=
  withAddress c a n false fun off c =>
    match c.readData 0 off n with
    | (c, some bs) => .done (k bs c)
    | (c, none) => .fault .memoryUncorrectable off c

/-- A store by the S-core (R49). It moves no head or tail (R110). -/
def storeBody (a : Word64) (bs : List Byte) (c : Tile) : Issue :=
  withAddress c a bs.length true fun off c => .done (c.writeData off bs)

def insnLd (d a : SReg) (imm : Word32) : Insn :=
  { word := encA 1 0x01 d a 0 0 imm, scalars := [d, a], vectors := [],
    body := fun _ _ c => loadBody (c.sreg a + sext imm) 8 (fun bs c => c.setS d (BitVec.ofNat 64 (leNat bs))) c }

def insnSt (a b : SReg) (imm : Word32) : Insn :=
  { word := encA 1 0x02 0 a b 0 imm, scalars := [a, b], vectors := [],
    body := fun _ _ c => storeBody (c.sreg a + sext imm) (leBytes 8 (c.sreg b).toNat) c }

/-- A conditional branch (R570). -/
def branchOp (op : BitVec 8) (a b : SReg) (target : BitVec 13) (cond : Word64 → Word64 → Bool) : Insn :=
  { word := encB 1 op a b 0 target, scalars := [a, b], vectors := [],
    body := fun _ _ c => if cond (c.sreg a) (c.sreg b) then .jump c target.toNat else .done c }

def insnBeq (a b : SReg) (g : BitVec 13) : Insn := branchOp 0x03 a b g fun a b => a == b
def insnBne (a b : SReg) (g : BitVec 13) : Insn := branchOp 0x04 a b g fun a b => a != b
def insnBlt (a b : SReg) (g : BitVec 13) : Insn := branchOp 0x05 a b g fun a b => a.slt b
def insnBge (a b : SReg) (g : BitVec 13) : Insn := branchOp 0x06 a b g fun a b => !a.slt b
def insnBltu (a b : SReg) (g : BitVec 13) : Insn := branchOp 0x07 a b g fun a b => a.ult b
def insnBgeu (a b : SReg) (g : BitVec 13) : Insn := branchOp 0x08 a b g fun a b => !a.ult b

def insnJmp (g : BitVec 13) : Insn :=
  { word := encB 1 0x09 0 0 0 g, scalars := [], vectors := [], body := fun _ _ c => .jump c g.toNat }

/-- The return address is written with the jump; a target that is out of range writes nothing (R79, R570). -/
def insnJal (l : SReg) (g : BitVec 13) : Insn :=
  { word := encB 1 0x0A 0 0 l g, scalars := [l], vectors := [],
    body := fun _ _ c =>
      if g.toNat < c.core.codeLen then .jump (c.setS l (BitVec.ofNat 64 (c.core.pc + 1))) g.toNat
      else .jump c g.toNat }

def insnJr (a : SReg) : Insn :=
  { word := encA 1 0x0B 0 a 0 0 0, scalars := [a], vectors := [], body := fun _ _ c => .jump c (c.sreg a).toNat }

/-- HALT is EARLY_HALT wherever it is reached: a step ends only through its final bell (R77). -/
def insnHalt : Insn :=
  { word := encA 1 0x0C 0 0 0 0 0, scalars := [], vectors := [], body := fun _ _ c => .fault .earlyHalt 0 c }

def execAdd (t : Nat) (d a : SReg) (x : Src2) (s : State) : Out := issue false t (insnAdd d a x) s
def execSub (t : Nat) (d a : SReg) (x : Src2) (s : State) : Out := issue false t (insnSub d a x) s
def execAnd (t : Nat) (d a : SReg) (x : Src2) (s : State) : Out := issue false t (insnAnd d a x) s
def execOr (t : Nat) (d a : SReg) (x : Src2) (s : State) : Out := issue false t (insnOr d a x) s
def execXor (t : Nat) (d a : SReg) (x : Src2) (s : State) : Out := issue false t (insnXor d a x) s
def execShl (t : Nat) (d a : SReg) (x : Src2) (s : State) : Out := issue false t (insnShl d a x) s
def execShr (t : Nat) (d a : SReg) (x : Src2) (s : State) : Out := issue false t (insnShr d a x) s
def execSra (t : Nat) (d a : SReg) (x : Src2) (s : State) : Out := issue false t (insnSra d a x) s
def execMul (t : Nat) (d a : SReg) (x : Src2) (s : State) : Out := issue false t (insnMul d a x) s
def execMulh (t : Nat) (d a : SReg) (x : Src2) (s : State) : Out := issue false t (insnMulh d a x) s
def execDiv (t : Nat) (d a : SReg) (x : Src2) (s : State) : Out := issue false t (insnDiv d a x) s
def execRem (t : Nat) (d a : SReg) (x : Src2) (s : State) : Out := issue false t (insnRem d a x) s
def execSlt (t : Nat) (d a : SReg) (x : Src2) (s : State) : Out := issue false t (insnSlt d a x) s
def execSltu (t : Nat) (d a : SReg) (x : Src2) (s : State) : Out := issue false t (insnSltu d a x) s
def execLi (t : Nat) (d : SReg) (x : Src2) (s : State) : Out := issue false t (insnLi d x) s
def execLui (t : Nat) (d : SReg) (x : Src2) (s : State) : Out := issue false t (insnLui d x) s
def execAddi (t : Nat) (d a : SReg) (x : Src2) (s : State) : Out := issue false t (insnAddi d a x) s
def execSys (t : Nat) (d a : SReg) (x : Src2) (s : State) : Out := issue false t (insnSys d a x) s
def execLd (t : Nat) (d a : SReg) (imm : Word32) (s : State) : Out := issue false t (insnLd d a imm) s
def execSt (t : Nat) (a b : SReg) (imm : Word32) (s : State) : Out := issue false t (insnSt a b imm) s
def execBeq (t : Nat) (a b : SReg) (g : BitVec 13) (s : State) : Out := issue false t (insnBeq a b g) s
def execBne (t : Nat) (a b : SReg) (g : BitVec 13) (s : State) : Out := issue false t (insnBne a b g) s
def execBlt (t : Nat) (a b : SReg) (g : BitVec 13) (s : State) : Out := issue false t (insnBlt a b g) s
def execBge (t : Nat) (a b : SReg) (g : BitVec 13) (s : State) : Out := issue false t (insnBge a b g) s
def execBltu (t : Nat) (a b : SReg) (g : BitVec 13) (s : State) : Out := issue false t (insnBltu a b g) s
def execBgeu (t : Nat) (a b : SReg) (g : BitVec 13) (s : State) : Out := issue false t (insnBgeu a b g) s
def execJmp (t : Nat) (g : BitVec 13) (s : State) : Out := issue false t (insnJmp g) s
def execJal (t : Nat) (l : SReg) (g : BitVec 13) (s : State) : Out := issue false t (insnJal l g) s
def execJr (t : Nat) (a : SReg) (s : State) : Out := issue false t (insnJr a) s
def execHalt (t : Nat) (s : State) : Out := issue false t insnHalt s

/-- A code-store word that no instruction spells raises ILLEGAL_INSN (R55); a word that one spells is that
instruction's own command. -/
def insnIllegal (w : Word64) : Insn :=
  { word := w, scalars := [], vectors := [], body := fun _ _ c => .fault .illegalInsn 0 c }

def execIllegalInsn (t : Nat) (w : Word64) (s : State) : Out :=
  if (decodeInsn t w).isSome && decide (t < tileCount) then .next s else issue false t (insnIllegal w) s

end Sys2Proof.Machine
end

