-- ==== Sys2Proof/Machine/Vector.lean ====
section
/-! DEFINITION. Vector instructions (R193, R360, R361, R571 to R573). -/
namespace Sys2Proof.Machine

/-- A lane-wise vector op. -/
def vectorOp (word : Word64) (d a b c : VReg) (f : Word32 → Word32 → Word32 → Word32) : Insn :=
  { word := word, scalars := [], vectors := [d, a, b, c],
    body := fun _ _ t =>
      let va := t.vreg a
      let vb := t.vreg b
      let vc := t.vreg c
      .done (t.setV d (lanes fun i => f (lane va i) (lane vb i) (lane vc i))) }

/-- Square of a finite FP32 value in units of 2^-298 (R362). -/
def squareUnits (w : Word32) : Nat :=
  match f32 w with
  | .fin _ m e => m * m * 2 ^ (2 * e + 298).toNat
  | _ => 0

/-- The tap takes the result lanes of one instruction into a slot (R360, R361). -/
def NormSlot.take (n : NormSlot) (x : Vector Word32 32) : NormSlot :=
  { n with sum := n.sum + ((x.toList.map squareUnits).foldl (· + ·) 0),
           nonfinite := n.nonfinite || x.toList.any fun w => (f32 w).isNan || (f32 w).isInf }

/-- Number of slots and of posts in flight of the tap (R361). -/
def tapSlots : Nat := 4
def tapFlight : Nat := 8

/-- Does a tag need a post that cannot start: no open slot for its pair, none free, eight posts in flight (R361)? -/
def Nt.blocked (n : Nt) (q : BitVec 2) (l : BitVec 12) : Bool :=
  !(n.slots.any fun p => p.quantity == q && p.layer == l) && decide (tapSlots ≤ n.slots.length)
    && decide (tapFlight ≤ n.flight.length)

/-- The tap adds a result: into the open slot of its pair, a free one, or the one opened longest ago,
which is first posted (R361). Slots are held oldest first. -/
def Nt.add (n : Nt) (q : BitVec 2) (l : BitVec 12) (x : Vector Word32 32) : Nt :=
  if n.slots.any fun p => p.quantity == q && p.layer == l then
    { n with slots := n.slots.map fun p => if p.quantity == q && p.layer == l then p.take x else p }
  else
    let fresh := (NormSlot.mk q l 0 false).take x
    if n.slots.length < tapSlots then { n with slots := n.slots ++ [fresh] }
    else { n with slots := n.slots.drop 1 ++ [fresh], flight := n.flight ++ n.slots.take 1 }

/-- An FP32 op with its norm tag (R360): reserved bits and the reserved quantity are ILLEGAL_INSN; with tap 1,
the window enabled and no EVAL, the tap adds the squares of the result. -/
def taggedOp (word : Word64) (d a b c : VReg) (imm : Word32) (f : Word32 → Word32 → Word32 → Word32) : Insn :=
  { word := word, scalars := [], vectors := [d, a, b, c],
    body := fun s _ t =>
      let w := imm.toNat
      let q := BitVec.ofNat 2 (bitsAt w 13 2)
      let l := BitVec.ofNat 12 w
      let va := t.vreg a
      let vb := t.vreg b
      let vc := t.vreg c
      let r := lanes fun i => f (lane va i) (lane vb i) (lane vc i)
      if bitsAt w 16 16 ≠ 0 || natBit w 12 || q == 3 then .fault .illegalInsn 0 t
      else if natBit w 15 && s.train.normEnable && !s.inEval then
        if t.nt.blocked q l then .stall t .normTap []
        else .done { t.setV d r with nt := t.nt.add q l r }
      else .done (t.setV d r) }

def insnVaddF32 (d a b : VReg) (imm : Word32) : Insn :=
  taggedOp (encA 2 0x01 (vfield d) (vfield a) (vfield b) 0 imm) d a b a imm fun a b _ => f32Add a b
def insnVsubF32 (d a b : VReg) (imm : Word32) : Insn :=
  taggedOp (encA 2 0x02 (vfield d) (vfield a) (vfield b) 0 imm) d a b a imm fun a b _ => f32Sub a b
def insnVmulF32 (d a b : VReg) (imm : Word32) : Insn :=
  taggedOp (encA 2 0x03 (vfield d) (vfield a) (vfield b) 0 imm) d a b a imm fun a b _ => f32Mul a b
def insnVfmaF32 (d a b c : VReg) (imm : Word32) : Insn :=
  taggedOp (encA 2 0x04 (vfield d) (vfield a) (vfield b) (vfield c) imm) d a b c imm f32Fma

def insnVaddBf (d a b : VReg) : Insn :=
  vectorOp (encA 2 0x05 (vfield d) (vfield a) (vfield b) 0 0) d a b a (bfHalves fun x y _ => x.add y)
def insnVsubBf (d a b : VReg) : Insn :=
  vectorOp (encA 2 0x06 (vfield d) (vfield a) (vfield b) 0 0) d a b a (bfHalves fun x y _ => x.add y.negate)
def insnVmulBf (d a b : VReg) : Insn :=
  vectorOp (encA 2 0x07 (vfield d) (vfield a) (vfield b) 0 0) d a b a (bfHalves fun x y _ => x.mul y)
def insnVfmaBf (d a b c : VReg) : Insn :=
  vectorOp (encA 2 0x08 (vfield d) (vfield a) (vfield b) (vfield c) 0) d a b c (bfHalves fun x y z => (x.mul y).add z)

def insnVaddI32 (d a b : VReg) : Insn :=
  vectorOp (encA 2 0x09 (vfield d) (vfield a) (vfield b) 0 0) d a b a fun a b _ => a + b
def insnVsubI32 (d a b : VReg) : Insn :=
  vectorOp (encA 2 0x0A (vfield d) (vfield a) (vfield b) 0 0) d a b a fun a b _ => a - b
def insnVmulI32 (d a b : VReg) : Insn :=
  vectorOp (encA 2 0x0B (vfield d) (vfield a) (vfield b) 0 0) d a b a fun a b _ => a * b
def insnVfmaI32 (d a b c : VReg) : Insn :=
  vectorOp (encA 2 0x0C (vfield d) (vfield a) (vfield b) (vfield c) 0) d a b c fun a b c => a * b + c

/-- Predicate of VCMP on one pair of lanes (R572). -/
def comparePred (imm : Nat) (a b : Word32) : Bool :=
  let eq := if natBit imm 2 then a == b else (f32 a).eq (f32 b)
  let lt := if natBit imm 2 then a.slt b else (f32 a).lt (f32 b)
  match bitsAt imm 0 2 with
  | 0 => eq
  | 1 => lt
  | 2 => lt || eq
  | _ => !eq

/-- A lane mask as a number. -/
def maskOf (f : Nat → Bool) : Nat := ((List.range 32).map fun i => if f i then 2 ^ i else 0).foldl (· + ·) 0

/-- imm bits above the predicate and type are reserved (R55, R572). -/
def insnVcmp (d : SReg) (a b : VReg) (imm : Word32) : Insn :=
  { word := encA 2 0x0D d (vfield a) (vfield b) 0 imm, scalars := [d], vectors := [a, b],
    body := fun _ _ t =>
      if bitsAt imm.toNat 3 29 ≠ 0 then .fault .illegalInsn 0 t
      else
        let va := t.vreg a
        let vb := t.vreg b
        .done (t.setS d (BitVec.ofNat 64 (maskOf fun i => comparePred imm.toNat (lane va i) (lane vb i)))) }

def insnVsel (d a b : VReg) (c : SReg) : Insn :=
  { word := encA 2 0x0E (vfield d) (vfield a) (vfield b) c 0, scalars := [c], vectors := [d, a, b],
    body := fun _ _ t =>
      let m := t.sreg c
      let va := t.vreg a
      let vb := t.vreg b
      .done (t.setV d (lanes fun i => if m.getLsbD i then lane va i else lane vb i)) }

/-- The rounding that a two-bit field selects, with the draw of an element (R573). -/
def roundingOf (code draw n : Nat) : Rounding :=
  match code with
  | 0 => .rne
  | 1 => .stochastic draw n
  | _ => .zero

/-- Conversion of one lane (R573). -/
def convertLane (src dst : Format) (r : Rounding) (toInf : Bool) (a : Word32) : Word32 :=
  BitVec.ofNat 32 (dst.convert r toInf (src.decode (a.toNat % 2 ^ src.bits))).bits

/-- VCVT (R573): codes 0x00 to 0x06 and roundings 0 to 2, else QUEUE_PARAM; b is zero unless stochastic. -/
def insnVcvt (d a b : VReg) (imm : Word32) : Insn :=
  { word := encA 2 0x0F (vfield d) (vfield a) (vfield b) 0 imm, scalars := [], vectors := [d, a, b],
    body := fun s _ t =>
      let w := imm.toNat
      let r := bitsAt w 16 2
      if bitsAt w 18 14 ≠ 0 || ((r == 0 || r == 2) && b != 0) then .fault .illegalInsn 0 t
      else if bitsAt w 0 8 > 6 || bitsAt w 8 8 > 6 || r == 3 then .fault .queueParam 0 t
      else
        match Format.ofCode (bitsAt w 0 8), Format.ofCode (bitsAt w 8 8) with
        | some dst, some src =>
          let va := t.vreg a
          let vb := t.vreg b
          .done (t.setV d (lanes fun i =>
            convertLane src dst (roundingOf r ((lane vb i).toNat % 16) s.srBits) s.toInf (lane va i)))
        | _, _ => .fault .queueParam 0 t }

def insnVbcast (d : VReg) (a : SReg) : Insn :=
  { word := encA 2 0x10 (vfield d) a 0 0 0, scalars := [a], vectors := [d],
    body := fun _ _ t => let w := (t.sreg a).setWidth 32; .done (t.setV d (lanes fun _ => w)) }

def insnVshuf (d a b : VReg) : Insn :=
  { word := encA 2 0x11 (vfield d) (vfield a) (vfield b) 0 0, scalars := [], vectors := [d, a, b],
    body := fun _ _ t =>
      let va := t.vreg a
      let vb := t.vreg b
      .done (t.setV d (lanes fun i => lane va (lane vb i).toNat)) }

/-- Folds the 32 lanes, lane 0 first. -/
def foldLanes (x : Vector Word32 32) (f : Word32 → Word32 → Word32) : Word32 := (x.toList.drop 1).foldl f (lane x 0)

/-- Reductions of VRED (R572); none for the value 7. -/
def reduceLanes (sel : Nat) (x : Vector Word32 32) : Option Word32 :=
  match sel with
  | 0 => some (sumTree 32 x.toList)
  | 1 => some (foldLanes x (f32Extreme true))
  | 2 => some (foldLanes x (f32Extreme false))
  | 3 => some (foldLanes x (· + ·))
  | 4 => some (foldLanes x fun a b => if a.slt b then b else a)
  | 5 => some (foldLanes x fun a b => if b.slt a then b else a)
  | 6 => some (foldLanes x (· ||| ·))
  | _ => none

def insnVred (d : SReg) (a : VReg) (imm : Word32) : Insn :=
  { word := encA 2 0x12 d (vfield a) 0 0 imm, scalars := [d], vectors := [a],
    body := fun _ _ t =>
      if bitsAt imm.toNat 3 29 ≠ 0 then .fault .illegalInsn 0 t
      else
        match reduceLanes imm.toNat (t.vreg a) with
        | some w => .done (t.setS d (w.setWidth 64))
        | none => .fault .illegalInsn 0 t }

def insnVld (d : VReg) (a : SReg) (imm : Word32) : Insn :=
  { word := encA 2 0x13 (vfield d) a 0 0 imm, scalars := [a], vectors := [d],
    body := fun _ _ t => loadBody (t.sreg a + sext imm) 128 (fun bs t => t.setV d (bytesLanes bs)) t }

def insnVst (a : SReg) (b : VReg) (imm : Word32) : Insn :=
  { word := encA 2 0x14 0 a (vfield b) 0 imm, scalars := [a], vectors := [b],
    body := fun _ _ t => storeBody (t.sreg a + sext imm) (laneBytes (t.vreg b)) t }

def execVaddF32 (t : Nat) (d a b : VReg) (imm : Word32) (s : State) : Out := issue false t (insnVaddF32 d a b imm) s
def execVsubF32 (t : Nat) (d a b : VReg) (imm : Word32) (s : State) : Out := issue false t (insnVsubF32 d a b imm) s
def execVmulF32 (t : Nat) (d a b : VReg) (imm : Word32) (s : State) : Out := issue false t (insnVmulF32 d a b imm) s
def execVfmaF32 (t : Nat) (d a b c : VReg) (imm : Word32) (s : State) : Out :=
  issue false t (insnVfmaF32 d a b c imm) s
def execVaddBf (t : Nat) (d a b : VReg) (s : State) : Out := issue false t (insnVaddBf d a b) s
def execVsubBf (t : Nat) (d a b : VReg) (s : State) : Out := issue false t (insnVsubBf d a b) s
def execVmulBf (t : Nat) (d a b : VReg) (s : State) : Out := issue false t (insnVmulBf d a b) s
def execVfmaBf (t : Nat) (d a b c : VReg) (s : State) : Out := issue false t (insnVfmaBf d a b c) s
def execVaddI32 (t : Nat) (d a b : VReg) (s : State) : Out := issue false t (insnVaddI32 d a b) s
def execVsubI32 (t : Nat) (d a b : VReg) (s : State) : Out := issue false t (insnVsubI32 d a b) s
def execVmulI32 (t : Nat) (d a b : VReg) (s : State) : Out := issue false t (insnVmulI32 d a b) s
def execVfmaI32 (t : Nat) (d a b c : VReg) (s : State) : Out := issue false t (insnVfmaI32 d a b c) s
def execVcmp (t : Nat) (d : SReg) (a b : VReg) (imm : Word32) (s : State) : Out := issue false t (insnVcmp d a b imm) s
def execVsel (t : Nat) (d a b : VReg) (c : SReg) (s : State) : Out := issue false t (insnVsel d a b c) s
def execVcvt (t : Nat) (d a b : VReg) (imm : Word32) (s : State) : Out := issue false t (insnVcvt d a b imm) s
def execVbcast (t : Nat) (d : VReg) (a : SReg) (s : State) : Out := issue false t (insnVbcast d a) s
def execVshuf (t : Nat) (d a b : VReg) (s : State) : Out := issue false t (insnVshuf d a b) s
def execVred (t : Nat) (d : SReg) (a : VReg) (imm : Word32) (s : State) : Out := issue false t (insnVred d a imm) s
def execVld (t : Nat) (d : VReg) (a : SReg) (imm : Word32) (s : State) : Out := issue false t (insnVld d a imm) s
def execVst (t : Nat) (a : SReg) (b : VReg) (imm : Word32) (s : State) : Out := issue false t (insnVst a b imm) s

end Sys2Proof.Machine
end

