-- ==== Sys2Proof/Machine/Operands.lean ====
section
/-! DEFINITION. The issue rule of the asynchronous instructions: needs, claims and reservations (R57 to R66), and
the operand geometry that fixes them (R68, R140, R146, R160 to R167, R174, R228, R240). -/
namespace Sys2Proof.Machine

/-- What an asynchronous instruction needs at issue (R59): units consumed by ring, units produced by ring, the mask units of a
drain marked, and whether it does engine work (R65, R166, R245). -/
structure Plan where
  consumes : List (RingNo × Nat)
  produces : List (RingNo × Bool × Nat)
  work : Bool
deriving DecidableEq, Repr

/-- Units that a list names for one ring. -/
def unitsFor (l : List (RingNo × Nat)) (r : RingNo) : Nat :=
  ((l.filter fun p => p.1 == r).map (·.2)).foldl (· + ·) 0

/-- Faults of R64 over the rings of a list. -/
def Tile.ringFault (c : Tile) (l : List (RingNo × Nat)) : Option TileFault :=
  if l.any fun p => !(c.ring p.1).valid then some .ringUndefined
  else if l.any fun p => decide ((c.ring p.1).size.toNat < unitsFor l p.1) then some .ringNeedExceedsSize
  else none

/-- Issues an asynchronous instruction under R59: `push` puts its item into the engine's queue. An instruction
without engine work takes its place in the order of its rings and completes at once (R60, R65). -/
def Tile.tryIssue (c : Tile) (p : Plan) (full : Bool) (push : Tile → Nat → Tile) : Issue :=
  match c.ringFault p.consumes with
  | some f => .fault f 0 c
  | none =>
    match c.ringFault (p.produces.map fun q => (q.1, q.2.2)) with
    | some f => .fault f 0 c
    | none =>
      match p.consumes.filter fun q => decide ((c.ring q.1).available < unitsFor p.consumes q.1) with
      | q :: qs => .stall c .input ((q :: qs).map (·.1))
      | [] =>
        match p.produces.filter fun q => decide ((c.ring q.1).room < unitsFor (p.produces.map fun q => (q.1, q.2.2)) q.1) with
        | q :: qs => .stall c .output ((q :: qs).map (·.1))
        | [] =>
          if full then .stall c .queueFull []
          else
            let id := c.core.issueSeq
            let c := p.consumes.foldl (fun c q => c.modRing q.1 fun x => x.claim id q.2) c
            let c := p.produces.foldl (fun c q => c.modRing q.1 fun x => x.reserve id q.2.1 q.2.2) c
            let c := { c with core := { c.core with issueSeq := id + 1,
                                                    engineWork := c.core.engineWork || p.work } }
            .done (if p.work then push c id
                   else p.consumes.foldl (fun c q => c.modRing q.1 fun x => x.finish id) c)

/-- An effect on the tile when the instruction issues, and only then. -/
def onIssue (f : Tile → Tile) : Issue → Issue
  | .done c => .done (f c)
  | r => r

/-- Reads the count unit of a count-prefixed source ring, `skip` units past the first unclaimed one, once it is present (R65);
`also` are other rings on which the issue check fails meanwhile (R112). -/
def Tile.withCountAt (c : Tile) (r : RingNo) (skip : Nat) (also : List RingNo) (consumer : BitVec 3)
    (k : Tile → Option CountUnit → Issue) : Issue :=
  let x := c.ring r
  if !x.valid then .fault .ringUndefined 0 c
  else if !x.countPrefixed then k c none
  else if x.available ≤ skip then .stall c .input (r :: also)
  else
    match c.readUnits consumer r (x.firstFree + skip) 1 with
    | (c, some bs) => k c (some (CountUnit.parse bs))
    | (c, none) => .fault .memoryUncorrectable (x.offset (x.firstFree + skip)) c

/-- Reads the count unit at the head of what is unclaimed (R65). -/
def Tile.withCount (c : Tile) (r : RingNo) (consumer : BitVec 3) (k : Tile → Option CountUnit → Issue) : Issue :=
  c.withCountAt r 0 [] consumer k

/-- Units that an instruction takes from a source: the message, or what it requires (R65, R240). -/
def consumedUnits (cu : Option CountUnit) (required : Nat) : Nat :=
  match cu with
  | some c => 1 + c.units
  | none => required

/-- The message names units, but fewer than the instruction requires (R240); one that names none does no work (R65).
(DEDUCED, log 28) -/
def tooShort (cu : Option CountUnit) (required : Nat) : Bool :=
  match cu with
  | some c => c.units != 0 && decide (c.units < required)
  | none => false

/-- The message names no unit (R65). -/
def emptyMessage (cu : Option CountUnit) : Bool :=
  match cu with
  | some c => c.units == 0
  | none => false

/-! ### Fields of imm (R68, R160, R161, R164) -/

def fieldRows (imm : Word32) : Nat := bitsAt imm.toNat 23 9
def fieldBase (imm : Word32) : Nat := bitsAt imm.toNat 15 8
def fieldMask (imm : Word32) : Nat := bitsAt imm.toNat 9 4
def drainMask (imm : Word32) : Nat := bitsAt imm.toNat 8 4
def fieldFmt (imm : Word32) : Nat := bitsAt imm.toNat 0 8

/-- Arrays that a mask enables, ascending. -/
def maskArrays (mask : Nat) : List Nat := setBits mask 4 0

/-- A mask names an array that the grade lacks (R78, R177). -/
def badMask (mask : Nat) : Bool := decide (2 ^ arrays ≤ mask)

/-- Accumulator rows and columns of a mode (R159). -/
def modeRows (slab : Bool) : Nat := if slab then 64 else 256
def modeCols (slab : Bool) : Nat := if slab then 128 else 32

/-- Element bytes of one 32- or 64-K row, and scale bytes per row (R140, R146). -/
def rowElemBytes (f : Format) (k : Nat) : Nat := k * f.bits / 8
def rowScaleBytes (f : Format) (k : Nat) : Nat := if f.isMx then k / 32 else 0

/-- Rows stored in a message: all of them, or the present 8-row groups, each whole (R240). -/
def storedRows (rows : Nat) (map : Option Word32) : List Nat :=
  match map with
  | none => List.range rows
  | some m => (List.range (8 * ceilDiv rows 8)).filter fun r => m.getLsbD (r / 8)

/-- Units of the passing rows of an MMUL (k = K per pass) or an MSLB (k = 128) (R140, R146, R240). -/
def passingUnits (f : Format) (k rows n : Nat) (map : Option Word32) : Nat :=
  ceilDiv ((storedRows rows map).length * n * (rowElemBytes f k + rowScaleBytes f k)) 64

/-- Units of a block of `rows` drained rows of one array (R167). -/
def blockUnits (f : Format) (rows cols : Nat) : Nat :=
  ceilDiv (rows * (cols * f.bits / 8 + if f.isMx then cols / 32 else 0)) 64

/-- Units of a mask block of one array (R174). -/
def maskUnits (rows cols : Nat) : Nat := ceilDiv (rows * cols) 512

/-- Units of the ring form of a slab, from its directory entry (R228). -/
def slabUnits (f : Format) (blocks : Nat) : Nat :=
  if f.isMx then 1 + blocks / 4 * (f.bits / 2) + ceilDiv (8 * (blocks / 4)) 64 else 1 + blocks * (f.bits / 8)

/-! ### Directory entries (R226) -/

/-- Fields of a slab directory entry. -/
structure DirEntry where
  offset : Nat
  length : Nat
  blocks : Nat
  slots : Nat
  slotsT : Nat
  maxGroup : Nat
  format : Nat
  mxTransposed : Bool
deriving DecidableEq, Repr

def DirEntry.parse (bs : List Byte) : DirEntry :=
  { offset := leAt bs 0 4, length := leAt bs 4 2, blocks := leAt bs 6 2 % 512, slots := leAt bs 8 1,
    slotsT := leAt bs 9 1, maxGroup := leAt bs 10 1, format := leAt bs 11 1, mxTransposed := natBit (leAt bs 12 1) 0 }

def DirEntry.encode (e : DirEntry) : List Byte :=
  fit 0 16 (leBytes 4 e.offset ++ leBytes 2 e.length ++ leBytes 2 e.blocks ++ leBytes 1 e.slots
    ++ leBytes 1 e.slotsT ++ leBytes 1 e.maxGroup ++ leBytes 1 e.format ++ leBytes 1 (b2n e.mxTransposed))

/-- A read of tile memory by the issue logic, once the pages are ready (R70, R117, R229, R575). -/
def Tile.issueRead (c : Tile) (off n : Nat) (accessor consumer : BitVec 3) (k : Tile → List Byte → Issue) : Issue :=
  match c.touch off n with
  | .ok =>
    match c.readData consumer off n with
    | (c, some bs) => k c bs
    | (c, none) => .fault .memoryUncorrectable off c
  | .wait c p => .stall (c.setWait false accessor p) .pageRead []
  | .unresolved => .fault .pageFaultUnresolved off c

/-- A read made once, when the instruction first reaches issue, and held until it issues (R70, R229). -/
def Tile.issueReadOnce (c : Tile) (off n : Nat) (accessor consumer : BitVec 3) (k : Tile → List Byte → Issue) : Issue :=
  match c.core.held with
  | some bs => k c bs
  | none => c.issueRead off n accessor consumer fun c bs => k { c with core := { c.core with held := some bs } } bs

end Sys2Proof.Machine
end

