-- ==== Sys2Proof/Machine/MatrixIssue.lean ====
section
/-! DEFINITION. Issue of the matrix class (R67, R68, R141 to R143, R159 to R166, R174, R182, R224, R228, R229,
R240, R575, R577). -/
namespace Sys2Proof.Machine

/-- Depth of the matrix queue (R57). -/
def mxDepth : Nat := 16

/-- An item with nothing but its identity. -/
def MxItem.blank (id : Nat) (op : MxOp) (word : Word64) (pc : Nat) (imm : Word32) : MxItem :=
  { id := id, op := op, word := word, pc := BitVec.ofNat 13 pc, imm := imm, ringA := 0, startA := 0, unitsA := 0,
    ringB := 0, startB := 0, unitsB := 0, ringD := 0, unitsD := 0, ringM := 0, unitsM := 0, rows := 0,
    prefixed := false, groupMap := none, p := 0, dir := [], maskSource := 0, dest := 0, slot := none,
    sparse := false, out := none, written := [] }

/-- Puts an item at the end of the matrix queue. -/
def Tile.pushMx (c : Tile) (i : MxItem) : Tile := { c with mx := { c.mx with queue := c.mx.queue ++ [i] } }

def Tile.mxFull (c : Tile) : Bool := decide (mxDepth ≤ c.mx.queue.length)

/-- Records the count read by a matrix instruction (R181) and the groups it skips (R241, R247). -/
def Tile.noteCount (c : Tile) (cu : Option CountUnit) (rows : Nat) : Tile :=
  match cu with
  | none => c
  | some u =>
    let skipped := match u.groupMap with
      | none => 0
      | some m => ((List.range (ceilDiv rows 8)).filter fun g => !m.getLsbD g).length
    { c with mx := { c.mx with lastCount := u.rows },
             slabs := { c.slabs with groupsSkipped := c.slabs.groupsSkipped + BitVec.ofNat 32 skipped } }

/-- MLDH and MLDHT (R142, R143): imm[0] is the buffer and imm[15:8] the format; the rest is zero. (DESIGN CHOICE, log 13) -/
def heldLoadBody (op : MxOp) (word : Word64) (r : RingNo) (imm : Word32) : State → Nat → Tile → Issue := fun _ _ c =>
  let w := imm.toNat
  if bitsAt w 1 7 ≠ 0 || bitsAt w 16 16 ≠ 0 then .fault .illegalInsn 0 c
  else
    match Format.ofCode (bitsAt w 8 8) with
    | none => .fault .queueParam 0 c
    | some f =>
      if !f.isOperand then .fault .queueParam 0 c
      else
        c.withCount r 1 fun c cu =>
          if tooShort cu f.heldUnits then .fault .queueParam 0 c
          else
            let units := consumedUnits cu f.heldUnits
            let start := (c.ring r).firstFree
            let pc := c.core.pc
            onIssue (·.noteCount cu 0) <|
            c.tryIssue { consumes := [(r, units)], produces := [], work := !emptyMessage cu } c.mxFull fun c id =>
              let c := if natBit w 0 then { c with mx := { c.mx with heldFmt1 := BitVec.ofNat 8 (bitsAt w 8 8) } }
                       else { c with mx := { c.mx with heldFmt0 := BitVec.ofNat 8 (bitsAt w 8 8) } }
              c.pushMx { MxItem.blank id op word pc imm with
                ringA := r, startA := start, unitsA := units, prefixed := cu.isSome }

def insnMldh (r : RingNo) (imm : Word32) : Insn :=
  { word := encA 3 0x01 r 0 0 0 imm, scalars := [], vectors := [],
    body := heldLoadBody .mldh (encA 3 0x01 r 0 0 0 imm) r imm }
def insnMldht (r : RingNo) (imm : Word32) : Insn :=
  { word := encA 3 0x02 r 0 0 0 imm, scalars := [], vectors := [],
    body := heldLoadBody .mldht (encA 3 0x02 r 0 0 0 imm) r imm }

/-- Rows of an instruction: the field, or the count word (R68, R164, R240). (DEDUCED, log 28) -/
def resolveRows (imm : Word32) (cu : Option CountUnit) : Option Nat :=
  if fieldRows imm ≠ 0 then some (fieldRows imm) else cu.map (·.rows)

/-- An MMUL or MSLB has work for the engine: rows to feed, or with accumulate 0 rows to set to +0 because every group of them
is absent (R65, R155, R241). (DEDUCED, log 28) -/
def feedsOrClears (imm : Word32) (cu : Option CountUnit) (need rows : Nat) : Bool :=
  !emptyMessage cu || (need == 0 && rows != 0 && !imm.getLsbD 8)

/-- MMUL (R68, R140, R141, R146, R159, R240). -/
def mmulBody (word : Word64) (r : RingNo) (imm : Word32) : State → Nat → Tile → Issue := fun _ _ c =>
  let w := imm.toNat
  if natBit w 13 then .fault .illegalInsn 0 c
  else
    match Format.ofCode (fieldFmt imm),
      Format.ofCode (if natBit w 14 then c.mx.heldFmt1 else c.mx.heldFmt0).toNat with
    | some f, some h =>
      if !f.isOperand || !Format.pairs h f || c.mx.slabIssued || badMask (fieldMask imm) then .fault .queueParam 0 c
      else
        c.withCount r 1 fun c cu =>
          match resolveRows imm cu with
          | none => .fault .queueParam 0 c
          | some rows =>
            let map := cu.bind (·.groupMap)
            let need := passingUnits f f.kPass rows (maskArrays (fieldMask imm)).length map
            if 256 < rows || 256 < fieldBase imm + rows || tooShort cu need then .fault .queueParam 0 c
            else
              let units := consumedUnits cu need
              let start := (c.ring r).firstFree
              let pc := c.core.pc
              onIssue (·.noteCount cu rows) <|
              c.tryIssue { consumes := [(r, units)], produces := [], work := feedsOrClears imm cu need rows } c.mxFull
                fun c id =>
                c.pushMx { MxItem.blank id .mmul word pc imm with
                  ringA := r, startA := start, unitsA := units, rows := rows, prefixed := cu.isSome, groupMap := map }
    | _, _ => .fault .queueParam 0 c

def insnMmul (r : RingNo) (imm : Word32) : Insn :=
  { word := encA 3 0x03 r 0 0 0 imm, scalars := [], vectors := [], body := mmulBody (encA 3 0x03 r 0 0 0 imm) r imm }

/-- MSLB (R164, R224, R228, R229, R240, R243, R577): a count-prefixed ring_a or ring_b gives one message each. A message of
count 0 on either takes its units and does no work (R65). (DEDUCED, log 28) -/
def mslbBody (word : Word64) (ra rb : RingNo) (p : SReg) (imm : Word32) : State → Nat → Tile → Issue := fun _ _ c =>
  let w := imm.toNat
  let off := (c.sreg p).toNat
  if natBit w 13 then .fault .illegalInsn 0 c
  else if off % 16 ≠ 0 then .fault .misaligned off c
  else if dataBytes < off + 16 then .fault .addressRange off c
  else
    c.issueReadOnce off 16 1 1 fun c bs =>
      let e := DirEntry.parse bs
      match Format.ofCode (fieldFmt imm), Format.ofCode e.format with
      | some f, some h =>
        if !f.isOperand || !h.isOperand || !Format.pairs h f || !c.mx.slabIssued || badMask (fieldMask imm)
            || (h.isMx && e.mxTransposed != natBit w 14) then .fault .queueParam 0 c
        else
          c.withCount ra 1 fun c ca =>
            let slab := slabUnits h e.blocks
            let unitsA := consumedUnits ca slab
            let skip := if ra == rb then unitsA else 0
            c.withCountAt rb skip (if (c.ring ra).available < unitsA then [ra] else []) 1 fun c cu =>
              match resolveRows imm cu with
              | none => .fault .queueParam 0 c
              | some rows =>
                let map := cu.bind (·.groupMap)
                let need := passingUnits f 128 rows (maskArrays (fieldMask imm)).length map
                if 64 < rows || 64 < fieldBase imm + rows || tooShort cu need || tooShort ca slab then .fault .queueParam 0 c
                else
                  let unitsB := consumedUnits cu need
                  let startA := (c.ring ra).firstFree + b2n ca.isSome
                  let startB := (c.ring rb).firstFree + skip
                  let pc := c.core.pc
                  onIssue (fun c => (c.noteCount ca 0).noteCount cu rows) <|
                  c.tryIssue { consumes := [(ra, unitsA), (rb, unitsB)], produces := [],
                               work := !emptyMessage ca && feedsOrClears imm cu need rows } c.mxFull fun c id =>
                    c.pushMx { MxItem.blank id .mslb word pc imm with
                      ringA := ra, startA := startA, unitsA := slab, ringB := rb, startB := startB, unitsB := unitsB,
                      rows := rows, prefixed := cu.isSome, groupMap := map, p := off, dir := bs }
      | _, _ => .fault .queueParam 0 c

def insnMslb (ra rb : RingNo) (p : SReg) (imm : Word32) : Insn :=
  { word := encA 3 0x04 ra rb 0 p imm, scalars := [p], vectors := [],
    body := mslbBody (encA 3 0x04 ra rb 0 p imm) ra rb p imm }

/-- Units that a MACC consumes (R161). -/
def preloadUnits (f : Format) (slab broadcast : Bool) (rows n : Nat) : Nat :=
  let row := modeCols slab * f.bits / 8
  if broadcast then ceilDiv row 64 else n * ceilDiv (rows * row) 64

/-- MACC (R161): rows 0 takes the count most recently read. -/
def maccBody (word : Word64) (r : RingNo) (imm : Word32) : State → Nat → Tile → Issue := fun _ _ c =>
  let w := imm.toNat
  if natBit w 13 || natBit w 8 then .fault .illegalInsn 0 c
  else
    match Format.ofCode (fieldFmt imm) with
    | none => .fault .queueParam 0 c
    | some f =>
      if !f.isPreload || badMask (fieldMask imm) then .fault .queueParam 0 c
      else
        c.withCount r 1 fun c cu =>
          let rows := if fieldRows imm ≠ 0 then fieldRows imm else (cu.map (·.rows)).getD c.mx.lastCount
          let need := preloadUnits f c.mx.slabIssued (natBit w 14) rows (maskArrays (fieldMask imm)).length
          if modeRows c.mx.slabIssued < fieldBase imm + rows || tooShort cu need then .fault .queueParam 0 c
          else
            let units := consumedUnits cu need
            let start := (c.ring r).firstFree
            let pc := c.core.pc
            onIssue (·.noteCount cu 0) <|
            c.tryIssue { consumes := [(r, units)], produces := [], work := !emptyMessage cu } c.mxFull fun c id =>
              c.pushMx { MxItem.blank id .macc word pc imm with
                ringA := r, startA := start, unitsA := units, rows := rows, prefixed := cu.isSome }

def insnMacc (r : RingNo) (imm : Word32) : Insn :=
  { word := encA 3 0x05 r 0 0 0 imm, scalars := [], vectors := [], body := maccBody (encA 3 0x05 r 0 0 0 imm) r imm }

/-- MCLR (R159, R160). (DEDUCED, log 33) -/
def mclrBody (word : Word64) (imm : Word32) : State → Nat → Tile → Issue := fun _ _ c =>
  let w := imm.toNat
  let setMode := natBit w 1
  let rows := if fieldRows imm ≠ 0 then fieldRows imm else modeRows c.mx.slabIssued
  if bitsAt w 13 2 ≠ 0 || bitsAt w 2 7 ≠ 0 then .fault .illegalInsn 0 c
  else if !setMode && (modeRows c.mx.slabIssued < fieldBase imm + rows || badMask (fieldMask imm)) then
    .fault .queueParam 0 c
  else
    let pc := c.core.pc
    c.tryIssue { consumes := [], produces := [], work := true } c.mxFull fun c id =>
      let c := if setMode then { c with mx := { c.mx with slabIssued := natBit w 0 } } else c
      c.pushMx { MxItem.blank id .mclr word pc imm with rows := rows }

def insnMclr (imm : Word32) : Insn :=
  { word := encA 3 0x06 0 0 0 0 imm, scalars := [], vectors := [], body := mclrBody (encA 3 0x06 0 0 0 0 imm) imm }

/-- MEPI (R170, R575): the record's control word and mask_ring are read as it issues; no rule aligns p.
(DEDUCED, log 31) -/
def mepiBody (word : Word64) (p : SReg) (imm : Word32) : State → Nat → Tile → Issue := fun _ _ c =>
  let w := imm.toNat
  let off := (c.sreg p).toNat
  if bitsAt w 3 29 ≠ 0 then .fault .illegalInsn 0 c
  else if dataBytes < off + 128 then .fault .addressRange off c
  else
    c.issueRead off 4 0 0 fun c ctl => c.issueRead (off + 0x26) 1 0 0 fun c ring =>
      let src : BitVec 2 := BitVec.ofNat 2 (bitsAt (leAt ctl 0 4) 9 2)
      let pc := c.core.pc
      c.tryIssue { consumes := [], produces := [], work := true } c.mxFull fun c id =>
        let c := { c with mx := { c.mx with
          issueMask := NMap.set (0, 0) c.mx.issueMask (bitsAt w 0 3) (src, BitVec.ofNat 8 (leAt ring 0 1)) } }
        c.pushMx { MxItem.blank id .mepi word pc imm with p := off, maskSource := src, dir := ring }

def insnMepi (p : SReg) (imm : Word32) : Insn :=
  { word := encA 3 0x07 0 0 0 p imm, scalars := [p], vectors := [], body := mepiBody (encA 3 0x07 0 0 0 p imm) p imm }

/-- MDRN (R68, R166, R167, R174, R575): rows 0 takes the count most recently read; a count of zero does no work. -/
def mdrnBody (word : Word64) (r : RingNo) (imm : Word32) : State → Nat → Tile → Issue := fun _ _ c =>
  let rows := if fieldRows imm ≠ 0 then fieldRows imm else c.mx.lastCount
  let slab := c.mx.slabIssued
  let n := (maskArrays (drainMask imm)).length
  match Format.ofCode (fieldFmt imm) with
  | none => .fault .queueParam 0 c
  | some f =>
    if !f.isDrain || badMask (drainMask imm) || modeRows slab < fieldBase imm + rows then .fault .queueParam 0 c
    else
      let mask := NMap.get (0, 0) c.mx.issueMask (bitsAt imm.toNat 12 3)
      let unitsD := n * blockUnits f rows (modeCols slab)
      let ringM : RingNo := mask.2.setWidth 5
      let masked := mask.1 != 0 && decide (mask.2.toNat < 32) && (c.ring ringM).valid
      let unitsM := if masked then n * maskUnits rows (modeCols slab) else 0
      let pc := c.core.pc
      c.tryIssue { consumes := [], produces := (r, false, unitsD) :: (if masked then [(ringM, true, unitsM)] else []),
                   work := rows != 0 }
        c.mxFull fun c id =>
        c.pushMx { MxItem.blank id .mdrn word pc imm with
          ringD := r, unitsD := unitsD, ringM := ringM, unitsM := unitsM, rows := rows, maskSource := mask.1 }

def insnMdrn (r : RingNo) (imm : Word32) : Insn :=
  { word := encA 3 0x08 0 0 r 0 imm, scalars := [], vectors := [], body := mdrnBody (encA 3 0x08 0 0 r 0 imm) r imm }

/-- MFLG (R58, R163): d is pending until the flags are written. -/
def mflgBody (word : Word64) (d : SReg) (imm : Word32) : State → Nat → Tile → Issue := fun _ _ c =>
  if bitsAt imm.toNat 4 28 ≠ 0 then .fault .illegalInsn 0 c
  else
    let pc := c.core.pc
    c.tryIssue { consumes := [], produces := [], work := true } c.mxFull fun c id =>
      (c.pendScalar d true).pushMx { MxItem.blank id .mflg word pc imm with dest := d }

def insnMflg (d : SReg) (imm : Word32) : Insn :=
  { word := encA 3 0x09 d 0 0 0 imm, scalars := [d], vectors := [], body := mflgBody (encA 3 0x09 d 0 0 0 imm) d imm }

def execMldh (t : Nat) (r : RingNo) (imm : Word32) (s : State) : Out := issue false t (insnMldh r imm) s
def execMldht (t : Nat) (r : RingNo) (imm : Word32) (s : State) : Out := issue false t (insnMldht r imm) s
def execMmul (t : Nat) (r : RingNo) (imm : Word32) (s : State) : Out := issue false t (insnMmul r imm) s
def execMslb (t : Nat) (ra rb : RingNo) (p : SReg) (imm : Word32) (s : State) : Out :=
  issue false t (insnMslb ra rb p imm) s
def execMacc (t : Nat) (r : RingNo) (imm : Word32) (s : State) : Out := issue false t (insnMacc r imm) s
def execMclr (t : Nat) (imm : Word32) (s : State) : Out := issue false t (insnMclr imm) s
def execMepi (t : Nat) (p : SReg) (imm : Word32) (s : State) : Out := issue false t (insnMepi p imm) s
def execMdrn (t : Nat) (r : RingNo) (imm : Word32) (s : State) : Out := issue false t (insnMdrn r imm) s
def execMflg (t : Nat) (d : SReg) (imm : Word32) (s : State) : Out := issue false t (insnMflg d imm) s

end Sys2Proof.Machine
end

