-- ==== Sys2Proof/Machine/Random.lean ====
section
/-! DEFINITION. Random lanes (spec/09): the keyed function, free mode, the random queue. -/
namespace Sys2Proof.Machine

/-! ### The keyed function (R317 to R322) -/

/-- A Keccak state by planes: five rows y, each of the five lanes x of that row (FIPS 202). -/
abbrev Planes := List (List Word64)

/-- Lane (x, y). -/
def Planes.lane (p : Planes) (x y : Nat) : Word64 := (p.getD y []).getD x 0

/-- Lane-wise exclusive OR of two rows. -/
def xorRow (r q : List Word64) : List Word64 := r.zipWith (· ^^^ ·) q

/-- Theta: every lane takes the parity of the column to its left and, turned by one bit, of the column to its right. -/
def Planes.theta (p : Planes) : Planes :=
  let parity := p.foldl xorRow (List.replicate 5 0)
  p.map fun row => xorRow row (xorRow (parity.rotateLeft 4) ((parity.rotateLeft 1).map (·.rotateLeft 1)))

/-- Rho and pi along one walk: from lane (1, 0), step t turns the lane by (t + 1)(t + 2) ÷ 2 and puts it where pi sends it, to
(y, 2x + 3y), which is the lane that the next step takes. Lane (0, 0) stays. -/
def Planes.rhoPi (p : Planes) : Nat → Nat → Nat → Nat → Planes → Planes
  | 0, _, _, _, out => out
  | n + 1, t, x, y, out =>
    let y' := (2 * x + 3 * y) % 5
    let moved := (p.lane x y).rotateLeft ((t + 1) * (t + 2) / 2 % 64)
    p.rhoPi n (t + 1) y y' (out.modify y' fun row => row.set y moved)

/-- Chi: in each row, every lane takes the AND of the next lane's complement and the lane after it. -/
def Planes.chi (p : Planes) : Planes :=
  p.map fun row => xorRow row (((row.rotateLeft 1).map (~~~ ·)).zipWith (· &&& ·) (row.rotateLeft 2))

/-- The register that makes the round constants: x^8 + x^6 + x^5 + x^4 + 1 over GF(2). -/
def rcNext (r : Nat) : Nat := if r < 128 then 2 * r else (2 * r) ^^^ 0x171

/-- A round constant from the register: bit 2^j − 1 is bit 0 of the register's j-th value; and the register after it. -/
def rcWord (r : Nat) : Word64 × Nat :=
  (List.range 7).foldl (fun p j => (if p.2 % 2 = 1 then p.1 ||| (1 <<< (2 ^ j - 1)) else p.1, rcNext p.2)) (0, r)

/-- Rounds of Keccak-f[1600], the round constants drawn from the register. -/
def Planes.rounds : Nat → Nat → Planes → Planes
  | 0, _, p => p
  | n + 1, r, p =>
    let th := p.theta
    let q := (th.rhoPi 24 0 1 0 th).chi
    let rc := rcWord r
    Planes.rounds n rc.2 (q.modify 0 fun row => row.modify 0 (· ^^^ rc.1))

/-- Keccak-f[1600]. -/
def keccakF (p : Planes) : Planes := p.rounds 24 1

/-- Absorbs one 136-byte block: its 17 words go to the first 17 lanes, row by row. -/
def keccakAbsorb (p : Planes) (block : List Byte) : Planes :=
  keccakF ((List.range 5).map fun y => (List.range 5).map fun x =>
    p.lane x y ^^^ (if 5 * y + x < 17 then BitVec.ofNat 64 (leAt block (8 * (5 * y + x)) 8) else 0))

/-- SHAKE256 padding to whole blocks of 136 bytes. -/
def shakePad (m : List Byte) : List Byte :=
  let z := 135 - m.length % 136
  if z = 0 then m ++ [0x9F] else m ++ [0x1F] ++ List.replicate (z - 1) 0 ++ [0x80]

/-- Squeezes blocks of 136 bytes. -/
def shakeSqueeze : Nat → Planes → List Byte
  | 0, _ => []
  | n + 1, p => (List.range 17).flatMap (fun k => leBytes 8 (p.lane (k % 5) (k / 5)).toNat) ++ shakeSqueeze n (keccakF p)

/-- The first n bytes of SHAKE256 of a message (FIPS 202). -/
def shake256 (m : List Byte) (n : Nat) : List Byte :=
  let p := shakePad m
  (shakeSqueeze (ceilDiv n 136) ((chunks 136 p.length p).foldl keccakAbsorb [])).take n

/-- Key words of a keyed seed: SHAKE256 of the seed and "YZ1-KRG" (R317). (DEDUCED, log 54) -/
def deriveKey (seed : Word64) : List Word32 :=
  let m := leBytes 8 seed.toNat ++ [0x59, 0x5A, 0x31, 0x2D, 0x4B, 0x52, 0x47]
  let k := shake256 m 32
  (List.range 8).map fun i => BitVec.ofNat 32 (leAt k (4 * i) 4)

/-- The quarter round of RFC 8439 on words a, b, c, d of a state. -/
def quarter (x : List Word32) (a b c d : Nat) : List Word32 :=
  let g (l : List Word32) (i : Nat) : Word32 := l.getD i 0
  let x := x.set a (g x a + g x b)
  let x := x.set d ((g x d ^^^ g x a).rotateLeft 16)
  let x := x.set c (g x c + g x d)
  let x := x.set b ((g x b ^^^ g x c).rotateLeft 12)
  let x := x.set a (g x a + g x b)
  let x := x.set d ((g x d ^^^ g x a).rotateLeft 8)
  let x := x.set c (g x c + g x d)
  x.set b ((g x b ^^^ g x c).rotateLeft 7)

/-- A double round: column round, then diagonal round (R319). -/
def doubleRound (x : List Word32) : List Word32 :=
  let x := quarter (quarter (quarter (quarter x 0 4 8 12) 1 5 9 13) 2 6 10 14) 3 7 11 15
  quarter (quarter (quarter (quarter x 0 5 10 15) 1 6 11 12) 2 7 8 13) 3 4 9 14

/-- Initial state of a keyed block (R318). -/
def keyedState (key : List Word32) (counter stream : Nat) (step : Word64) : List Word32 :=
  [0x61707865, 0x3320646E, 0x79622D32, 0x6B206574] ++ fit 0 8 key ++
    [BitVec.ofNat 32 counter, BitVec.ofNat 32 stream, BitVec.ofNat 32 step.toNat, BitVec.ofNat 32 (step.toNat / 2 ^ 32)]

/-- Word w of a stream at step N (R318, R319, R321). -/
def keyedWord (key : List Word32) (stream : Nat) (step : Word64) (w : Nat) : Word32 :=
  let s := keyedState key (w % 2 ^ 64 / 16) stream step
  let x := doubleRound (doubleRound (doubleRound (doubleRound s)))
  x.getD (w % 16) 0 + s.getD (w % 16) 0

/-- The draw of element e: nibble e mod 8 of word e ÷ 8 of the rounding stream (R189, R320). -/
def keyedDraw (key : List Word32) (stream : Nat) (step : Word64) (e : Nat) : Nat :=
  bitsAt (keyedWord key stream step (e / 8)).toNat (4 * (e % 8)) 4

/-! ### Free mode (R326, R327) -/

/-- One word of a xoshiro128** lane, with the lane's next state; s0 is the low word (R326). -/
def xoshiro (l : BitVec 128) : Word32 × BitVec 128 :=
  let s0 : Word32 := l.extractLsb' 0 32
  let s1 : Word32 := l.extractLsb' 32 32
  let s2 : Word32 := l.extractLsb' 64 32
  let s3 : Word32 := l.extractLsb' 96 32
  let r := (s1 * 5).rotateLeft 7 * 9
  let t := s1 <<< 9
  let s2 := s2 ^^^ s0
  let s3 := s3 ^^^ s1
  let s1 := s1 ^^^ s2
  let s0 := s0 ^^^ s3
  (r, (s3.rotateLeft 11) ++ (s2 ^^^ t) ++ s1 ++ s0)

/-- A SplitMix64 output from a state already incremented (R327). -/
def splitMix (x : Word64) : Word64 :=
  let z := (x ^^^ (x >>> 30)) * 0xBF58476D1CE4E5B9
  let z := (z ^^^ (z >>> 27)) * 0x94D049BB133111EB
  z ^^^ (z >>> 31)

/-- The armed state of a lane (R327). (DEDUCED, log 55) -/
def armLane (seed : Word64) (t lane : Nat) : BitVec 128 :=
  let x := seed ^^^ (BitVec.ofNat 64 (t * 64 + lane) <<< 40)
  let x1 := x + 0x9E3779B97F4A7C15
  let x2 := x1 + 0x9E3779B97F4A7C15
  let l : BitVec 128 := splitMix x2 ++ splitMix x1
  if l = 0 then 1 else l

/-- Seeds every lane of a tile (R327). -/
def Tile.arm (c : Tile) (seed : Word64) (t : Nat) : Tile :=
  { c with rn := { c.rn with lanes := (List.range 64).foldl (fun m i => NMap.set 0 m i (armLane seed t i)) [] } }

/-- The lanes of a tile as they stand: until the first draw or arming, as its domain's switch-on at dawn armed them from seed 0
(R327, R331). (DEDUCED, log 55) -/
def Tile.laneStates (c : Tile) (t : Nat) : NMap (BitVec 128) := if c.rn.lanes.isEmpty then (c.arm 0 t).rn.lanes else c.rn.lanes

/-- Takes words from a list of lanes in turn; each word advances its lane once (R326, R328). -/
def drawFree (m : NMap (BitVec 128)) : List Nat → List Word32 × NMap (BitVec 128)
  | [] => ([], m)
  | l :: ls =>
    let r := xoshiro (NMap.get 0 m l)
    let rest := drawFree (NMap.set 0 m l r.2) ls
    (r.1 :: rest.1, rest.2)

/-! ### Issue (R72, R316) -/

/-- Depth of the random queue (R57). -/
def rnDepth : Nat := 8

def Tile.pushRn (c : Tile) (i : RnItem) : Tile := { c with rn := { c.rn with queue := c.rn.queue ++ [i] } }
def Tile.rnFull (c : Tile) : Bool := decide (rnDepth ≤ c.rn.queue.length)

def rngvBody (index : SReg) (d : VReg) (p : SReg) (imm : Word32) : State → Nat → Tile → Issue := fun _ _ c =>
  if bitsAt imm.toNat 1 31 ≠ 0 then .fault .queueParam 0 c
  else
    let e := c.sreg index
    let stream := (c.sreg p).setWidth 32
    c.tryIssue { consumes := [], produces := [], work := true } c.rnFull fun c id =>
      (c.pendVector d true).pushRn
        { id := id, toRing := false, reg := d, ring := 0, stream := stream, index := e, nibble := natBit imm.toNat 0,
          units := 0 }

def insnRngv (index : SReg) (d : VReg) (p : SReg) (imm : Word32) : Insn :=
  { word := encA 7 0x01 0 index (vfield d) p imm, scalars := [index, p], vectors := [d],
    body := rngvBody index d p imm }

def rngrBody (index : SReg) (r : RingNo) (p : SReg) (imm : Word32) : State → Nat → Tile → Issue := fun _ _ c =>
  if imm = 0 then .fault .queueParam 0 c
  else
    let e := c.sreg index
    let stream := (c.sreg p).setWidth 32
    c.tryIssue { consumes := [], produces := [(r, false, imm.toNat)], work := true } c.rnFull fun c id =>
      c.pushRn { id := id, toRing := true, reg := 0, ring := r, stream := stream, index := e, nibble := false,
                 units := imm.toNat }

def insnRngr (index : SReg) (r : RingNo) (p : SReg) (imm : Word32) : Insn :=
  { word := encA 7 0x02 0 index r p imm, scalars := [index, p], vectors := [], body := rngrBody index r p imm }

def execRngv (t : Nat) (index : SReg) (d : VReg) (p : SReg) (imm : Word32) (s : State) : Out :=
  issue false t (insnRngv index d p imm) s
def execRngr (t : Nat) (index : SReg) (r : RingNo) (p : SReg) (imm : Word32) (s : State) : Out :=
  issue false t (insnRngr index r p imm) s

/-! ### The random queue (R316, R322, R327, R328) -/

/-- Words of an RNGV: keyed words w + i, or in nibble mode the draws e + i (R316, R322); in free mode lane i's word. -/
def rngvWords (s : State) (t : Nat) (c : Tile) (i : RnItem) : Vector Word32 32 × Tile :=
  if s.freeMode then
    let r := drawFree (c.laneStates t) (List.range 32)
    (lanes fun k => let w := r.1.getD k 0; if i.nibble then w &&& 15 else w,
     { c with rn := { c.rn with lanes := r.2 } })
  else
    (lanes fun k =>
      if i.nibble then BitVec.ofNat 32 (keyedDraw s.random.key i.stream.toNat s.stepNo ((i.index.toNat + k) % 2 ^ 64))
      else keyedWord s.random.key i.stream.toNat s.stepNo ((i.index.toNat + k) % 2 ^ 64), c)

/-- Words 0 to n − 1 of an RNGR (R322, R328). -/
def rngrWords (s : State) (t : Nat) (c : Tile) (i : RnItem) (n : Nat) : List Word32 × Tile :=
  if s.freeMode then
    let r := drawFree (c.laneStates t) ((List.range n).map (· % 32))
    (r.1, { c with rn := { c.rn with lanes := r.2 } })
  else
    ((List.range n).map fun k => keyedWord s.random.key i.stream.toNat s.stepNo ((i.index.toNat + k) % 2 ^ 64), c)

/-- Writes units at the tail of a ring that reserved them (R60). -/
def Tile.pushReserved (c : Tile) (r : RingNo) (units : List (List Byte)) : Tile :=
  units.foldl (fun c u => (c.pushUnit r u).modRing r fun x => x.fill 1) c

/-- RANDOM_FILL_DONE: the head of the random queue delivers its words, unless its lanes are arming (R327) or gated in the empty
cut (R245), or units that an earlier producer reserved in its ring are not written yet (R66). -/
def randomFill (s : State) (t : Nat) (c : Tile) : Tile :=
  match c.rn.queue with
  | [] => c
  | i :: rest =>
    if c.rn.arming || c.core.run == .emptyCut || (i.toRing && !(c.ring i.ring).isNext i.id false) then c
    else
      let c := { c with rn := { c.rn with queue := rest } }
      if i.toRing then
        let r := rngrWords s t c i (16 * i.units)
        r.2.pushReserved i.ring ((chunks 16 i.units r.1).map fun ws => ws.flatMap fun w => leBytes 4 w.toNat)
      else
        let r := rngvWords s t c i
        (r.2.setV i.reg r.1).pendVector i.reg false

/-- A command that changes one tile, from the whole state. -/
def onTile (t : Nat) (f : State → Tile → Tile) (s : State) : Out :=
  if tileCount ≤ t then .fault .noSuchUnit else .next (s.modTile t (f s))

def execRandomFillDone (t : Nat) (s : State) : Out := engineStep t (fun s t => s.modTile t (randomFill s t)) s

/-- Every tile that can be armed is armed (R333). -/
def State.checkArmed (s : State) : State :=
  if s.tiles.any fun p => p.2.rn.arming && !s.isolated p.1 then s else { s with random := { s.random with freeArmed := s.freeMode } }

end Sys2Proof.Machine
end

