-- ==== Sys2Proof/Machine/Epilogue.lean ====
section
/-! DEFINITION. The epilogue record and the output of a drain (R166 to R175, R207, R209, R313, R314, R328). -/
namespace Sys2Proof.Machine

/-- Fields of an epilogue record (R169). -/
structure EpiRecord where
  activation : Nat
  scaleMode : Nat
  bias : Bool
  dropout : Bool
  amax : Bool
  maskSource : Nat
  rounding : Nat
  outScale : Bool
  accInt : Bool
  scalarScale : Word32
  scaleOffset : Nat
  biasOffset : Nat
  clampLo : Word32
  clampHi : Word32
  keepThreshold : Nat
  keepScale : Word32
  amaxOffset : Nat
  outTensor : Nat
  maskRing : Nat
  rngTensor : Nat
  indexBase : Nat
  rowStride : Nat
  arrayStride : Nat
  indexAdvance : Nat
deriving DecidableEq, Repr

/-- The 32-bit word at an offset of a record. -/
def word32At (bs : List Byte) (o : Nat) : Word32 := BitVec.ofNat 32 (leAt bs o 4)

def EpiRecord.parse (r : List Byte) : EpiRecord :=
  let c := leAt r 0 4
  { activation := bitsAt c 0 4, scaleMode := bitsAt c 4 2, bias := natBit c 6, dropout := natBit c 7,
    amax := natBit c 8, maskSource := bitsAt c 9 2, rounding := bitsAt c 11 2, outScale := natBit c 13,
    accInt := natBit c 14, scalarScale := word32At r 4, scaleOffset := leAt r 8 4, biasOffset := leAt r 0x0C 4,
    clampLo := word32At r 0x10, clampHi := word32At r 0x14, keepThreshold := leAt r 0x18 4,
    keepScale := word32At r 0x1C, amaxOffset := leAt r 0x20 4, outTensor := leAt r 0x24 2, maskRing := leAt r 0x26 1,
    rngTensor := leAt r 0x28 4, indexBase := leAt r 0x30 8, rowStride := leAt r 0x38 4, arrayStride := leAt r 0x3C 4,
    indexAdvance := leAt r 0x40 8 }

/-- Scale-table entry n (R197). -/
def State.scaleEntry (s : State) (n : Nat) : ScaleEntry := NMap.get ScaleEntry.init s.scale.entries n

/-- Reserved fields and bits that make a record invalid, whatever the control word enables (R170). -/
def EpiRecord.reservedBad (r : List Byte) : Bool :=
  let e := EpiRecord.parse r
  decide (7 ≤ e.activation) || e.scaleMode == 3 || e.rounding == 3 || bitsAt (leAt r 0 4) 15 17 != 0
    || leAt r 0x27 1 != 0 || bitsAt e.rngTensor 30 2 != 0 || leAt r 0x2C 4 != 0 || leAt r 0x48 56 != 0

/-- The slot an MEPI installs is valid (R170). -/
def EpiRecord.valid (s : State) (c : Tile) (r : List Byte) : Bool :=
  let e := EpiRecord.parse r
  !EpiRecord.reservedBad r
    && (e.scaleMode != 2 || e.scaleOffset % 128 == 0) && (!e.bias || e.biasOffset % 128 == 0)
    && (!e.amax || e.amaxOffset % 8 == 0)
    && (e.activation != 6 || (!(f32 e.clampLo).isNan && !(f32 e.clampHi).isNan && !(f32 e.clampHi).lt (f32 e.clampLo)))
    && (!(e.outScale || e.amax) || (decide (e.outTensor < 8192) && (s.scaleEntry e.outTensor).inView))
    && (e.maskSource == 0 || (decide (e.maskRing < 32) && (c.ring (BitVec.ofNat 5 e.maskRing)).valid))

/-- Ranges in tile memory that a drain through the record touches (R78 ADDRESS_RANGE). -/
def EpiRecord.rangeOk (e : EpiRecord) (cols : Nat) : Bool :=
  (e.scaleMode != 2 || decide (e.scaleOffset + 4 * cols ≤ dataBytes))
    && (!e.bias || decide (e.biasOffset + 4 * cols ≤ dataBytes)) && (!e.amax || decide (e.amaxOffset + 8 ≤ dataBytes))

/-- What one element leaves the epilogue with: y4, y5, its mask bit and its rounding draw. -/
structure EpiElem where
  y4 : Word32
  y5 : Word32
  mask : Bool
  draw : Nat
deriving DecidableEq, Repr

/-- Stages 1 to 8 of R168 on one accumulator word. -/
def epilogue (e : EpiRecord) (outScale scale bias x dropWord : Word32) (draw : Nat) : EpiElem :=
  let x := if e.accInt then toF32 (Format.int32.decode x.toNat) else x
  let y1 := if e.scaleMode = 1 then f32Mul x e.scalarScale else if e.scaleMode = 2 then f32Mul x scale else x
  let y2 := if e.bias then f32Add y1 bias else y1
  let y3 := activate e.activation e.clampLo e.clampHi y2
  let kept := !e.dropout || decide (dropWord.toNat < e.keepThreshold)
  let y4 := if e.dropout then (if kept then f32Mul y3 e.keepScale else 0) else y3
  let pos := !(f32 y2).isNan && !(f32 y2).isZero && !(f32 y2).neg
  { y4 := y4, y5 := if e.outScale then f32Mul y4 outScale else y4,
    mask := if e.maskSource = 1 then pos else if e.maskSource = 2 then kept else pos && kept, draw := draw }

/-- Rounding of the record for one element (R169, R175, R189). -/
def EpiRecord.round (e : EpiRecord) (n draw : Nat) : Rounding :=
  if e.rounding = 1 then .stochastic draw n else if e.rounding = 2 then .zero else .rne

/-- A converted row of one array: element bits, scale bytes, and whether some element overflowed (R175, R190, R192). -/
structure RowOut where
  bits : List Nat
  scales : List Byte
  overflow : Bool
deriving DecidableEq, Repr

/-- Conversion of 32-column blocks to an MX format. -/
def mxRow (f : Format) (e : EpiRecord) (n : Nat) : List (List EpiElem) → RowOut
  | [] => ⟨[], [], false⟩
  | b :: bs =>
    let vs := b.map fun x => f32 x.y5
    let r := mxBlock f (fun i => e.round n ((b.map (·.draw)).getD i 0)) vs
    let k : Int := (r.2 : Int) - 127
    let exceeds := r.2 != 0xFF && (b.any fun x =>
      match f32 x.y5 with
      | .fin neg m ex => (f.convert (e.round n x.draw) false (.fin neg m (ex - k))).overflow
      | _ => false)
    let rest := mxRow f e n bs
    ⟨r.1 ++ rest.bits, BitVec.ofNat 8 r.2 :: rest.scales, exceeds || rest.overflow⟩

/-- Conversion of one drained row of one array. -/
def convertRow (f : Format) (e : EpiRecord) (n : Nat) (toInf : Bool) (row : List EpiElem) : RowOut :=
  if f.isMx then mxRow f e n (chunks 32 row.length row)
  else
    let rs := row.map fun x => f.convert (e.round n x.draw) toInf (f32 x.y5)
    ⟨rs.map (·.bits), [], rs.any (·.overflow)⟩

/-- Draws of one drain cycle: for each enabled array in turn, 32 dropout words and 32 rounding draws (R172, R328). -/
def drainDraws (s : State) (e : EpiRecord) (base : Nat) (arrs : List Nat) (row q : Nat) (m : NMap (BitVec 128)) :
    List (List Word32 × List Nat) × NMap (BitVec 128) :=
  let n := arrs.length
  if s.freeMode then
    let nd := if e.dropout then 32 * n else 0
    let nr := if e.rounding = 1 then 4 * n else 0
    let r := drawFree m ((List.range (nd + nr)).map fun k => 32 + k % 32)
    ((List.range n).map fun i =>
      ((List.range 32).map fun j => if e.dropout then r.1.getD (32 * i + j) 0 else 0,
       (List.range 32).map fun j =>
         let k := 32 * i + j
         if e.rounding = 1 then bitsAt (r.1.getD (nd + k / 8) 0).toNat (4 * (k % 8)) 4 else 0), r.2)
  else
    (arrs.map fun a =>
      let first := base + a * e.arrayStride + row * e.rowStride + 32 * q
      ((List.range 32).map fun j =>
         if e.dropout then keyedWord s.random.key (4 * e.rngTensor) s.stepNo ((first + j) % 2 ^ 64) else 0,
       (List.range 32).map fun j =>
         if e.rounding = 1 then keyedDraw s.random.key (4 * e.rngTensor + 1) s.stepNo ((first + j) % 2 ^ 64) else 0), m)

/-- Drain-lane words of one drain cycle (R314). -/
def drainWords (e : EpiRecord) (base : Nat) (arrs : List Nat) (row q : Nat) : Nat :=
  (if e.dropout then 32 * arrs.length else 0) +
  (if e.rounding = 1 then (arrs.map fun a =>
    if (base + a * e.arrayStride + row * e.rowStride + 32 * q) % 8 = 0 then 4 else 5).foldl (· + ·) 0 else 0)

/-- Cycles that a drain cycle takes beyond one (R314). -/
def drainExtra (words : Nat) : Nat := max 1 (ceilDiv words 32) - 1

/-- What a drain works on: its accumulator words by array, row and column, and the vectors it reads. -/
structure DrainCtx where
  rec' : EpiRecord
  outScale : Word32
  scaleVec : List Byte
  biasVec : List Byte
  acc : Nat → Nat → Nat → Word32
  base : Nat

/-- The elements of one drained row, by enabled array. -/
def drainRow (s : State) (x : DrainCtx) (arrs : List Nat) (row cols : Nat) (m : NMap (BitVec 128)) :
    List (List EpiElem) × NMap (BitVec 128) :=
  (List.range (cols / 32)).foldl (fun p q =>
    let d := drainDraws s x.rec' x.base arrs row q p.2
    let parts := (arrs.zip d.1).map fun (a, w) =>
      (List.range 32).map fun j =>
        let col := 32 * q + j
        epilogue x.rec' x.outScale (word32At x.scaleVec (4 * col)) (word32At x.biasVec (4 * col)) (x.acc a row col)
          (w.1.getD j 0) (w.2.getD j 0)
    ((p.1.zip parts).map fun (u, v) => u ++ v, d.2)) (arrs.map fun _ => [], m)

/-- Every drained row in order, each as the elements of each enabled array. -/
def drainRows (s : State) (x : DrainCtx) (arrs : List Nat) (cols : Nat) :
    List Nat → NMap (BitVec 128) → List (List (List EpiElem)) × NMap (BitVec 128)
  | [], m => ([], m)
  | r :: rs, m =>
    let a := drainRow s x arrs r cols m
    let b := drainRows s x arrs cols rs a.2
    (a.1 :: b.1, b.2)

/-- The block of one array: elements row by row, MX scales after them, padded (R167). -/
def drainBlock (f : Format) (e : EpiRecord) (n : Nat) (toInf : Bool) (rows : List (List EpiElem)) : List (List Byte) × Bool :=
  let rs := rows.map (convertRow f e n toInf)
  (unitsOf (packBits f.bits (rs.flatMap (·.bits)) ++ rs.flatMap (·.scales)), rs.any (·.overflow))

/-- The largest |y4| that is not NaN, +0 when none qualifies (R173). -/
def drainFound (es : List EpiElem) : Word32 :=
  es.foldl (fun w x => let m := x.y4 &&& 0x7FFF_FFFF; if (f32 m).isNan then w else if w.ult m then m else w) 0

/-- The whole output of an MDRN: units, mask units and found value, with R209 for a privileged tensor. -/
def drainOutput (s : State) (f : Format) (x : DrainCtx) (privileged : Bool) (arrs : List Nat) (rows cols : Nat)
    (m : NMap (BitVec 128)) : DrainOut × NMap (BitVec 128) :=
  let r := drainRows s x arrs cols (List.range rows) m
  let perArray := (List.range arrs.length).map fun i => r.1.map fun row => row.getD i []
  let blocks := perArray.map (drainBlock f x.rec' s.srBits s.toInf)
  let masks := perArray.map fun rws =>
    unitsOf (packBits 1 (rws.flatMap fun es => es.map fun e => b2n e.mask))
  let all := perArray.flatMap fun rws => rws.flatMap id
  let bad := privileged && (blocks.any (·.2) || all.any fun e => (f32 e.y5).isNan || (f32 e.y5).isInf)
  ({ units := blocks.flatMap (·.1), masks := if x.rec'.maskSource = 0 then [] else masks.flatMap id,
     found := if bad then 0x7F80_0000 else drainFound all }, r.2)

/-- Added drain cycles of a whole MDRN (R314). -/
def drainWaitOf (x : DrainCtx) (arrs : List Nat) (rows cols : Nat) : Nat :=
  ((List.range rows).map fun r =>
    ((List.range (cols / 32)).map fun q => drainExtra (drainWords x.rec' x.base arrs r q)).foldl (· + ·) 0).foldl (· + ·) 0

end Sys2Proof.Machine
end

