-- ==== Sys2Proof/Machine/MatrixEngine.lean ====
section
/-! DEFINITION. The stages of the matrix engine (R142 to R165, R170, R173, R176, R230 to R241). -/
namespace Sys2Proof.Machine

/-! ### Products and folds (R152 to R157) -/

/-- One pair of elements of a group with the scales they stand under; scales are 127 outside MX formats. -/
structure Pair where
  passing : Num
  held : Num
  sp : Nat
  sh : Nat
deriving DecidableEq, Repr

/-- The exact sum of a group; an MX group is scaled by 2^(sp + sh − 254) (R152, R153, R156). -/
def groupSum (ps : List Pair) : GroupSum :=
  ps.foldl (fun g p =>
    match product p.passing p.held (p.sp == 0xFF || p.sh == 0xFF) with
    | .fin n m e => g.addProduct (.fin n m (e + (p.sp : Int) + p.sh - 254))
    | x => g.addProduct x) .zero

/-- Adds two exact sums (R237). -/
def GroupSum.plus (a b : GroupSum) : GroupSum :=
  ⟨a.sum.add b.sum, a.nan || b.nan, a.posInf || b.posInf, a.negInf || b.negInf⟩

/-- The integer value of an exact sum with a unit exponent of 0 (R157). -/
def GroupSum.toInt (g : GroupSum) : Int := g.sum.m * 2 ^ g.sum.e.toNat

/-- An accumulator word with the flags raised on the way. -/
structure AccWord where
  word : Word32
  sat : Bool
  nan : Bool
deriving DecidableEq, Repr

/-- One fold: integer when the passing format is INT8 (R154, R157). -/
def AccWord.fold (isInt : Bool) (a : AccWord) (g : GroupSum) : AccWord :=
  let r := if isInt then foldInt a.word g.toInt else foldF32 a.word g
  ⟨r.acc, a.sat || r.sat, a.nan || r.nan⟩

/-- Folds a pass in groups of G (R153). -/
def foldPass (isInt : Bool) (g : Nat) (a : AccWord) (ps : List Pair) : AccWord :=
  (chunks g ps.length ps).foldl (fun a grp => a.fold isInt (groupSum grp)) a

/-- A piece of a present block: its G-group number and its pairs (R237 step 1). -/
structure Piece where
  group : Nat
  pairs : List Pair
deriving DecidableEq, Repr

/-- The sparse path of one accumulator element: pieces in increasing K under an open-group sum (R237). -/
def sparseFold (isInt : Bool) : AccWord → Option (Nat × GroupSum) → List Piece → AccWord
  | a, none, [] => a
  | a, some o, [] => a.fold isInt o.2
  | a, none, p :: ps => sparseFold isInt a (some (p.group, groupSum p.pairs)) ps
  | a, some o, p :: ps =>
    if o.1 = p.group then sparseFold isInt a (some (o.1, o.2.plus (groupSum p.pairs))) ps
    else sparseFold isInt (a.fold isInt o.2) (some (p.group, groupSum p.pairs)) ps

/-! ### Accumulators and flags (R159, R162) -/

def accKey (cols a row col : Nat) : Nat := a * 8192 + row * cols + col

def Mx.accAt (m : Mx) (a row col : Nat) : Word32 := NMap.get 0 m.acc (accKey (modeCols m.slab) a row col)

/-- Flag bit of an accumulator row (R162, R179). (DEDUCED, log 35) -/
def flagBit (slab : Bool) (a row : Nat) : Word32 := 1#32 <<< (8 * a + row / (if slab then 8 else 32))

/-- Writes one accumulator element and raises its flags. -/
def Mx.putAcc (m : Mx) (a row col : Nat) (w : AccWord) : Mx :=
  { m with
    acc := NMap.set 0 m.acc (accKey (modeCols m.slab) a row col) w.word
    sat := if w.sat then m.sat ||| flagBit m.slab a row else m.sat
    nan := if w.nan then m.nan ||| flagBit m.slab a row else m.nan }

/-- Sets rows of the given arrays to +0. -/
def Mx.zeroRows (m : Mx) (arrs : List Nat) (base rows : Nat) : Mx :=
  { m with acc := arrs.foldl (fun acc a => acc.dropRange (accKey (modeCols m.slab) a base 0) (rows * modeCols m.slab)) m.acc }

/-- Writes one row of one array from a function of the column's old word. -/
def Mx.rowWith (m : Mx) (a row cols : Nat) (f : Nat → Word32 → AccWord) : Mx :=
  (List.range cols).foldl (fun m col => m.putAcc a row col (f col (m.accAt a row col))) m

/-! ### Faults of the engine (R176) -/

/-- The instruction faulted, or was issued after one that did: it completes no more (R176). -/
def Mx.halts (m : Mx) (i : MxItem) : Bool :=
  match m.stopped with
  | some id => decide (id ≤ i.id)
  | none => false

/-- A fault of an engine instruction: its address is fault_pc, no later matrix instruction completes, and earlier ones go on
(R79, R176). -/
def State.mxFault (s : State) (t : Nat) (i : MxItem) (f : TileFault) (addr : Nat) : State :=
  (s.modTile t fun c => { c with mx := { c.mx with stopped := some (min i.id (c.mx.stopped.getD i.id)) } }).tileFault
    t f i.pc.toNat i.word addr

/-! ### Dispatch (R144, R148, R149, R170, R233, R235) -/

/-- The held buffer an MMUL uses (R68), or that a held load writes (R142). -/
def MxItem.buffer (i : MxItem) : Bool := if i.op == .mmul then i.imm.getLsbD 14 else i.imm.getLsbD 0

/-- The loader can take a held load: no earlier MMUL on its buffer and no MSLB still feeds (R144, R165). -/
def Mx.loadOk (m : Mx) (i : MxItem) : Bool :=
  match m.feed with
  | some f => !(f.op == .mslb) && !(f.op == .mmul && f.buffer == i.buffer)
  | none => true

/-- Block map and dense map of a slab header (R220). -/
def blockMap (hdr : List Byte) : Nat := leAt hdr 0 32

/-- Block index of K block kb in output group g (R216, R217). -/
def blockIndex (transposed : Bool) (g kb : Nat) : Nat := if transposed then 16 * g + kb else 16 * kb + g

/-- Present K blocks of an output group, increasing K. -/
def presentIn (map : Nat) (transposed : Bool) (g : Nat) : List Nat :=
  (List.range 16).filter fun kb => natBit map (blockIndex transposed g kb)

/-- Blocks of one slot: 4, or 8 for MXFP4 (R231). -/
def slotBlocks (f : Format) : Nat := f.kPass / 8

/-- Slots of a slab in one orientation (R232). -/
def slotCount (f : Format) (map : Nat) (transposed : Bool) : Nat :=
  ((List.range 16).map fun g => ceilDiv (presentIn map transposed g).length (slotBlocks f)).foldl (· + ·) 0

/-- The four blocks of each MX group are all present or all absent (R223). -/
def groupsAgree (map : Nat) (transposed : Bool) : Bool :=
  (List.range 16).all fun g => (List.range 4).all fun q =>
    let n := ((List.range 4).filter fun j => natBit map (blockIndex transposed g (4 * q + j))).length
    n == 0 || n == 4

/-- The header agrees with the directory entry (R226, R235). (DEDUCED, log 40) -/
def headerAgrees (e : DirEntry) (f : Format) (transposed : Bool) (map : Nat) : Bool :=
  popCount 256 map == e.blocks
    && slotCount f map transposed == (if transposed then e.slotsT else e.slots)
    && (((List.range 16).map fun g => (presentIn map false g).length).foldl max 0 == e.maxGroup)
    && (!f.isMx || groupsAgree map transposed)

/-- Sparse loads of a slab (R232) and the choice of path (R233). -/
def sparseLoads (e : DirEntry) (transposed : Bool) : Nat := ceilDiv (if transposed then e.slotsT else e.slots) 4
def choosesSparse (m : Mx) (e : DirEntry) (transposed : Bool) : Bool :=
  !m.forceDense && decide (sparseLoads e transposed ≤ m.threshold.toNat)

/-- Counts a slab by its path (R247). -/
def SlabCounts.count (k : SlabCounts) (e : DirEntry) (transposed sparse : Bool) : SlabCounts :=
  if e.blocks = 0 then { k with empty := k.empty + 1 }
  else if sparse then
    { k with sparse := k.sparse + 1, loads := k.loads + BitVec.ofNat 32 (max (sparseLoads e transposed) 2) }
  else { k with dense := k.dense + 1 }

/-- The record of a slot after an MDRN has copied it: index_base advances by index_advance (R170). -/
def EpiSlot.advance (x : EpiSlot) : EpiSlot :=
  let e := EpiRecord.parse x.record
  { x with record := patch x.record 0x30 (leBytes 8 ((e.indexBase + e.indexAdvance) % 2 ^ 64)) }

/-- Dispatch of an MDRN: it copies its slot (R170, R175, R176). (DEDUCED, log 31) -/
def dispatchDrain (s : State) (t : Nat) (c : Tile) (i : MxItem) (rest : List MxItem) : State :=
  let k := bitsAt i.imm.toNat 12 3
  match NMap.get none c.mx.slots k, Format.ofCode (fieldFmt i.imm) with
  | some sl, some f =>
    let e := EpiRecord.parse sl.record
    if f.isMx && e.outScale then s.mxFault t i .queueParam 0
    else if !e.rangeOk (modeCols c.mx.slab) then s.mxFault t i .addressRange 0
    else
      s.setTile t { c with mx := { c.mx with
        queue := rest, drain := some { i with slot := some sl }, slots := NMap.put c.mx.slots k (some sl.advance) } }
  | _, _ => s.mxFault t i .queueParam 0

/-- Dispatch of an MSLB: the header is read and the path chosen (R233, R235). -/
def dispatchSlab (s : State) (t : Nat) (c : Tile) (i : MxItem) (rest : List MxItem) : State :=
  let e := DirEntry.parse i.dir
  let tr := i.imm.getLsbD 14
  match c.readUnits 1 i.ringA i.startA 1 with
  | (c, none) => (s.setTile t c).mxFault t i .memoryUncorrectable ((c.ring i.ringA).offset i.startA)
  | (c, some hdr) =>
    match Format.ofCode e.format with
    | some f =>
      if !headerAgrees e f tr (blockMap hdr) then (s.setTile t c).mxFault t i .queueParam 0
      else
        let sp := choosesSparse c.mx e tr
        s.setTile t { c with
          mx := { c.mx with queue := rest, feed := some { i with sparse := sp } }
          slabs := c.slabs.count e tr sp }
    | none => (s.setTile t c).mxFault t i .queueParam 0

/-- MATRIX_DISPATCH: the head of the queue goes to its stage once that stage can accept it (R148). (DEDUCED, log 32) -/
def matrixDispatch (s : State) (t : Nat) : State :=
  let c := s.tile t
  if c.mx.stopped.isSome then s
  else
    match c.mx.queue with
    | [] => s
    | i :: rest =>
      let slabFeeds := (c.mx.feed.map (·.op == .mslb)).getD false
      match i.op with
      | .mldh | .mldht =>
        if c.mx.loader.isNone && c.mx.loadOk i then
          s.setTile t { c with mx := { c.mx with queue := rest, loader := some i } }
        else s
      | .mepi =>
        if c.mx.loader.isNone && !slabFeeds then
          s.setTile t { c with mx := { c.mx with queue := rest, loader := some i } }
        else s
      | .mmul | .macc | .mclr =>
        if c.mx.feed.isNone then s.setTile t { c with mx := { c.mx with queue := rest, feed := some i } } else s
      | .mslb => if c.mx.feed.isNone && c.mx.loader.isNone then dispatchSlab s t c i rest else s
      | .mdrn => if c.mx.drain.isNone then dispatchDrain s t c i rest else s
      | .mflg =>
        if c.mx.drain.isNone then s.setTile t { c with mx := { c.mx with queue := rest, drain := some i } } else s

/-! ### Loader (R142, R143, R170) -/

/-- A held buffer of a format, from the encoded bits of each cell and the scale byte of each 32-K block and column. -/
def bufferOf (f : Format) (cell scale : Nat → Nat → Nat) : HeldBuffer :=
  let keys := (List.range f.kPass).flatMap fun r => (List.range 32).map fun c => (r, c)
  { fmt := BitVec.ofNat 8 f.code
    cells := if f.bits = 16 then [] else keys.foldl (fun m p => NMap.set 0 m (p.1 * 32 + p.2) (BitVec.ofNat 8 (cell p.1 p.2))) []
    cells16 := if f.bits = 16 then keys.foldl (fun m p => NMap.set 0 m (p.1 * 32 + p.2) (BitVec.ofNat 16 (cell p.1 p.2))) []
               else []
    scales := if f.isMx then (List.range (f.kPass / 32)).foldl (fun m q => (List.range 32).foldl (fun m col =>
      NMap.set 0 m (q * 32 + col) (BitVec.ofNat 8 (scale q col))) m) [] else [] }

/-- Elements and scales of a held operand put in their cells (R142, R143). -/
def fillBuffer (f : Format) (transposed : Bool) (bs : List Byte) : HeldBuffer :=
  let k := f.kPass
  let es := unpackBits f.bits (32 * k) bs
  let sc := bs.drop (4 * k * f.bits)
  bufferOf f (fun row col => es.getD (if transposed then col * k + row else row * 32 + col) 0)
    fun q col => (sc.getD (if transposed then col * (k / 32) + q else q * 32 + col) 0).toNat

/-- HELD_LOAD_DONE (R142 to R144). (DEDUCED, log 30) -/
def heldLoadDone (s : State) (t : Nat) : State :=
  let c := s.tile t
  match c.mx.loader with
  | some i =>
    if c.mx.halts i || !(i.op == .mldh || i.op == .mldht) then s
    else
      match Format.ofCode (bitsAt i.imm.toNat 8 8) with
      | none => s
      | some f =>
        let start := i.startA + b2n i.prefixed
        match c.readUnits 1 i.ringA start f.heldUnits with
        | (c, none) => (s.setTile t c).mxFault t i .memoryUncorrectable ((c.ring i.ringA).offset start)
        | (c, some bs) =>
          let h := fillBuffer f (i.op == .mldht) bs
          let mx := if i.buffer then { c.mx with held1 := h, loader := none } else { c.mx with held0 := h, loader := none }
          s.setTile t ({ c with mx := mx }.modRing i.ringA fun x => x.finish i.id)
  | none => s

/-- The record that an MEPI installs: the bytes read, with the mask fields that were read as it issued (R575). -/
def MxItem.installed (i : MxItem) (bs : List Byte) : List Byte :=
  let ctl := leAt bs 0 4
  patch (patch bs 0 (leBytes 4 (ctl - fieldAt (bitsAt ctl 9 2) 9 + fieldAt i.maskSource.toNat 9))) 0x26
    i.dir

/-- MEPI_INSTALL (R170, R207, R575). -/
def mepiInstall (s : State) (t : Nat) : State :=
  let c := s.tile t
  match c.mx.loader with
  | some i =>
    if c.mx.halts i || !(i.op == .mepi) then s
    else
      match c.touch i.p 128 with
      | .wait c _ => s.setTile t c
      | .unresolved => s.mxFault t i .pageFaultUnresolved i.p
      | .ok =>
        match c.readData 1 i.p 128 with
        | (c, none) => (s.setTile t c).mxFault t i .memoryUncorrectable i.p
        | (c, some bs) =>
          let r := i.installed bs
          let k := bitsAt i.imm.toNat 0 3
          if EpiRecord.valid s c r then
            let sl : EpiSlot := { record := r, scale := if (EpiRecord.parse r).outScale then
              (s.scaleEntry (EpiRecord.parse r).outTensor).scale else 0x3F80_0000 }
            s.setTile t { c with mx := { c.mx with loader := none, slots := NMap.put c.mx.slots k (some sl) } }
          else
            (s.setTile t { c with mx := { c.mx with slots := NMap.put c.mx.slots k none } }).mxFault t i .queueParam 0
  | none => s

/-! ### Feed (R146, R155, R156, R160, R161, R165, R230 to R241) -/

/-- Two sets of accumulator rows, each `rows` from `base` in the arrays of a mask, share a row. -/
def rowsMeet (mask base rows mask' base' rows' : Nat) : Bool :=
  mask &&& mask' != 0 && decide (base < base' + rows') && decide (base' < base + rows)

/-- First row and number of rows whose flags an MFLG reads, in every array (R162, R163). -/
def flagRows (slab : Bool) (imm : Word32) : Nat × Nat :=
  let n := modeRows slab / 8
  if imm.getLsbD 3 then (0, modeRows slab) else (n * bitsAt imm.toNat 0 3, n)

/-- An earlier drain or flag read that covers rows of the item has not read them yet (R149). -/
def Mx.drainBlocks (m : Mx) (i : MxItem) (mask base rows : Nat) : Bool :=
  match m.drain with
  | none => false
  | some d =>
    decide (d.id < i.id) &&
      (if d.op == .mflg then
        let g := flagRows m.slab d.imm
        rowsMeet mask base rows 0xF g.1 g.2
       else d.out.isNone && rowsMeet mask base rows (drainMask d.imm) (fieldBase d.imm) d.rows)

/-- A load of the buffer that the MMUL uses, issued before it, is not finished (R144). -/
def Mx.loadPending (m : Mx) (i : MxItem) : Bool :=
  match m.loader with
  | some l => (l.op == .mldh || l.op == .mldht) && decide (l.id < i.id) && l.buffer == i.buffer
  | none => false

/-- Bits of a cell of a held buffer. -/
def HeldBuffer.cell (h : HeldBuffer) (f : Format) (k col : Nat) : Nat :=
  if f.bits = 16 then (NMap.get 0 h.cells16 (k * 32 + col)).toNat else (NMap.get 0 h.cells (k * 32 + col)).toNat

/-- A cell of a held buffer as a value, and its block scale. -/
def HeldBuffer.value (h : HeldBuffer) (k col : Nat) : Num :=
  match Format.ofCode h.fmt.toNat with
  | some f => f.decode (h.cell f k col)
  | none => .fin false 0 0
def HeldBuffer.scale (h : HeldBuffer) (k col : Nat) : Nat :=
  match Format.ofCode h.fmt.toNat with
  | some f => if f.isMx then (NMap.get 0 h.scales (k / 32 * 32 + col)).toNat else 127
  | none => 127

/-- One passing row: its values and scales, from the interleaved layout of `count` rows (R146). -/
def passingRow (f : Format) (k count idx : Nat) (bs : List Byte) : List (Num × Nat) :=
  let e := rowElemBytes f k
  let sc := rowScaleBytes f k
  let es := unpackBits f.bits k ((bs.drop (idx * e)).take e)
  let ss := (bs.drop (count * e + idx * sc)).take sc
  (es.zip (List.range k)).map fun p => (f.decode p.1, if f.isMx then (ss.getD (p.2 / 32) 0).toNat else 127)

/-- Applies a row operation to every stored passing row of every enabled array; padding rows fold nothing (R240, R241). -/
def Mx.feedRows (m : Mx) (f : Format) (k : Nat) (arrs stored : List Nat) (base rows cols : Nat) (bs : List Byte)
    (op : List (Num × Nat) → Nat → Word32 → AccWord) : Mx :=
  let count := stored.length * arrs.length
  (stored.zip (List.range stored.length)).foldl (fun m (row, rank) =>
    if rows ≤ row then m
    else
      (arrs.zip (List.range arrs.length)).foldl (fun m (a, i) =>
        m.rowWith a (base + row) cols (op (passingRow f k count (rank * arrs.length + i) bs))) m) m

/-- Ends the instruction in the feed. -/
def Tile.endFeed (c : Tile) (i : MxItem) (busy : Nat) : Tile :=
  { c with mx := { c.mx with feed := none, feedBusy := c.mx.feedBusy + BitVec.ofNat 32 busy } }.modRing i.ringA
    fun x => x.finish i.id

/-- Two of the units that one feed cycle needs lie in the same bank (R97, R147): bytes `lo` to `lo + n − 1` of the data that
starts at running count `start` of the ring. -/
def Ring.bankMeets (x : Ring) (start lo n : Nat) : Bool :=
  let us := (rangeFrom (lo / 64) (ceilDiv (lo % 64 + n) 64)).map fun u => x.offset (start + u)
  us.any fun a => us.any fun b => a != b && a / 64 % 16 == b / 64 % 16

/-- Added feed cycles of an MMUL (R147): rows of which some cycle's element bytes meet in a bank. Scale reads find a free
bank. (DESIGN CHOICE, log 4) -/
def feedBubbles (x : Ring) (start rowBytes cycles rows : Nat) : Nat :=
  let n := rowBytes / cycles
  ((List.range rows).filter fun r => (List.range cycles).any fun k => x.bankMeets start (r * rowBytes + k * n) n).length

/-- MMUL_COMPLETE (R146, R147, R153 to R157, R240, R241). -/
def mmulComplete (s : State) (t : Nat) : State :=
  let c := s.tile t
  match c.mx.feed with
  | some i =>
    let base := fieldBase i.imm
    if c.mx.halts i || !(i.op == .mmul) || c.mx.loadPending i || c.mx.drainBlocks i (fieldMask i.imm) base i.rows then s
    else
      match Format.ofCode (fieldFmt i.imm) with
      | none => s
      | some f =>
        let start := i.startA + b2n i.prefixed
        let arrs := maskArrays (fieldMask i.imm)
        match c.readUnits 1 i.ringA start (passingUnits f f.kPass i.rows arrs.length i.groupMap) with
        | (c, none) => (s.setTile t c).mxFault t i .memoryUncorrectable ((c.ring i.ringA).offset start)
        | (c, some bs) =>
          let stored := storedRows i.rows i.groupMap
          let h := if i.buffer then c.mx.held1 else c.mx.held0
          let m := if i.imm.getLsbD 8 then c.mx else c.mx.zeroRows arrs base i.rows
          let m := m.feedRows f f.kPass arrs stored base i.rows 32 bs fun row col old =>
            foldPass (f == .int8) s.groupSize ⟨old, false, false⟩
              ((row.zip (List.range row.length)).map fun p => ⟨p.1.1, h.value p.2 col, p.1.2, h.scale p.2 col⟩)
          let added := feedBubbles (c.ring i.ringA) start (arrs.length * rowElemBytes f f.kPass) f.rowCycles stored.length
          let m := { m with feedBubble := m.feedBubble + BitVec.ofNat 32 added }
          s.setTile t ({ c with mx := m }.endFeed i (stored.length * f.rowCycles))
  | none => s

/-- The stored elements of a slab in ring form: encoded bits and scale of stored row r and column q (R223, R228). -/
def slabBits (f : Format) (transposed : Bool) (map : Nat) (body : List Byte) (r q : Nat) : Nat × Nat :=
  let b := 16 * (r / 8) + q / 8
  if !natBit map b then (0, 127)
  else if f.isMx then
    -- present MX groups, in ascending index of their first block
    let first (b : Nat) : Nat := if transposed then b - b % 4 else 64 * (b / 64) + b % 16
    let firsts := (List.range 256).filter fun x => natBit map x && first x == x
    let gi := (firsts.filter (· < first b)).length
    let within := if transposed then b % 4 else (b / 16) % 4
    let i := 8 * (r % 8) + q % 8
    let bits := (unpackBits f.bits 256 (body.drop (gi * 32 * f.bits))).getD (64 * within + i) 0
    let sc := body.getD (firsts.length * 32 * f.bits + 8 * gi + (if transposed then r % 8 else q % 8)) 0
    (bits, sc.toNat)
  else
    let rank := popCount b (map % 2 ^ b)
    let e := f.bits / 8
    let i := 8 * (r % 8) + q % 8
    (leAt body (rank * 64 * e + i * e) e, 127)

/-- Element of K index k and output column n in the orientation of the MSLB (R217), as bits and as a value. -/
def slabBitsAt (f : Format) (transposed : Bool) (map : Nat) (body : List Byte) (k n : Nat) : Nat × Nat :=
  if transposed then slabBits f true map body n k else slabBits f false map body k n
def slabAt (f : Format) (transposed : Bool) (map : Nat) (body : List Byte) (k n : Nat) : Num × Nat :=
  let x := slabBitsAt f transposed map body k n
  (f.decode x.1, x.2)

/-- Load j of the dense path as it fills a buffer: column tile j div (128 ÷ P), K pass j mod (128 ÷ P) (R230). -/
def denseLoad (f : Format) (el : Nat → Nat → Nat × Nat) (j : Nat) : HeldBuffer :=
  let passes := 128 / f.kPass
  let k0 := f.kPass * (j % passes)
  let n0 := 32 * (j / passes)
  bufferOf f (fun row col => (el (k0 + row) (n0 + col)).1) fun q col => (el (k0 + 32 * q) (n0 + col)).2

/-- The slots of a slab in their fixed order: output group and blocks (R231). -/
def slabSlots (f : Format) (map : Nat) (transposed : Bool) : List (Nat × List Nat) :=
  (List.range 16).flatMap fun g =>
    let bs := presentIn map transposed g
    (chunks (slotBlocks f) bs.length bs).map fun b => (g, b)

/-- Load j of the sparse path: slots 4j to 4j + 3 in column groups 0 to 3; cells that no block fills hold +0 (R231, R234). -/
def sparseLoad (f : Format) (el : Nat → Nat → Nat × Nat) (slots : List (Nat × List Nat)) (j : Nat) : HeldBuffer :=
  let at' (row col : Nat) : Nat × Nat :=
    match slots[4 * j + col / 8]? with
    | some sl =>
      match sl.2[row / 8]? with
      | some kb => el (8 * kb + row % 8) (8 * sl.1 + col % 8)
      | none => (0, 127)
    | none => (0, 127)
  bufferOf f (fun row col => (at' row col).1) fun q col => (at' (32 * q) col).2

/-- The buffers after a slab: its last two loads; which buffer the alternation ends in is open (R165). (DESIGN CHOICE, log 29) -/
def Mx.leaveHeld (m : Mx) (flip : Bool) (last before : HeldBuffer) : Mx :=
  { m with held0 := if flip then before else last, held1 := if flip then last else before }

/-- Cycles in which an MSLB waits for its held buffers: the first load, and of each load what its feed does not hide
(R165, R179, R236). -/
def slabWait (h : Format) (sparse : Bool) (loads feed : Nat) : Nat :=
  let load := h.heldUnits * 2 + if sparse then 4 else 0
  load + loads * (max feed load - feed)

/-- Pairs of a passing row with one output column over K indices lo to lo + n − 1. -/
def slabPairs (row : List (Num × Nat)) (elem : Nat → Num × Nat) (lo n : Nat) : List Pair :=
  (List.range n).map fun j =>
    let x := row.getD (lo + j) (.fin false 0 0, 127)
    let h := elem (lo + j)
    ⟨x.1, h.1, x.2, h.2⟩

/-- Pieces of the present blocks of an output group (R237). -/
def slabPieces (g : Nat) (row : List (Num × Nat)) (elem : Nat → Num × Nat) (blocks : List Nat) : List Piece :=
  blocks.flatMap fun kb =>
    if g = 4 then [⟨2 * kb, slabPairs row elem (8 * kb) 4⟩, ⟨2 * kb + 1, slabPairs row elem (8 * kb + 4) 4⟩]
    else [⟨8 * kb / g, slabPairs row elem (8 * kb) 8⟩]

/-- MSLB_COMPLETE on either path (R165, R230, R231, R237). -/
def mslbComplete (s : State) (t : Nat) : State :=
  let c := s.tile t
  match c.mx.feed with
  | some i =>
    let base := fieldBase i.imm
    if c.mx.halts i || !(i.op == .mslb) || c.mx.drainBlocks i (fieldMask i.imm) base i.rows then s
    else
      let e := DirEntry.parse i.dir
      match Format.ofCode (fieldFmt i.imm), Format.ofCode e.format with
      | some f, some h =>
        let tr := i.imm.getLsbD 14
        let arrs := maskArrays (fieldMask i.imm)
        let startB := i.startB + b2n i.prefixed
        match c.readUnits 1 i.ringA i.startA i.unitsA with
        | (c, none) => (s.setTile t c).mxFault t i .memoryUncorrectable ((c.ring i.ringA).offset i.startA)
        | (c, some slab) =>
          match c.readUnits 1 i.ringB startB (passingUnits f 128 i.rows arrs.length i.groupMap) with
          | (c, none) => (s.setTile t c).mxFault t i .memoryUncorrectable ((c.ring i.ringB).offset startB)
          | (c, some bs) =>
            let map := blockMap slab
            let body := slab.drop 64
            let stored := storedRows i.rows i.groupMap
            let m := if i.imm.getLsbD 8 then c.mx else c.mx.zeroRows arrs base i.rows
            let m := if e.blocks = 0 then m else
              m.feedRows f 128 arrs stored base i.rows 128 bs fun row col old =>
                let a : AccWord := ⟨old, false, false⟩
                let elem := fun k => slabAt h tr map body k col
                if i.sparse then
                  sparseFold (f == .int8) a none (slabPieces s.groupSize row elem (presentIn map tr (col / 8)))
                else foldPass (f == .int8) s.groupSize a (slabPairs row elem 0 128)
            let done (s : State) (m : Mx) (busy : Nat) : State :=
              s.setTile t (({ c with mx := m }.endFeed i busy).modRing i.ringB fun x => x.finish i.id)
            if e.blocks = 0 then done s m 0
            else
              let loads := if i.sparse then max (sparseLoads e tr) 2 else 128 / h.kPass * 4
              let el := slabBitsAt h tr map body
              let load := if i.sparse then sparseLoad h el (slabSlots h map tr) else denseLoad h el
              let m := m.leaveHeld (s.free.1.getLsbD 0) (load (loads - 1)) (load (loads - 2))
              let feed := stored.length * f.rowCycles
              let m := { m with heldWait := m.heldWait + BitVec.ofNat 32 (slabWait h i.sparse loads feed) }
              done s.free.2 m (loads * feed)
      | _, _ => s
  | none => s

/-- FP32 bit pattern, or integer, that a preload writes (R161). -/
def preloadWord (f : Format) (bits : Nat) : Word32 :=
  match f with
  | .bf16 => BitVec.ofNat 32 (bits * 2 ^ 16)
  | .fp16 => toF32 (Format.fp16.decode bits)
  | _ => BitVec.ofNat 32 bits

/-- MACC_COMPLETE (R161). -/
def maccComplete (s : State) (t : Nat) : State :=
  let c := s.tile t
  match c.mx.feed with
  | some i =>
    let base := fieldBase i.imm
    if c.mx.halts i || !(i.op == .macc) || c.mx.drainBlocks i (fieldMask i.imm) base i.rows then s
    else
      match Format.ofCode (fieldFmt i.imm) with
      | none => s
      | some f =>
        let arrs := maskArrays (fieldMask i.imm)
        let cols := modeCols c.mx.slab
        let bc := i.imm.getLsbD 14
        let start := i.startA + b2n i.prefixed
        match c.readUnits 1 i.ringA start (preloadUnits f c.mx.slab bc i.rows arrs.length) with
        | (c, none) => (s.setTile t c).mxFault t i .memoryUncorrectable ((c.ring i.ringA).offset start)
        | (c, some bs) =>
          let eb := f.bits / 8
          let block := 64 * ceilDiv (i.rows * cols * eb) 64
          let m := (arrs.zip (List.range arrs.length)).foldl (fun m (a, k) =>
            (List.range i.rows).foldl (fun m row =>
              m.rowWith a (base + row) cols fun col _ =>
                ⟨preloadWord f (leAt bs (if bc then col * eb else k * block + (row * cols + col) * eb) eb), false, false⟩) m) c.mx
          s.setTile t ({ c with mx := m }.endFeed i 0)
  | none => s

/-- Clears the flags of every flag group that holds one of the rows (R160). -/
def Mx.clearFlags (m : Mx) (arrs : List Nat) (base rows : Nat) : Mx :=
  let bits := arrs.foldl (fun w a => (List.range rows).foldl (fun w r => w ||| flagBit m.slab a (base + r)) w) (0 : Word32)
  { m with sat := m.sat &&& ~~~bits, nan := m.nan &&& ~~~bits }

/-- MCLR_COMPLETE (R159, R160). -/
def mclrComplete (s : State) (t : Nat) : State :=
  let c := s.tile t
  match c.mx.feed with
  | some i =>
    let setMode := i.imm.getLsbD 1
    let base := if setMode then 0 else fieldBase i.imm
    let rows := if setMode then 256 else i.rows
    let mask := if setMode then 0xF else fieldMask i.imm
    if c.mx.halts i || !(i.op == .mclr) || c.mx.drainBlocks i mask base rows then s
    else
      let m := if setMode then { c.mx with slab := i.imm.getLsbD 0, acc := [], sat := 0, nan := 0 }
        else
          let arrs := maskArrays (fieldMask i.imm)
          (c.mx.zeroRows arrs base i.rows).clearFlags arrs base i.rows
      s.setTile t { c with mx := { m with feed := none } }
  | none => s

/-! ### Drain (R163, R166, R167, R173, R174) -/

/-- An earlier instruction that writes a row of the drain is still in the feed (R149). -/
def Mx.feedBlocks (m : Mx) (i : MxItem) : Bool :=
  match m.feed with
  | some f => decide (f.id < i.id) && (f.op == .mclr && f.imm.getLsbD 1
      || rowsMeet (fieldMask f.imm) (fieldBase f.imm) f.rows (drainMask i.imm) (fieldBase i.imm) i.rows)
  | none => false

/-- Number of units written without a gap from unit `lo` (R167). -/
def contiguous (written : List Nat) (lo : Nat) : Nat → Nat
  | 0 => 0
  | n + 1 => if written.contains lo then 1 + contiguous written (lo + 1) n else 0

/-- Puts a unit of a reserving producer at its place and advances the tail past every contiguous unit (R60, R167). -/
def Tile.placeUnit (c : Tile) (r : RingNo) (idx before after : Nat) (unit : List Byte) : Tile :=
  let c := c.writeAhead r (idx - before) unit
  (c.advanceTail r (after - before)).modRing r fun x => x.fill (after - before)

/-- The place of unit u of a drain comes next among the units reserved in its ring (R66). -/
def Tile.unitTurn (c : Tile) (i : MxItem) (o : DrainOut) (u : Nat) : Bool :=
  if u < o.units.length then (c.ring i.ringD).isNext i.id false
  else decide (u < o.units.length + o.masks.length) && (c.ring i.ringM).isNext i.id true

/-- Writes unit u of a drain whose output is known. -/
def Tile.drainUnit (c : Tile) (i : MxItem) (o : DrainOut) (u : Nat) : Tile :=
  let d := o.units.length
  let w := i.written ++ [u]
  let c := { c with mx := { c.mx with drain := some { i with out := some o, written := w } } }
  if u < d then
    c.placeUnit i.ringD u (contiguous i.written 0 d) (contiguous w 0 d) (o.units.getD u [])
  else
    c.placeUnit i.ringM (u - d) (contiguous i.written d o.masks.length) (contiguous w d o.masks.length)
      (o.masks.getD (u - d) [])

/-- The output of a drain, found when its first unit is written: rows are read and the vectors fetched then. -/
def drainCompute (s : State) (t : Nat) (c : Tile) (i : MxItem) (sl : EpiSlot) (f : Format) : State × Option (Tile × DrainOut) :=
  let e := EpiRecord.parse sl.record
  let cols := modeCols c.mx.slab
  let fetch (c : Tile) (on : Bool) (off : Nat) : Tile × Option (List Byte) :=
    if on then c.readData 1 off (4 * cols) else (c, some [])
  match fetch c (e.scaleMode = 2) e.scaleOffset with
  | (c, none) => ((s.setTile t c).mxFault t i .memoryUncorrectable e.scaleOffset, none)
  | (c, some sv) =>
    match fetch c e.bias e.biasOffset with
    | (c, none) => ((s.setTile t c).mxFault t i .memoryUncorrectable e.biasOffset, none)
    | (c, some bv) =>
      let arrs := maskArrays (drainMask i.imm)
      let x : DrainCtx := { rec' := { e with maskSource := i.maskSource.toNat }, outScale := sl.scale, scaleVec := sv,
                            biasVec := bv, base := e.indexBase,
                            acc := fun a row col => c.mx.accAt a (fieldBase i.imm + row) col }
      let r := drainOutput s f x ((s.scaleEntry e.outTensor).privileged && e.amax) arrs i.rows cols (c.laneStates t)
      let r := if i.unitsM = 0 then ({ r.1 with masks := [] }, r.2) else r
      let w := c.rn.drainWait + BitVec.ofNat 32 (drainWaitOf x arrs i.rows cols)
      (s, some ({ c with rn := { c.rn with lanes := r.2, drainWait := w } }, r.1))

/-- A drain that draws random bits in free mode waits while its lanes are armed (R327). -/
def MxItem.drawsHeld (i : MxItem) (free : Bool) (c : Tile) : Bool :=
  c.rn.arming && free &&
    (match i.slot with
     | some sl => let e := EpiRecord.parse sl.record; e.dropout || e.rounding == 1
     | none => false)

/-- DRAIN_UNIT_WRITE: output unit u, or mask unit u − (output units). -/
def drainUnitWrite (s : State) (t u : Nat) : State :=
  let c := s.tile t
  match c.mx.drain with
  | some i =>
    if c.mx.halts i || !(i.op == .mdrn) || c.mx.feedBlocks i || i.written.contains u || i.drawsHeld s.freeMode c then s
    else
      match i.out with
      | some o => if c.unitTurn i o u then s.setTile t (c.drainUnit i o u) else s
      | none =>
        match i.slot, Format.ofCode (fieldFmt i.imm) with
        | some sl, some f =>
          match drainCompute s t c i sl f with
          | (s', none) => s'
          | (s', some (c, o)) => if c.unitTurn i o u then s'.setTile t (c.drainUnit i o u) else s
        | _, _ => s
  | none => s

/-- MDRN_COMPLETE: every unit written; then the amax word is read and written (R173). (DEDUCED, log 34) -/
def mdrnComplete (s : State) (t : Nat) : State :=
  let c := s.tile t
  match c.mx.drain with
  | some i =>
    match i.op, i.out, i.slot with
    | .mdrn, some o, some sl =>
      if c.mx.halts i || i.written.length < o.units.length + o.masks.length then s
      else
        let e := EpiRecord.parse sl.record
        let c' := { c with mx := { c.mx with drain := none } }
        if !e.amax then s.setTile t c'
        else
          match c'.readData 1 e.amaxOffset 4 with
          | (c', none) => (s.setTile t { c' with mx := { c'.mx with drain := some i } }).mxFault t i .memoryUncorrectable e.amaxOffset
          | (c', some bs) =>
            let old := word32At bs 0
            let new := if (f32 old).lt (f32 o.found) then o.found else old
            s.setTile t (c'.writeData e.amaxOffset (leBytes 4 new.toNat))
    | _, _, _ => s
  | none => s

/-- Value of MFLG (R163). -/
def flagWord (m : Mx) (imm : Word32) : Word64 :=
  let pick (w : Word32) (a : Nat) : Bool :=
    if imm.getLsbD 3 then bitsAt w.toNat (8 * a) 8 != 0 else w.getLsbD (8 * a + bitsAt imm.toNat 0 3)
  BitVec.ofNat 64 (((List.range arrays).map fun a =>
    fieldAt (b2n (pick m.sat a)) a + fieldAt (b2n (pick m.nan a)) (8 + a)).foldl (· + ·) 0)

/-- MFLG_COMPLETE: every earlier matrix instruction has completed (R149, R163). -/
def mflgComplete (s : State) (t : Nat) : State :=
  let c := s.tile t
  match c.mx.drain with
  | some i =>
    let before (x : Option MxItem) : Bool := (x.map fun j => decide (j.id < i.id)).getD false
    if c.mx.halts i || !(i.op == .mflg) || before c.mx.loader || before c.mx.feed then s
    else s.setTile t (({ c with mx := { c.mx with drain := none } }.setS i.dest (flagWord c.mx i.imm)).pendScalar i.dest false)
  | none => s

/-- A command of the matrix engine, whose arrays are clock-gated in the empty cut (R245). (DEDUCED, log 30) -/
def arrayStep (t : Nat) (f : State → Nat → State) (s : State) : Out :=
  engineStep t (fun s t => if (s.tile t).core.run == .emptyCut then s else f s t) s

def execMatrixDispatch (t : Nat) (s : State) : Out := arrayStep t matrixDispatch s
def execHeldLoadDone (t : Nat) (s : State) : Out := arrayStep t heldLoadDone s
def execMmulComplete (t : Nat) (s : State) : Out := arrayStep t mmulComplete s
def execMslbComplete (t : Nat) (s : State) : Out := arrayStep t mslbComplete s
def execMaccComplete (t : Nat) (s : State) : Out := arrayStep t maccComplete s
def execMclrComplete (t : Nat) (s : State) : Out := arrayStep t mclrComplete s
def execMepiInstall (t : Nat) (s : State) : Out := arrayStep t mepiInstall s
def execDrainUnitWrite (t u : Nat) (s : State) : Out := arrayStep t (fun s t => drainUnitWrite s t u) s
def execMdrnComplete (t : Nat) (s : State) : Out := arrayStep t mdrnComplete s
def execMflgComplete (t : Nat) (s : State) : Out := arrayStep t mflgComplete s

end Sys2Proof.Machine
end

