-- ==== Sys2Proof/Machine/MoverIssue.lean ====
section
/-! DEFINITION. Issue of the mover class, and the parameters of a descriptor (R69, R249 to R260). -/
namespace Sys2Proof.Machine

/-- Depth of the mover queue and its descriptor slots (R57, R262). -/
def mvDepth : Nat := 64
def mvSlots : Nat := 4

/-- Fields of a mover descriptor (R249). -/
structure Desc where
  kind : Nat
  flags : Nat
  dstRing : Nat
  sub : Nat
  length : Nat
  src : Nat
  dst : Nat
  param : Nat
  statusOffset : Nat
deriving DecidableEq, Repr

def Desc.parse (b : List Byte) : Desc :=
  { kind := leAt b 0 1, flags := leAt b 1 1, dstRing := leAt b 2 1, sub := leAt b 3 1, length := leAt b 4 4,
    src := leAt b 8 8, dst := leAt b 16 8, param := leAt b 24 4, statusOffset := leAt b 28 4 }

def Desc.srcIsRing (d : Desc) : Bool := natBit d.flags 0
def Desc.dstIsRing (d : Desc) : Bool := natBit d.flags 1
def Desc.srcHost (d : Desc) : Bool := natBit d.flags 2
def Desc.dstHost (d : Desc) : Bool := natBit d.flags 3
def Desc.barrier (d : Desc) : Bool := natBit d.flags 4

/-- Kinds that accept a ring source (R253). -/
def ringSourceKind (k : Nat) : Bool := k == 1 || k == 4 || k == 7 || k == 8

/-- The kind takes its source address from src, or its destination address from dst; encode, decode, gather and scatter
name that side in the parameter block, and only a page bind uses both (R253, R258 to R260). -/
def Desc.usesSrc (d : Desc) : Bool := !(d.kind == 5 || d.kind == 6 || (d.kind == 9 && d.sub != 0))
def Desc.usesDst (d : Desc) : Bool := !(d.kind == 4 || d.kind == 7 || (d.kind == 9 && d.sub != 0))

/-- A field that raises QUEUE_PARAM (R251). -/
def Desc.badField (d : Desc) : Bool :=
  !(decide (1 ≤ d.kind) && decide (d.kind ≤ 9)) || decide (2 ^ 5 ≤ d.flags) || (d.sub != 0 && d.kind != 9)
    || (d.dstRing != 0 && !d.dstIsRing) || decide (32 ≤ d.dstRing)
    || (d.src != 0 && (d.srcIsRing || !d.usesSrc)) || (d.dst != 0 && (d.dstIsRing || !d.usesDst))
    || (d.dstIsRing && (!d.usesDst || d.kind == 9)) || (d.kind == 9 && (d.srcHost || d.dstHost))
    || (d.kind == 9 && (bitsAt d.param 6 2 != 0 || bitsAt d.param 9 23 != 0))
    || (d.srcIsRing && !ringSourceKind d.kind) || (d.srcIsRing && d.length == 0) || (d.length != 0 && !d.srcIsRing)
    || (d.srcIsRing && d.srcHost) || (d.dstIsRing && d.dstHost)

/-- MOVQ (R69, R251); ring_a of one whose source is no ring is ignored. (DESIGN CHOICE, log 120) -/
def movqBody (a : RingNo) (b : VReg) : State → Nat → Tile → Issue := fun _ _ c =>
  let bytes := (laneBytes (c.vreg b)).take 32
  let d := Desc.parse bytes
  if d.badField then .fault .queueParam 0 c
  else if d.statusOffset % 8 ≠ 0 then .fault .misaligned d.statusOffset c
  else if dataBytes < d.statusOffset + 8 then .fault .addressRange d.statusOffset c
  else if d.dstIsRing && !(c.ring (BitVec.ofNat 5 d.dstRing)).valid then .fault .ringUndefined 0 c
  else
    let full (c : Tile) : Bool := decide (mvDepth ≤ c.mv.queue.length)
    let push (i : MvItem) (c : Tile) (id : Nat) : Tile :=
      { c with mv := { c.mv with queue := c.mv.queue ++ [{ i with id := id }] } }
    if !d.srcIsRing then
      c.tryIssue { consumes := [], produces := [], work := true } (full c)
        (push { id := 0, desc := bytes, ring := 0, start := 0, units := 0, message := none })
    else
      c.withCount a 3 fun c cu =>
        match cu with
        | some u =>
          if d.length < u.units then .fault .queueParam 0 c
          else c.tryIssue { consumes := [(a, 1 + u.units)], produces := [], work := true } (full c)
            (push { id := 0, desc := bytes, ring := a, start := (c.ring a).firstFree, units := 1 + u.units,
                    message := some u.units })
        | none => c.tryIssue { consumes := [(a, d.length)], produces := [], work := true } (full c)
            (push { id := 0, desc := bytes, ring := a, start := (c.ring a).firstFree, units := d.length,
                    message := none })

def insnMovq (a : RingNo) (b : VReg) : Insn :=
  { word := encA 4 0x01 a (vfield b) 0 0 0, scalars := [], vectors := [b], body := movqBody a b }

/-- MOVC reads the count of completed descriptors (R69). -/
def insnMovc (d : SReg) : Insn :=
  { word := encA 4 0x02 0 0 d 0 0, scalars := [d], vectors := [],
    body := fun _ _ c => .done (c.setS d (c.mv.done.setWidth 64)) }

def execMovq (t : Nat) (ringA : RingNo) (b : VReg) (s : State) : Out := issue false t (insnMovq ringA b) s
def execMovc (t : Nat) (d : SReg) (s : State) : Out := issue false t (insnMovc d) s

/-! ### Parameter blocks (R254 to R260) -/

/-- The bytes of a block from o on are zero. -/
def zeroFrom (p : List Byte) (o n : Nat) : Bool := ((p.drop o).take n).all (· == 0)

/-- A slab format of R218: every operand format. -/
def slabFormat (c : Nat) : Option Format := (Format.ofCode c).filter Format.isOperand

/-- Source formats of a convert or an MX encode (R257, R258). -/
def wideFormat (c : Nat) : Option Format :=
  (Format.ofCode c).filter fun f => f == .fp32 || f == .bf16 || f == .fp16

/-- Interleave block (R255). -/
structure Interleave where
  rows : Nat
  n : Nat
  fmt : Format
  k : Nat
  stride : Nat
  prefixed : Bool
  grouped : Bool
  scaleAddr : Nat
  scaleStride : Nat
deriving DecidableEq, Repr

def Interleave.parse (p : List Byte) : Option Interleave :=
  match slabFormat (leAt p 5 1) with
  | none => none
  | some f =>
    let x : Interleave :=
      { rows := leAt p 0 4, n := leAt p 4 1, fmt := f, k := leAt p 6 2, stride := leAt p 8 4,
        prefixed := natBit (leAt p 12 1) 0, grouped := natBit (leAt p 12 1) 1, scaleAddr := leAt p 16 8,
        scaleStride := leAt p 24 4 }
    if decide (1 ≤ x.rows) && decide (x.rows ≤ 256) && decide (1 ≤ x.n) && decide (x.n ≤ arrays)
        && (x.k == f.kPass || x.k == 128) && decide (leAt p 12 1 < 4) && (!x.grouped || x.prefixed)
        && zeroFrom p 13 3 && zeroFrom p 28 36 then some x else none

/-- Transpose block (R256): the destination has `rows` rows of `cols` elements. -/
structure Transpose where
  rows : Nat
  cols : Nat
  eb : Nat
  srcStride : Nat
  dstStride : Nat
deriving DecidableEq, Repr

def Transpose.parse (p : List Byte) : Option Transpose :=
  let x : Transpose := ⟨leAt p 0 4, leAt p 4 4, leAt p 8 1, leAt p 12 4, leAt p 16 4⟩
  if decide (1 ≤ x.rows) && decide (x.rows ≤ 4096) && decide (1 ≤ x.cols) && decide (x.cols ≤ 4096)
      && (x.eb == 1 || x.eb == 2 || x.eb == 4) && zeroFrom p 9 3 && zeroFrom p 20 44 then some x else none

/-- Convert block (R257). -/
structure Convert where
  count : Nat
  src : Format
  dst : Format
  rounding : Nat
  scaleMode : Nat
  scalar : Word32
  entry : Nat
  tensor : Nat
  base : Nat
deriving DecidableEq, Repr

def Convert.parse (s : State) (p : List Byte) : Option Convert :=
  match wideFormat (leAt p 4 1), slabFormat (leAt p 5 1) with
  | some sf, some df =>
    let x : Convert :=
      { count := leAt p 0 4, src := sf, dst := df, rounding := leAt p 6 1, scaleMode := leAt p 7 1,
        scalar := BitVec.ofNat 32 (leAt p 8 4), entry := leAt p 12 2, tensor := leAt p 16 4, base := leAt p 24 8 }
    if x.count % 32 == 0 && decide (df.bits < sf.bits) && decide (x.rounding ≤ 2) && decide (x.scaleMode ≤ 2)
        && (x.scaleMode != 2 || (decide (x.entry < 8192) && (s.scaleEntry x.entry).inView)) && zeroFrom p 14 2
        && decide (x.tensor < 2 ^ 30) && zeroFrom p 20 4 && zeroFrom p 32 32 then some x else none
  | _, _ => none

/-- Encode and decode block (R258). -/
structure SlabBlock where
  map : Nat
  dir : Nat
  data : Nat
  first : Nat
  count : Nat
  cursor : Nat
  fmt : Format
  src : Option Format
  transposed : Bool
  denseOut : Bool
  rows : Nat
  cols : Nat
  dirCopy : Nat
deriving DecidableEq, Repr

def SlabBlock.parse (enc : Bool) (p : List Byte) : Option SlabBlock :=
  match slabFormat (leAt p 0x24 1) with
  | none => none
  | some f =>
    let x : SlabBlock :=
      { map := leAt p 0 8, dir := leAt p 8 8, data := leAt p 16 8, first := leAt p 24 4, count := leAt p 28 4,
        cursor := leAt p 32 4, fmt := f, src := wideFormat (leAt p 0x25 1), transposed := natBit (leAt p 0x26 1) 0,
        denseOut := natBit (leAt p 0x26 1) 1, rows := leAt p 0x28 4, cols := leAt p 0x2C 4, dirCopy := leAt p 0x30 4 }
    let srcOk := if enc && f.isMx then x.src.isSome else leAt p 0x25 1 == 0
    if decide (1 ≤ x.count) && decide (x.count ≤ 65535) && srcOk && decide (leAt p 0x26 1 < 4)
        && (!enc || !x.denseOut) && zeroFrom p 0x27 1 && zeroFrom p 0x34 12
        && (enc || (x.dirCopy % 16 == 0 && decide (x.dirCopy < dataBytes))) then some x else none

/-- Gather and scatter block (R259). -/
structure Rows where
  base : Nat
  index : Nat
  count : Nat
  bytes : Nat
  stride : Nat
deriving DecidableEq, Repr

def Rows.parse (p : List Byte) : Option Rows :=
  let x : Rows := ⟨leAt p 0 8, leAt p 8 4, leAt p 12 4, leAt p 16 4, leAt p 24 8⟩
  if x.index % 4 == 0 && decide (x.index < dataBytes) && decide (1 ≤ x.count) && decide (x.count ≤ 65535) && x.bytes % 8 == 0 && decide (8 ≤ x.bytes)
      && decide (x.bytes ≤ 16384) && x.stride % 8 == 0 && zeroFrom p 20 4 && zeroFrom p 32 32 then some x else none

/-- Bytes of a dense slab (R258). -/
def denseSlabBytes (f : Format) : Nat := 16384 * f.bits / 8 + (if f.isMx then 512 else 0)

/-- What a descriptor is to do, once its parameters have been checked. -/
inductive Work where
  | copy
  | interleave (x : Interleave)
  | transpose (x : Transpose)
  | encode (x : SlabBlock)
  | decode (x : SlabBlock)
  | gather (x : Rows)
  | scatter (x : Rows)
  | convert (x : Convert)
  | page
deriving DecidableEq, Repr

/-- Work of a descriptor from its kind and its parameter block; none is BAD_PARAM (R253 to R260). -/
def Desc.work (s : State) (d : Desc) (p : List Byte) : Option Work :=
  match d.kind with
  | 1 =>
    if d.param % 8 == 0 && (d.srcIsRing || d.src % 8 == 0) && (d.dstIsRing || d.dst % 8 == 0)
        && (!(d.srcIsRing || d.dstIsRing) || d.param % 64 == 0) then some .copy else none
  | 2 => (Interleave.parse p).map .interleave
  | 3 => (Transpose.parse p).map .transpose
  | 4 => (SlabBlock.parse true p).map .encode
  | 5 => (SlabBlock.parse false p).map .decode
  | 6 => (Rows.parse p).map .gather
  | 7 => (Rows.parse p).map .scatter
  | 8 => (Convert.parse s p).map .convert
  | _ => if d.sub < 4 then some .page else none

/-- Source bytes that a kind with a ring source reads (R251, R254). -/
def Work.sourceBytes (d : Desc) : Work → Nat
  | .copy => d.param
  | .encode x => x.count * (16384 * (x.src.getD x.fmt).bits / 8)
  | .scatter x => x.count * x.bytes
  | .convert x => x.count * x.src.bits / 8
  | _ => 0

end Sys2Proof.Machine
end

