-- ==== Sys2Proof/Machine/RingSync.lean ====
section
/-! DEFINITION. Ring and sync instructions (R64, R71, R73, R76, R105, R107, R111, R245, R284, R286, R287, R289, R296). -/
namespace Sys2Proof.Machine

/-! ### Rings (R71) -/

/-- RSET: lanes 0 to 3 are the descriptor; refused while the ring is claimed or reserved, or when the descriptor is not
well formed. What waits on the ring goes on waiting (R105, R107, R111). -/
def rsetBody (b : VReg) (r : RingNo) : State → Nat → Tile → Issue := fun _ _ c =>
  let v := c.vreg b
  let new := Ring.unpack (lane v 3 ++ lane v 2 ++ lane v 1 ++ lane v 0)
  let old := c.ring r
  if old.claimed ≠ 0 || old.reserved ≠ 0 then .fault .queueParam 0 c
  else if !new.wellFormed c.pageAttr then .fault .queueParam 0 c
  else
    let keep := { new with waiting := old.waiting, timer := old.timer, raised := old.raised, sources := old.sources,
                           multi := old.multi }
    .done (c.setRing r (if new.head = old.head && new.tail = old.tail then keep else keep.moved))

def insnRset (b : VReg) (r : RingNo) : Insn :=
  { word := encA 6 0x01 0 (vfield b) r 0 0, scalars := [], vectors := [b], body := rsetBody b r }

/-- Field of a ring (R71). -/
def ringField (x : Ring) : Nat → Nat
  | 0 => x.head.toNat
  | 1 => x.tail.toNat
  | 2 => x.occupancy
  | 3 => x.claimed
  | 4 => x.reserved
  | _ => x.size.toNat

/-- RGET (R64, R71). -/
def rgetBody (a : RingNo) (d : SReg) (imm : Word32) : State → Nat → Tile → Issue := fun _ _ c =>
  if !(c.ring a).valid then .fault .ringUndefined 0 c
  else if 6 ≤ imm.toNat then .fault .queueParam 0 c
  else .done (c.setS d (BitVec.ofNat 64 (ringField (c.ring a) imm.toNat)))

def insnRget (a : RingNo) (d : SReg) (imm : Word32) : Insn :=
  { word := encA 6 0x02 a 0 d 0 imm, scalars := [d], vectors := [], body := rgetBody a d imm }

/-- A ring instruction: RING_UNDEFINED, for one that takes or gives `n` units RING_NEED_EXCEEDS_SIZE (R64), then the stall
(R71). RWAIT and RSPACE take and give nothing, and stall whatever their imm. (DEDUCED, log 14) -/
def ringOp (r : RingNo) (n : Nat) (ready : Ring → Bool) (f : Ring → Ring) : State → Nat → Tile → Issue := fun _ _ c =>
  let x := c.ring r
  if !x.valid then .fault .ringUndefined 0 c
  else if x.size.toNat < n then .fault .ringNeedExceedsSize 0 c
  else if !ready x then .stall c .ring [r]
  else .done (c.setRing r (f x))

def insnRpush (r : RingNo) (imm : Word32) : Insn :=
  { word := encA 6 0x03 0 0 r 0 imm, scalars := [], vectors := [],
    body := ringOp r imm.toNat (fun x => decide (imm.toNat ≤ x.room))
      fun x => if imm = 0 then x else { x.moved with tail := x.tail + imm } }
def insnRpop (a : RingNo) (imm : Word32) : Insn :=
  { word := encA 6 0x04 a 0 0 0 imm, scalars := [], vectors := [],
    body := ringOp a imm.toNat (fun x => x.claims.isEmpty && decide (imm.toNat ≤ x.available))
      fun x => if imm = 0 then x else { x.moved with head := x.head + imm } }
def insnRwait (a : RingNo) (imm : Word32) : Insn :=
  { word := encA 6 0x05 a 0 0 0 imm, scalars := [], vectors := [],
    body := ringOp a 0 (fun x => decide (imm.toNat ≤ x.available)) id }
def insnRspace (r : RingNo) (imm : Word32) : Insn :=
  { word := encA 6 0x06 0 0 r 0 imm, scalars := [], vectors := [],
    body := ringOp r 0 (fun x => decide (imm.toNat ≤ x.room)) id }

/-! ### FENCE and EXPECT (R73, R284) -/

/-- The engines that a FENCE selects are done with every earlier instruction. -/
def Tile.fenced (c : Tile) (imm : Word32) : Bool :=
  (!imm.getLsbD 0 || c.matrixIdle) && (!imm.getLsbD 1 || c.moverIdle) && (!imm.getLsbD 2 || c.sendIdle)
    && (!imm.getLsbD 3 || c.randomIdle) && (!imm.getLsbD 4 || c.reachIdle)

def insnFence (imm : Word32) : Insn :=
  { word := encA 8 0x01 0 0 0 0 imm, scalars := [], vectors := [],
    body := fun _ _ c =>
      if bitsAt imm.toNat 5 27 ≠ 0 then .fault .illegalInsn 0 c
      else if c.fenced imm then .done c else .stall c .fence [] }

/-- EXPECT for the superstep whose haul bell is next for the tile on the group. -/
def expectBody (p : SReg) (imm : Word32) : State → Nat → Tile → Issue := fun s t c =>
  let g := bitsAt imm.toNat 0 3
  if bitsAt imm.toNat 3 29 ≠ 0 then .fault .illegalInsn 0 c
  else if !(s.groupsOf t).contains g then .fault .queueParam 0 c
  else
    let m := c.member g
    .done (c.setMember g { m with expect := NMap.set 0 m.expect m.index (c.sreg p).toNat })

def insnExpect (p : SReg) (imm : Word32) : Insn :=
  { word := encA 8 0x03 0 0 0 p imm, scalars := [p], vectors := [], body := expectBody p imm }

/-! ### BELL (R73, R76, R286, R287, R289, R296) -/

/-- Where a member goes after a haul bell: the next cut, or the final bell (R287). -/
def afterHaul (supersteps index : Nat) : BellPhase := if index + 1 = supersteps then .final else .cut

/-- Arrival of a member, with its contribution; when a rolled haul bell was met stands until it fires (R297, R357). -/
def Member.arrive (m : Member) (now : Nat) (mask : BitVec 8) (ls : List Word32) (reg : Option VReg) (empty : Bool) : Member :=
  { m with arrived := true, mask := mask, lanes := ls, reg := reg, emptyCut := empty, arriveTime := now,
           counted := false, met := m.rolled && m.met }

/-- The tile waits at a bell: in the empty cut when it issued no engine work since the previous bell (R245). -/
def Tile.waitAtBell (c : Tile) (empty : Bool) : Tile :=
  { c with core := { c.core with run := if empty then .emptyCut else .atBell, engineWork := false } }

/-- BELL: checks in the order member, roll, position; then the arrival (R286, R287, R289, R296). -/
def bellBody (b : VReg) (imm : Word32) : State → Nat → Tile → Issue := fun s t c =>
  let w := imm.toNat
  let g := bitsAt w 0 3
  let mask : BitVec 8 := BitVec.ofNat 8 (bitsAt w 8 8)
  let final := natBit w 16
  let roll := natBit w 17
  let gs := s.groupsOf t
  let m := c.member g
  let ls := (List.range 8).map (lane (c.vreg b))
  if bitsAt w 3 5 ≠ 0 || bitsAt w 18 14 ≠ 0 then .fault .illegalInsn 0 c
  else if !gs.contains g then .fault .queueParam 0 c
  else if roll && (m.phase != .haul || !s.imageFlag 1 || mask != 0) then .fault .queueParam 0 c
  else if final then
    if gs.all fun h => (c.member h).phase == .final && !(c.member h).arrived then
      .done ((gs.foldl (fun c h => c.setMember h
        ((c.member h).arrive s.now (if h = g then mask else 0) ls (if h = g then some b else none) false)) c).waitAtBell false)
    else .fault .bellCount 0 c
  else if m.phase == .final || m.phase == .done then .fault .bellCount 0 c
  else if roll then
    let m' := { m with rolled := true, index := m.index + 1, phase := afterHaul s.supersteps m.index, met := false }
    .done { c.setMember g m' with
      sd := { (c.setMember g m').sd with sendGroup := BitVec.ofNat 3 g }
      core := { c.core with engineWork := false } }
  else
    let empty := m.phase == .cut && !c.core.engineWork
    .done ((c.setMember g (m.arrive s.now mask ls (some b) empty)).waitAtBell empty)

def insnBell (b : VReg) (imm : Word32) : Insn :=
  { word := encA 8 0x02 0 (vfield b) 0 0 imm, scalars := [], vectors := [b], body := bellBody b imm }

/-- Notes the conditions that a member meets after a command that changed its tile (R357). -/
def noting (t : Nat) : Out → Out
  | .next s => .next (s.noteMet t)
  | r => r

def execRset (t : Nat) (b : VReg) (ringD : RingNo) (s : State) : Out := issue false t (insnRset b ringD) s
def execRget (t : Nat) (ringA : RingNo) (d : SReg) (imm : Word32) (s : State) : Out := issue false t (insnRget ringA d imm) s
def execRpush (t : Nat) (ringD : RingNo) (imm : Word32) (s : State) : Out := issue false t (insnRpush ringD imm) s
def execRpop (t : Nat) (ringA : RingNo) (imm : Word32) (s : State) : Out := issue false t (insnRpop ringA imm) s
def execRwait (t : Nat) (ringA : RingNo) (imm : Word32) (s : State) : Out := issue false t (insnRwait ringA imm) s
def execRspace (t : Nat) (ringD : RingNo) (imm : Word32) (s : State) : Out := issue false t (insnRspace ringD imm) s
def execFence (t : Nat) (imm : Word32) (s : State) : Out := issue false t (insnFence imm) s
def execExpect (t : Nat) (p : SReg) (imm : Word32) (s : State) : Out := issue false t (insnExpect p imm) s
def execBell (t : Nat) (b : VReg) (imm : Word32) (s : State) : Out := noting t (issue false t (insnBell b imm) s)

end Sys2Proof.Machine
end

