-- ==== Sys2Proof/Machine/SlabCodec.lean ====
section
/-! DEFINITION. Encoding and decoding of one slab (R216 to R228, R258). A dense slab is its 16,384 element codes row by row,
and for an MX format its 512 scale bytes. -/
namespace Sys2Proof.Machine

/-- A dense slab. -/
structure Slab where
  codes : Array Nat
  scales : Array Nat
deriving DecidableEq, Repr

/-- Element i of block b in a dense slab, as its index (R216). -/
def elemIndex (b i : Nat) : Nat := (8 * (b / 16) + i / 8) * 128 + 8 * (b % 16) + i % 8

def Slab.block (x : Slab) (b : Nat) : List Nat := (List.range 64).map fun i => x.codes.getD (elemIndex b i) 0

/-- First block of the MX group of block b (R223). -/
def groupFirst (transposed : Bool) (b : Nat) : Nat := if transposed then b - b % 4 else 64 * (b / 64) + b % 16

/-- Blocks of the MX group whose first block is b (R223). -/
def groupBlocks (transposed : Bool) (b : Nat) : List Nat :=
  (List.range 4).map fun j => if transposed then b + j else b + 16 * j

/-- Scale indices of the MX group whose first block is b, in the dense slab form (R258). -/
def groupScales (transposed : Bool) (b : Nat) : List Nat :=
  (List.range 8).map fun j => if transposed then 128 * (b % 16 / 4) + 8 * (b / 16) + j else 128 * (b / 64) + 8 * (b % 16) + j

/-- First blocks of the present MX groups, ascending (R223). -/
def presentGroups (transposed : Bool) (map : Nat) : List Nat :=
  (List.range 256).filter fun b => natBit map b && groupFirst transposed b == b

/-- Sum of 2^b over the blocks that satisfy a test. -/
def mapWhere (p : Nat → Bool) : Nat := ((List.range 256).map fun b => if p b then 2 ^ b else 0).foldl (· + ·) 0

/-- The block map of a dense slab (R218, R223). -/
def Slab.map (x : Slab) (f : Format) (transposed : Bool) : Nat :=
  let live (b : Nat) : Bool := (x.block b).any fun c => !f.isZeroElem c
  if f.isMx then mapWhere fun b => (groupBlocks transposed (groupFirst transposed b)).any live else mapWhere live

/-- Stored form of one element-compressed block, and whether it is dense (R221, R222). -/
def encodeBlock (f : Format) (es : List Nat) : List Byte × Bool :=
  let e := f.bits / 8
  let live := es.map fun c => !f.isZeroElem c
  let n := (live.filter id).length
  if 8 + n * e ≤ 64 * e then
    let em := ((live.zip (List.range 64)).map fun p => if p.1 then 2 ^ p.2 else 0).foldl (· + ·) 0
    (leBytes 8 em ++ (es.filter fun c => !f.isZeroElem c).flatMap (leBytes e), false)
  else (es.flatMap (leBytes e), true)

/-- Elements and scales of the present MX groups (R223). -/
def Slab.groupBytes (x : Slab) (f : Format) (transposed : Bool) (map : Nat) : List Byte × List Byte :=
  let gs := presentGroups transposed map
  (gs.flatMap fun b => packBits f.bits ((groupBlocks transposed b).flatMap x.block),
   gs.flatMap fun b => (groupScales transposed b).map fun i => BitVec.ofNat 8 (x.scales.getD i 0))

/-- Directory entry, with offset 0 for a slab to be placed, and the stored bytes of a slab (R220 to R226). -/
def encodeSlab (f : Format) (transposed : Bool) (x : Slab) : DirEntry × List Byte :=
  let map := x.map f transposed
  if map = 0 then
    ({ offset := 0, length := 0, blocks := 0, slots := 0, slotsT := 0, maxGroup := 0, format := f.code,
       mxTransposed := false }, [])
  else
    let present := (List.range 256).filter (natBit map)
    let enc := present.map fun b => (b, encodeBlock f (x.block b))
    let dense := if f.isMx then map else mapWhere fun b => enc.any fun p => p.1 == b && p.2.2
    let body := if f.isMx then (x.groupBytes f transposed map).1 ++ (x.groupBytes f transposed map).2
      else enc.flatMap fun p => p.2.1
    let blob := leBytes 32 map ++ leBytes 32 dense ++ body
    ({ offset := 0, length := blob.length, blocks := present.length, slots := slotCount f map false,
       slotsT := slotCount f map true,
       maxGroup := ((List.range 16).map fun g => (presentIn map false g).length).foldl max 0, format := f.code,
       mxTransposed := f.isMx && transposed }, blob)

/-- Reads the stored blocks of an element-compressed slab in order: each block's elements, and the bytes used. -/
def decodeBlocks (f : Format) (dense : Nat) : List Nat → List Byte → List (Nat × List Nat) × Nat
  | [], _ => ([], 0)
  | b :: bs, body =>
    let e := f.bits / 8
    let em := leAt body 0 8
    let n := popCount 64 em
    let size := if natBit dense b then 64 * e else 8 + n * e
    let es := (List.range 64).map fun i =>
      if natBit dense b then leAt body (i * e) e
      else if natBit em i then leAt body (8 + popCount i (em % 2 ^ i) * e) e else 0
    let rest := decodeBlocks f dense bs (body.drop size)
    ((b, es) :: rest.1, size + rest.2)

/-- A decoded slab: its header, its present blocks, and the scales of its MX groups (R258). -/
structure Decoded where
  header : List Byte
  map : Nat
  blocks : List (Nat × List Nat)
  groups : List Byte
  scales : List Byte
deriving DecidableEq, Repr

/-- Decodes a stored slab against its directory entry and map bit; none is DECODE_ERROR (R258). -/
def decodeSlab (f : Format) (e : DirEntry) (bit : Bool) (blob : List Byte) : Option Decoded :=
  let header := fit 0 64 blob
  let map := leAt header 0 32
  let dense := leAt header 32 32
  let body := blob.drop 64
  if bit != (e.blocks != 0) then none
  else if e.blocks = 0 then some ⟨List.replicate 64 0, 0, [], [], []⟩
  else if popCount 256 map ≠ e.blocks || dense &&& map ≠ dense then none
  else if f.isMx then
    let gs := presentGroups e.mxTransposed map
    if !groupsAgree map e.mxTransposed || e.length ≠ 64 + gs.length * (32 * f.bits + 8) then none
    else
      let gb := gs.length * 32 * f.bits
      let es := (gs.zip (List.range gs.length)).flatMap fun p =>
        let codes := unpackBits f.bits 256 ((body.drop (p.2 * 32 * f.bits)).take (32 * f.bits))
        ((groupBlocks e.mxTransposed p.1).zip (List.range 4)).map fun q => (q.1, (codes.drop (64 * q.2)).take 64)
      some ⟨header, map, es, body.take gb, (body.drop gb).take (8 * gs.length)⟩
  else
    let r := decodeBlocks f dense ((List.range 256).filter (natBit map)) body
    if 64 + r.2 = e.length then some ⟨header, map, r.1, [], []⟩ else none

/-- The ring form (R228). -/
def Decoded.ringForm (d : Decoded) (f : Format) : List Byte :=
  d.header ++ padUnits (if f.isMx then d.groups ++ padUnits d.scales
    else d.blocks.flatMap fun p => p.2.flatMap (leBytes (f.bits / 8)))

/-- The dense slab form (R258). -/
def Decoded.denseForm (d : Decoded) (f : Format) (transposed : Bool) : List Byte :=
  let codes := d.blocks.foldl (fun (a : Array Nat) p =>
    (p.2.zip (List.range 64)).foldl (fun a q => a.setIfInBounds (elemIndex p.1 q.2) q.1) a) (Array.replicate 16384 0)
  let scales := ((presentGroups transposed d.map).zip (List.range 64)).foldl (fun (a : Array Byte) p =>
    ((groupScales transposed p.1).zip (List.range 8)).foldl (fun a q =>
      a.setIfInBounds q.1 (d.scales.getD (8 * p.2 + q.2) 0)) a) (Array.replicate 512 0)
  packBits f.bits codes.toList ++ (if f.isMx then scales.toList else [])

end Sys2Proof.Machine
end

