-- ==== Sys2Proof/Machine/Mover.lean ====
section
/-! DEFINITION. Execution of mover descriptors (R250 to R270): what each kind writes, start, units and completion. -/
namespace Sys2Proof.Machine

/-! ### Addresses (R250, R252, R268) -/

/-- A span of a device address, or of a host address. -/
structure Span where
  host : Bool
  addr : Nat
  len : Nat
deriving DecidableEq, Repr

/-- Device address of an offset of a tile's data memory (R121). -/
def tileAddr (t off : Nat) : Nat := tileWindowBase + t * 2 ^ 22 + off

/-- The span lies in the areas of R252. -/
def State.spanOk (s : State) (x : Span) : Bool :=
  x.len == 0 || x.host ||
    match s.place x.addr x.len with
    | .main _ | .writeAlias _ | .tile _ _ => true
    | _ => false

/-- The address is one of the tile's own data memory (R252). -/
def State.isOwn (s : State) (t : Nat) (x : Span) : Bool :=
  !x.host && match s.place x.addr 1 with | .tile u _ => u == t | _ => false

/-- Why reading or writing stops: a page that is on its way, or a status code of R268. -/
inductive Halt where
  | page (tile page : Nat)
  | code (c : BitVec 8)
deriving DecidableEq, Repr

/-- Reads a span for the mover (R128, R252, R267, R454). -/
def State.mvRead (s : State) (h : HostReply) (x : Span) : State × Except Halt (List Byte) :=
  if x.len = 0 then (s, .ok [])
  else if x.host then
    match s.hostAnswer h with
    | .ok => (s, .ok (NMap.getRun 0 s.host.mem x.addr x.len))
    | .fail e => (s.hostFailed e, .error (.code 6))
  else
    let fromMain (a : Nat) : State × Except Halt (List Byte) :=
      match s.mainRead 0 a x.len with
      | (s, .ok bs) => (s, .ok bs)
      | (s, .outside) => (s, .error (.code 1))
      | (s, .isolated) => (s, .error (.code 5))
      | (s, .uncorrectable _) => (s, .error (.code 3))
    match s.place x.addr x.len with
    | .main a => fromMain a
    | .writeAlias a => fromMain a
    | .tile u off =>
      if s.isolated u then (s, .error (.code 5))
      else if !(s.tile u).mem.ready then (s, .error (.page u (off / 4096)))
      else
        match (s.tile u).touch off x.len with
        | .wait _ p => (s, .error (.page u p))
        | .unresolved => (s, .error (.code 4))
        | .ok =>
          match (s.tile u).readData 3 off x.len with
          | (c, some bs) => (s.setTile u c, .ok bs)
          | (c, none) => (s.setTile u c, .error (.code 3))
    | _ => (s, .error (.code 1))

/-- Reads spans in order, up to the first that stops. -/
def State.mvReads (h : HostReply) : List Span → State → State × List (List Byte) × Option Halt
  | [], s => (s, [], none)
  | x :: xs, s =>
    match s.mvRead h x with
    | (s, .ok bs) => let r := State.mvReads h xs s; (r.1, bs :: r.2.1, r.2.2)
    | (s, .error e) => (s, [], some e)

/-- Starts the fill of a page that stopped a read or write (R117). -/
def State.awaitPage (s : State) (u p : Nat) : State :=
  match (s.tile u).touchPage p with
  | .wait c _ => s.setTile u c
  | _ => s

/-- A span in pieces of 64 bytes. -/
def Span.pieces (x : Span) : List Span :=
  (List.range (ceilDiv x.len 64)).map fun i => ⟨x.host, x.addr + 64 * i, min 64 (x.len - 64 * i)⟩

/-- The first `n` source bytes of a descriptor as pieces: units of its ring after any count unit, or its address. -/
def sourcePieces (t : Nat) (c : Tile) (d : Desc) (i : MvItem) (n : Nat) : List Span :=
  if d.srcIsRing then
    (List.range (ceilDiv n 64)).map fun k =>
      ⟨false, tileAddr t ((c.ring i.ring).offset (i.start + b2n i.message.isSome + k)), min 64 (n - 64 * k)⟩
  else (Span.mk d.srcHost d.src n).pieces

/-! ### What each kind writes -/

/-- What a planned descriptor does, the state after its reads, or the page it waits for. -/
abbrev Planned := State × List MvAct × Option Halt

/-- The last act of a plan whose source stopped. -/
def haltActs : Option Halt → List MvAct
  | some (.code c) => [.stop c]
  | _ => []

/-- A stream of bytes to the destination in 64-byte units, whole units only when its source stopped (R268, R269). -/
def streamActs (d : Desc) (before : Nat) (bs : List Byte) (stopped : Bool) : List MvAct :=
  let us := if d.dstIsRing then (if stopped then chunks 64 (bs.length / 64) bs else unitsOf bs)
    else chunks 64 bs.length bs
  (us.zip (List.range us.length)).map fun p =>
    let k := before + p.2
    .put (if d.dstIsRing then .ring else if d.dstHost then .host (d.dst + 64 * k) else .dev (d.dst + 64 * k)) p.1 (k + 1)

/-- A piece at an address of the destination side. -/
def sideDest (host : Bool) (a : Nat) : MvDest := if host then .host a else .dev a

/-- Rows of a block at a stride, each in 64-byte pieces, with the units written in all (R268). -/
def rowActs (host : Bool) (rowBytes : Nat) : Nat → List (Option Nat × List Byte) → List MvAct
  | _, [] => []
  | done, (none, _) :: rs => rowActs host rowBytes done rs
  | done, (some a, bs) :: rs =>
    let ps := chunks 64 bs.length bs
    ((ps.zip (List.range ps.length)).map fun p =>
      MvAct.put (sideDest host (a + 64 * p.2)) p.1 (ceilDiv (done + min rowBytes (64 * (p.2 + 1))) 64))
      ++ rowActs host rowBytes (done + rowBytes) rs

/-- Copy (R253). -/
def planCopy (s : State) (t : Nat) (h : HostReply) (d : Desc) (i : MvItem) : Planned :=
  let r := State.mvReads h (sourcePieces t (s.tile t) d i d.param) s
  (r.1, streamActs d 0 r.2.1.flatten r.2.2.isSome ++ haltActs r.2.2, r.2.2)

/-- Interleave (R255): rows are read in the order they are written, and all of them before a group map. (DEDUCED, log 45) -/
def planInterleave (s : State) (h : HostReply) (d : Desc) (x : Interleave) : Planned :=
  let e := rowElemBytes x.fmt x.k
  let sc := rowScaleBytes x.fmt x.k
  let order := (List.range x.rows).flatMap fun r => (List.range x.n).map fun a => (r, a)
  let elems := order.map fun p => Span.mk d.srcHost (d.src + (p.2 * x.rows + p.1) * x.stride) e
  let scales := if x.fmt.isMx then order.map fun p => Span.mk d.srcHost (x.scaleAddr + (p.2 * x.rows + p.1) * x.scaleStride) sc
    else []
  let r := State.mvReads h (elems ++ scales) s
  let es := r.2.1.take elems.length
  let ss := r.2.1.drop elems.length
  let live (bs : List Byte) : Bool := (unpackBits x.fmt.bits x.k bs).any fun c => !x.fmt.isZeroElem c
  let present := (List.range 32).filter fun g =>
    ((order.zip es).any fun p => p.1.1 / 8 == g && live p.2)
  let map : Option Word32 := if x.grouped then some (BitVec.ofNat 32 ((present.map (2 ^ ·)).foldl (· + ·) 0)) else none
  let stored := storedRows x.rows map
  let pick (l : List (List Byte)) (z : Nat) : List Byte :=
    stored.flatMap fun row => (List.range x.n).flatMap fun a =>
      if row < x.rows then l.getD (row * x.n + a) (List.replicate z 0) else List.replicate z 0
  let units := passingUnits x.fmt x.k x.rows x.n map
  let count := if x.prefixed then CountUnit.encode ⟨x.rows, units, map⟩ else []
  match r.2.2 with
  | none => (r.1, streamActs d 0 (count ++ padUnits (pick es e ++ pick ss sc)) false, none)
  | some k => (r.1, (if x.grouped then [] else streamActs d 0 (count ++ es.flatten ++ ss.flatten) true) ++ haltActs (some k), some k)

/-- Transpose (R253, R256). -/
def planTranspose (s : State) (h : HostReply) (d : Desc) (x : Transpose) : Planned :=
  let r := State.mvReads h ((List.range x.cols).map fun j => ⟨d.srcHost, d.src + j * x.srcStride, x.rows * x.eb⟩) s
  let row (i : Nat) : List Byte := r.2.1.flatMap fun bs => (bs.drop (i * x.eb)).take x.eb
  match r.2.2 with
  | some k => (r.1, haltActs (some k), some k)
  | none =>
    (r.1, (if d.dstIsRing then streamActs d 0 ((List.range x.rows).flatMap row) false
      else rowActs d.dstHost (x.cols * x.eb) 0 ((List.range x.rows).map fun i => (some (d.dst + i * x.dstStride), row i))), none)

/-- One converted value: RNE(x × scale) in FP32 (R257). -/
def scaledValue (f : Format) (scale : Word32) (bits : Nat) : Num :=
  f32 (f32Mul (match f with | .fp32 => BitVec.ofNat 32 bits | .bf16 => BitVec.ofNat 32 (bits * 2 ^ 16) | _ => toF32 (f.decode bits)) scale)

/-- Convert (R257, R315): keyed draws always. -/
def planConvert (s : State) (t : Nat) (h : HostReply) (d : Desc) (i : MvItem) (x : Convert) (scale : Word32) : Planned :=
  let r := State.mvReads h (sourcePieces t (s.tile t) d i (x.count * x.src.bits / 8)) s
  let bs := r.2.1.flatten
  let n := 8 * bs.length / x.src.bits
  let n := if x.dst.isMx then n - n % 32 else n
  let vs := (unpackBits x.src.bits n bs).map (scaledValue x.src scale)
  let round (j : Nat) : Rounding :=
    if x.rounding = 1 then
      .stochastic (keyedDraw s.random.key (4 * x.tensor + 1) s.stepNo (x.base + j)) s.srBits
    else if x.rounding = 2 then .zero else .rne
  let out :=
    if x.dst.isMx then
      let blocks := chunks 32 vs.length vs
      let bq := (blocks.zip (List.range blocks.length)).map fun p => mxBlock x.dst (fun k => round (32 * p.2 + k)) p.1
      let es := packBits x.dst.bits (bq.flatMap (·.1))
      if r.2.2.isSome then es else padUnits (es ++ bq.map fun b => BitVec.ofNat 8 b.2)
    else packBits x.dst.bits ((vs.zip (List.range vs.length)).map fun p => (x.dst.convert (round p.2) s.toInf p.1).bits)
  (r.1, streamActs d 0 out r.2.2.isSome ++ haltActs r.2.2, r.2.2)

/-- The dense slab that an encode finds in its source: elements beyond the tensor are zero, and an MX source is
quantised along its K blocks (R219, R258). (DEDUCED, log 41) -/
def sourceSlab (x : SlabBlock) (number : Nat) (bs : List Byte) : Slab :=
  let perRow := ceilDiv x.cols 128
  let r0 := 128 * (number / perRow)
  let c0 := 128 * (number % perRow)
  let f := x.src.getD x.fmt
  let raw := (((unpackBits f.bits 16384 bs).zip (List.range 16384)).map fun p =>
    if x.rows ≤ r0 + p.2 / 128 || x.cols ≤ c0 + p.2 % 128 then 0 else p.1).toArray
  match x.src with
  | none => ⟨raw, #[]⟩
  | some sf =>
    let vals := raw.map sf.decode
    let z : Num := .fin false 0 0
    let blocks := (List.range 512).map fun b =>
      let idx := (List.range 32).map fun k =>
        if x.transposed then b % 128 * 128 + 32 * (b / 128) + k else (32 * (b / 128) + k) * 128 + b % 128
      (idx, mxBlock x.fmt (fun _ => .rne) (idx.map fun j => vals.getD j z))
    ⟨blocks.foldl (fun a b => (b.1.zip b.2.1).foldl (fun a p => a.setIfInBounds p.1 p.2) a) (Array.replicate 16384 0),
     (blocks.map fun b => b.2.2).toArray⟩

/-- Slabs of an encode from `number` on; the fuel is the number left (R258). -/
def encodeActs (d : Desc) (x : SlabBlock) (number cursor : Nat) : List (List Byte) → List MvAct
  | [] => []
  | bs :: rest =>
    let r := encodeSlab x.fmt x.transposed (sourceSlab x number bs)
    let present := r.1.blocks != 0
    let e := if present then { r.1 with offset := cursor } else r.1
    let units := unitsOf r.2
    let next := if present then cursor + units.length else cursor
    (if present then (units.zip (List.range units.length)).map fun p =>
      MvAct.put (sideDest d.dstHost (x.data + 64 * (cursor + p.2))) p.1 cursor else [])
      ++ [.put (sideDest d.dstHost (x.dir + 16 * number)) e.encode cursor,
          .put (.mapBit (x.map + number / 8) d.dstHost (number % 8) present) [] next]
      ++ encodeActs d x (number + 1) next rest

/-- Encode (R258): slabs before the first that cannot be read are written. -/
def planEncode (s : State) (t : Nat) (h : HostReply) (d : Desc) (i : MvItem) (x : SlabBlock) : Planned :=
  let size := 16384 * (x.src.getD x.fmt).bits / 8
  let r := State.mvReads h (sourcePieces t (s.tile t) d i (x.count * size)) s
  let slabs := chunks size (r.2.1.flatten.length / size) r.2.1.flatten
  (r.1, encodeActs d x x.first x.cursor slabs ++ haltActs r.2.2, r.2.2)

/-- Slabs of a decode from `j` on (R258); the fuel is the number left. -/
def decodeActs (h : HostReply) (d : Desc) (x : SlabBlock) : Nat → Nat → Nat → State → Planned
  | 0, _, _, s => (s, [], none)
  | n + 1, j, units, s =>
    let number := x.first + j
    match s.mvRead h ⟨d.srcHost, x.dir + 16 * number, 16⟩ with
    | (s, .error e) => (s, haltActs (some e), some e)
    | (s, .ok eb) =>
      let e := DirEntry.parse eb
      match s.mvRead h ⟨d.srcHost, x.map + number / 8, 1⟩ with
      | (s, .error e) => (s, haltActs (some e), some e)
      | (s, .ok mb) =>
        let r := State.mvReads h (Span.pieces ⟨d.srcHost, x.data + 64 * e.offset, if e.blocks = 0 then 0 else e.length⟩) s
        match r.2.2 with
        | some k => (r.1, haltActs (some k), some k)
        | none =>
          match decodeSlab x.fmt e (natBit (leNat mb) (number % 8)) r.2.1.flatten with
          | none => (r.1, [.stop 7], none)
          | some dec =>
            let form := if x.denseOut then dec.denseForm x.fmt e.mxTransposed else dec.ringForm x.fmt
            let us := form.length / 64
            let rest := decodeActs h d x n (j + 1) (units + us) r.1
            (rest.1, .put (.own (x.dirCopy + 16 * j)) eb units :: streamActs d units form false ++ rest.2.1, rest.2.2)

/-- Row number that skips its row (R259). -/
def skipIndex : Nat := 2 ^ 32 - 1

/-- Gather (R259): rows at base, in index order. -/
def planGather (s : State) (t : Nat) (h : HostReply) (d : Desc) (x : Rows) : Planned :=
  match s.mvRead h ⟨false, tileAddr t x.index, 4 * x.count⟩ with
  | (s, .error e) => (s, haltActs (some e), some e)
  | (s, .ok ib) =>
    let r := State.mvReads h ((List.range x.count).map fun j =>
      let k := leAt ib (4 * j) 4
      if k = skipIndex then Span.mk true 0 0 else ⟨d.srcHost, x.base + k * x.stride, x.bytes⟩) s
    let rows := r.2.1.map fun bs => if bs.isEmpty then List.replicate x.bytes 0 else bs
    (r.1, streamActs d 0 rows.flatten r.2.2.isSome ++ haltActs r.2.2, r.2.2)

/-- Scatter (R259). -/
def planScatter (s : State) (t : Nat) (h : HostReply) (d : Desc) (i : MvItem) (x : Rows) : Planned :=
  match s.mvRead h ⟨false, tileAddr t x.index, 4 * x.count⟩ with
  | (s, .error e) => (s, haltActs (some e), some e)
  | (s, .ok ib) =>
    let r := State.mvReads h (sourcePieces t (s.tile t) d i (x.count * x.bytes)) s
    let rows := chunks x.bytes (r.2.1.flatten.length / x.bytes) r.2.1.flatten
    (r.1, rowActs d.dstHost x.bytes 0 ((rows.zip (List.range rows.length)).map fun p =>
      let k := leAt ib (4 * p.2) 4
      (if k = skipIndex then none else some (x.base + k * x.stride), p.1)) ++ haltActs r.2.2, r.2.2)

/-- The plan of a started descriptor. -/
def planWork (s : State) (t : Nat) (h : HostReply) (r : MvRun) : Planned :=
  let d := Desc.parse r.item.desc
  match d.work s r.params with
  | some .copy => planCopy s t h d r.item
  | some (.interleave x) => planInterleave s h d x
  | some (.transpose x) => planTranspose s h d x
  | some (.encode x) => planEncode s t h d r.item x
  | some (.decode x) => decodeActs h d x x.count 0 0 s
  | some (.gather x) => planGather s t h d x
  | some (.scatter x) => planScatter s t h d r.item x
  | some (.convert x) => planConvert s t h d r.item x r.scale
  | _ => (s, [], none)

/-! ### Start (R252, R254, R262) -/

/-- Address ranges that a descriptor names, known when it starts; of a data region, whose length the slabs decide, its first
byte. -/
def Desc.spans (t : Nat) (d : Desc) (w : Work) : List Span :=
  let src (n : Nat) : List Span := if d.srcIsRing then [] else [⟨d.srcHost, d.src, n⟩]
  let dst (n : Nat) : List Span := if d.dstIsRing then [] else [⟨d.dstHost, d.dst, n⟩]
  match w with
  | .copy => src d.param ++ dst d.param
  | .interleave x =>
    let q := x.rows * x.n - 1
    src (q * x.stride + rowElemBytes x.fmt x.k)
      ++ (if x.fmt.isMx then [⟨d.srcHost, x.scaleAddr, q * x.scaleStride + rowScaleBytes x.fmt x.k⟩] else [])
      ++ dst (64 * (b2n x.prefixed + passingUnits x.fmt x.k (if x.grouped then 8 * ceilDiv x.rows 8 else x.rows) x.n none))
  | .transpose x =>
    src ((x.cols - 1) * x.srcStride + x.rows * x.eb) ++ dst ((x.rows - 1) * x.dstStride + x.cols * x.eb)
  | .encode x =>
    src (w.sourceBytes d) ++ [⟨d.dstHost, x.data, 1⟩, ⟨d.dstHost, x.map + x.first / 8, (x.first + x.count - 1) / 8 - x.first / 8 + 1⟩,
      ⟨d.dstHost, x.dir + 16 * x.first, 16 * x.count⟩]
  | .decode x =>
    [⟨d.srcHost, x.data, 1⟩, ⟨d.srcHost, x.map + x.first / 8, (x.first + x.count - 1) / 8 - x.first / 8 + 1⟩,
     ⟨d.srcHost, x.dir + 16 * x.first, 16 * x.count⟩, ⟨false, tileAddr t x.dirCopy, 16 * x.count⟩]
      ++ dst (if x.denseOut then x.count * denseSlabBytes x.fmt else 64)
  | .gather x => ⟨false, tileAddr t x.index, 4 * x.count⟩ :: dst (x.count * x.bytes)
  | .scatter x => ⟨false, tileAddr t x.index, 4 * x.count⟩ :: src (x.count * x.bytes)
  | .convert x =>
    src (x.count * x.src.bits / 8)
      ++ dst (if x.dst.isMx then 64 * ceilDiv (x.count * x.dst.bits / 8 + x.count / 32) 64 else x.count * x.dst.bits / 8)
  | .page => []

/-- The two sides of a descriptor, where they are addresses (R252). -/
def Desc.sides (d : Desc) (w : Work) : List Span :=
  let src : List Span := if d.srcIsRing then [] else [⟨d.srcHost, d.src, 1⟩]
  let dst : List Span := if d.dstIsRing then [] else [⟨d.dstHost, d.dst, 1⟩]
  match w with
  | .encode x => src ++ [⟨d.dstHost, x.data + 64 * x.cursor, 1⟩]
  | .decode x => ⟨d.srcHost, x.data, 1⟩ :: dst
  | .gather x => ⟨d.srcHost, x.base, 1⟩ :: dst
  | .scatter x => src ++ [⟨d.dstHost, x.base, 1⟩]
  | _ => src ++ dst

/-- The source units agree with what the kind reads (R251, R254). -/
def Desc.unitsAgree (d : Desc) (i : MvItem) (w : Work) : Bool :=
  !d.srcIsRing || ceilDiv (w.sourceBytes d) 64 == (i.message.getD i.units)

/-- How a descriptor starts: with its work, with nothing to do, or already failed (R251, R252, R254). The result of an encode is
data_cursor from the start (R268). -/
def startRun (s : State) (t : Nat) (i : MvItem) (params : List Byte) : MvRun :=
  let d := Desc.parse i.desc
  let run : MvRun := { item := i, params := params, scale := 0x3F80_0000, plan := none, progress := 0,
                       result := if d.kind = 4 then leAt params 0x20 4 else 0, failed := none, waiting := false
                       pageWait := none }
  if i.message = some 0 then { run with plan := some [] }
  else
    match d.work s params with
    | none => { run with failed := some 2 }
    | some .page => run
    | some w =>
      if !d.unitsAgree i w then { run with failed := some 2 }
      else if (d.spans t w).any fun x => !s.spanOk x then { run with failed := some 1 }
      else if !(d.srcIsRing || d.dstIsRing || (d.sides w).any (s.isOwn t)) then { run with failed := some 1 }
      else
        match w with
        | .convert x =>
          { run with scale := if x.scaleMode = 1 then x.scalar else if x.scaleMode = 2 then (s.scaleEntry x.entry).scale
                              else 0x3F80_0000 }
        | _ => run

/-- A started descriptor of a slot. -/
def Tile.mvRun (c : Tile) (slot : Nat) : Option MvRun := NMap.get none c.mv.slots slot
def Tile.setRun (c : Tile) (slot : Nat) (r : Option MvRun) : Tile :=
  { c with mv := { c.mv with slots := NMap.set none c.mv.slots slot r } }

/-- Lowest free slot (R262). -/
def Tile.freeSlot (c : Tile) : Option Nat := (List.range mvSlots).find? fun k => (c.mvRun k).isNone

/-- The queue head waits on its barrier (R262, R270). -/
def Tile.barrierHeld (c : Tile) : Bool :=
  match c.mv.queue with
  | i :: _ => (Desc.parse i.desc).barrier && (List.range mvSlots).any fun k => (c.mvRun k).isSome
  | [] => false

/-- MOVER_DESCRIPTOR_START: the head of the queue starts, reading its parameter block (R254, R262). (DEDUCED, log 44) -/
def moverStart (s : State) (t : Nat) : State :=
  let c := s.tile t
  match c.mv.queue, c.freeSlot with
  | i :: rest, some k =>
    if c.barrierHeld then s
    else
      let d := Desc.parse i.desc
      let into (s : State) (r : MvRun) : State :=
        s.modTile t fun c => { c with mv := { c.mv with queue := rest, startWait := none, startFail := none } }.setRun k (some r)
      let failed (n : BitVec 8) : MvRun := { startRun s t { i with message := some 0 } [] with item := i, plan := none, failed := some n }
      if c.mv.startFail.isSome then into s (failed (c.mv.startFail.getD 0))
      else if d.kind = 1 || d.kind = 9 then into s (startRun s t i [])
      else if d.param % 64 ≠ 0 then into s (failed 2)
      else if dataBytes < d.param + 64 then into s (failed 1)
      else
        match s.mvRead .ok ⟨false, tileAddr t d.param, 64⟩ with
        | (s, .ok bs) => into s (startRun s t i bs)
        | (s, .error (.page u p)) => (s.awaitPage u p).modTile t fun c => { c with mv := { c.mv with startWait := some p } }
        | (s, .error (.code n)) => into s (failed n)
  | _, _ => s

/-! ### Units (R263, R264, R269) -/

/-- An earlier descriptor that writes the ring has not written its last unit or ended (R263). -/
def Tile.earlierWriter (c : Tile) (r : MvRun) : Bool :=
  let d := Desc.parse r.item.desc
  (List.range mvSlots).any fun k =>
    match c.mvRun k with
    | some o =>
      decide (o.item.id < r.item.id) && (Desc.parse o.item.desc).dstIsRing && (Desc.parse o.item.desc).dstRing == d.dstRing
        && o.failed.isNone && (match o.plan with | none => true | some l => decide (o.progress < l.length))
    | none => false

/-- What one write gives: done, held back (by a page: tile, write, page), or a failure. -/
inductive Wrote where
  | done (s : State)
  | wait (s : State) (page : Option (Nat × Bool × Nat))
  | fail (c : BitVec 8) (s : State)
deriving DecidableEq, Repr

/-- A write to main memory as a mover's result. -/
def wroteMain : State × MemAns → Wrote
  | (s, .ok _) => .done s
  | (s, .outside) => .fail 1 s
  | (s, .isolated) => .fail 5 s
  | (s, .uncorrectable _) => .fail 3 s

/-- Writes bytes at an offset of a tile, as a region (R110, R117). -/
def State.writeTile (s : State) (u off : Nat) (bs : List Byte) : Wrote :=
  if s.isolated u then .fail 5 s
  else if !(s.tile u).mem.ready then .wait s none
  else
    match (s.tile u).touch off bs.length with
    | .wait c p => .wait (s.setTile u c) (some (u, true, p))
    | .unresolved => .fail 4 s
    | .ok => .done (s.modTile u fun c => c.writeData off bs)

/-- Writes bytes at a device address; a write that a drain holds is set aside (R252, R344). -/
def State.writeDev (s : State) (t slot a : Nat) (bs : List Byte) : Wrote :=
  match s.place a bs.length with
  | .main m => wroteMain (s.mainWrite m bs)
  | .writeAlias m =>
    if s.drainHolds m bs.length then
      .done { s with train := { s.train with held := s.train.held ++
        [{ addr := m, data := bs, since := s.now, tile := t, slot := some slot, reach := none, bit := none }] } }
    else wroteMain (s.mainWrite m bs)
  | .tile u off => s.writeTile u off bs
  | _ => .fail 1 s

/-- Changes one bit of a byte. -/
def putBit (b : Byte) (i : Nat) (v : Bool) : Byte :=
  if v then b ||| (1#8 <<< i) else b &&& ~~~(1#8 <<< i)

/-- One act of the plan of a slot (R250, R258, R264, R267). -/
def mvPut (s : State) (t slot : Nat) (h : HostReply) (r : MvRun) (bs : List Byte) : MvDest → Wrote
  | .ring =>
    let c := s.tile t
    let d : RingNo := BitVec.ofNat 5 (Desc.parse r.item.desc).dstRing
    if c.earlierWriter r then .wait s none
    else if (c.ring d).room < 1 then
      .wait (s.setTile t ((c.modRing d fun x => x.addWaiter (true, 2)).setRun slot (some { r with waiting := true }))) none
    else .done (s.setTile t ((c.pushUnit d bs).modRing d fun x => x.dropWaiter (true, 2)))
  | .dev a => s.writeDev t slot a bs
  | .host a =>
    if s.hostAnswer h = .ok then .done { s with host := { s.host with mem := NMap.setRun 0 s.host.mem a bs } } else .fail 6 s
  | .own off => s.writeTile t off bs
  | .mapBit a host i v =>
    match s.mvRead h ⟨host, a, 1⟩ with
    | (s, .error (.page u p)) => .wait (s.awaitPage u p) (some (u, true, p))
    | (s, .error (.code n)) => .fail n s
    | (s, .ok old) =>
      let new := [putBit (old.headD 0) i v]
      if host then .done { s with host := { s.host with mem := NMap.setRun 0 s.host.mem a new } }
      else
        match s.place a 1 with
        | .writeAlias m =>
          if s.drainHolds m 1 then
            .done { s with train := { s.train with held := s.train.held ++
              [{ addr := m, data := new, since := s.now, tile := t, slot := some slot, reach := none, bit := some (i, v) }] } }
          else s.writeDev t slot a new
        | _ => s.writeDev t slot a new

/-- What page the descriptor of a slot waits for. -/
def State.runAwaits (s : State) (t slot : Nat) (page : Option (Nat × Bool × Nat)) : State :=
  s.modTile t fun c => c.setRun slot ((c.mvRun slot).map fun r => { r with pageWait := page })

/-- Performs the next act of a planned descriptor. -/
def moverAct (s : State) (t slot : Nat) (h : HostReply) (r : MvRun) (l : List MvAct) : State :=
  match l[r.progress]? with
  | none => s
  | some (.stop n) => s.modTile t fun c => c.setRun slot (some { r with failed := some n, waiting := false, pageWait := none })
  | some (.put dest bs result) =>
    match mvPut s t slot h r bs dest with
    | .done s =>
      s.modTile t fun c => c.setRun slot (some { r with progress := r.progress + 1, result := result, waiting := false, pageWait := none })
    | .wait s page => s.runAwaits t slot page
    | .fail n s => s.modTile t fun c => c.setRun slot (some { r with failed := some n, waiting := false, pageWait := none })

/-! ### Pages (R116 to R119, R260, R261) -/

/-- Bytes of a page. -/
def pageBytes : Nat := 4096

/-- A span of tile memory meets a page. -/
def meets (page off n : Nat) : Bool := decide (off < (page + 1) * pageBytes) && decide (page * pageBytes < off + n)

/-- Entry of a page operation (R260). -/
def Desc.entry (d : Desc) : Nat := bitsAt d.param 0 6

/-- Own offset of a bind's frame and the home page, when both are as R260 asks. -/
def State.bindArgs (s : State) (t : Nat) (d : Desc) : Option (Nat × Nat) :=
  match s.place d.dst pageBytes, s.place d.src pageBytes with
  | .tile u off, .main a =>
    if u == t && off % pageBytes == 0 && a % pageBytes == 0 && d.src % pageBytes == 0
        && (s.tile t).pageAttr (off / pageBytes) == 2 then some (off / pageBytes, a / pageBytes) else none
  | _, _ => none

/-- A span meets a frame of tile t. -/
def State.inFrame (s : State) (t frame : Nat) (x : Span) : Bool :=
  x.len != 0 && !x.host && match s.place x.addr x.len with | .tile u off => u == t && meets frame off x.len | _ => false

/-- Vectors and amax word of an epilogue record (R169). -/
def EpiRecord.touches (record : List Byte) (frame : Nat) : Bool :=
  let e := EpiRecord.parse record
  (e.scaleMode == 2 && meets frame e.scaleOffset 512) || (e.bias && meets frame e.biasOffset 512)
    || (e.amax && meets frame e.amaxOffset 8)

/-- A matrix instruction touches a frame: the record of an MEPI, the directory entry of an MSLB, the vectors and amax word of an
MDRN, which before its dispatch are those of its slot or of an MEPI that will still fill it (R118, R170). -/
def Tile.itemTouches (c : Tile) (frame : Nat) (i : MxItem) : Bool :=
  match i.op with
  | .mepi => meets frame i.p 128
  | .mslb => meets frame i.p 16
  | .mdrn =>
    match i.slot with
    | some sl => EpiRecord.touches sl.record frame
    | none =>
      let k := bitsAt i.imm.toNat 12 3
      ((NMap.get none c.mx.slots k).any fun sl => EpiRecord.touches sl.record frame) ||
        (c.mx.loader.toList ++ c.mx.queue).any fun j =>
          j.op == .mepi && decide (j.id < i.id) && bitsAt j.imm.toNat 0 3 == k
            && EpiRecord.touches (NMap.getRun 0 c.mem.data j.p 128) frame
  | _ => false

/-- Where a started descriptor reads or writes beyond the ranges it names: slabs and rows, known once it is planned. -/
def Desc.openSides (d : Desc) : Work → List Span
  | .encode x => [⟨d.dstHost, x.data, 1⟩]
  | .decode x => [⟨d.srcHost, x.data, 1⟩]
  | .gather x => [⟨d.srcHost, x.base, 1⟩]
  | .scatter x => [⟨d.dstHost, x.base, 1⟩]
  | _ => []

/-- A write of a plan goes to a frame of tile t. -/
def State.actTouches (s : State) (t frame t' : Nat) : MvAct → Bool
  | .put (.dev a) bs _ => s.inFrame t frame ⟨false, a, bs.length⟩
  | .put (.own off) bs _ => t' == t && meets frame off bs.length
  | .put (.mapBit a false _ _) _ _ => s.inFrame t frame ⟨false, a, 1⟩
  | _ => false

/-- A started descriptor of tile t' may still touch a frame of tile t (R118). -/
def State.runTouches (s : State) (t frame t' : Nat) (o : MvRun) : Bool :=
  let d := Desc.parse o.item.desc
  (t' == t && meets frame d.statusOffset 8) ||
    (o.failed.isNone &&
      if d.kind = 9 then
        t' == t && o.progress != 2 && (((s.tile t).pageEntry d.entry).frame.toNat == frame || (s.bindArgs t d).any (·.1 == frame))
      else
        match o.plan, d.work s o.params with
        | some l, _ => (l.drop o.progress).any (s.actTouches t frame t')
        | none, some w =>
          (d.spans t' w).any (s.inFrame t frame)
            || (d.openSides w).any fun x => !x.host && match s.place x.addr 1 with | .tile u _ => u == t | _ => false
        | none, none => false)

/-- An instruction that touches the frame is not complete (R118): a matrix instruction, a send from a region, a reach access of
any tile, an earlier descriptor of the own mover, a started descriptor of another tile's. (DEDUCED, log 47) -/
def Tile.frameBusy (s : State) (t : Nat) (c : Tile) (r : MvRun) (frame : Nat) : Bool :=
  (c.mx.queue ++ c.mx.loader.toList ++ c.mx.feed.toList ++ c.mx.drain.toList).any (c.itemTouches frame)
    || (c.sd.queue.any fun i => match i.region with | some off => meets frame off (64 * i.units) | none => false)
    || s.tiles.any fun p =>
      (p.2.rc.out.any fun i => s.inFrame t frame ⟨false, i.addr, i.op.size⟩)
        || (List.range mvSlots).any fun k =>
          match p.2.mvRun k with
          | some o => (p.1 != t || decide (o.item.id < r.item.id)) && s.runTouches t frame p.1 o
          | none => false

/-- Marks a page operation finished, or failed; a page moved counts as its 64 units (R268). -/
def State.pageEnd (s : State) (t slot : Nat) (r : MvRun) (code : Option (BitVec 8)) (units : Nat) : State :=
  s.modTile t fun c => c.setRun slot (some { r with progress := 2, failed := code, result := units })

/-- The change of an entry once its frame needs no more transfer (R260). -/
def PageEntry.settle (d : Desc) (bind : Option (Nat × Nat)) (e : PageEntry) : PageEntry :=
  match d.sub with
  | 0 => { home := BitVec.ofNat 29 ((bind.getD (0, 0)).2), frame := BitVec.ofNat 9 ((bind.getD (0, 0)).1), state := 1,
           dirty := false, writeBack := natBit d.param 8, homeValid := true }
  | 1 => { e with state := 3, dirty := false }
  | 2 => { e with state := 3, dirty := false }
  | _ => { e with state := 1, dirty := false }

/-- A page operation needs a transfer: a write-back, or a fill. -/
def pageTransfers (d : Desc) (e : PageEntry) : Bool :=
  match d.sub with
  | 0 => e.state == 3 && e.dirty && e.writeBack
  | 1 => e.state == 1
  | 2 => e.state == 3 && e.dirty
  | _ => e.state == 3 && e.dirty && e.writeBack

/-- A page operation begins once its frame is free of earlier instructions; one that moves nothing ends at once
(R118, R119, R260). An entry already filling or writing back holds it back. (DEDUCED, log 47) -/
def pageBegin (s : State) (t slot : Nat) (r : MvRun) : State :=
  let c := s.tile t
  let d := Desc.parse r.item.desc
  let e := c.pageEntry d.entry
  let bind := s.bindArgs t d
  let frame := if e.state = 0 then (bind.getD (0, 0)).1 else e.frame.toNat
  if r.progress ≠ 0 || r.failed.isSome then s
  else if d.sub = 0 && bind.isNone then s.pageEnd t slot r (some 2) 0
  else if d.sub ≠ 0 && e.state = 0 then s.pageEnd t slot r (some 2) 0
  else if e.state = 2 || e.state = 4 then s
  else if Tile.frameBusy s t c r frame || (d.sub = 0 && Tile.frameBusy s t c r (bind.getD (0, 0)).1) then s
  else if d.sub ≠ 0 && e.state = 5 then s.pageEnd t slot r (some 4) 0
  else if d.sub = 1 && e.state = 1 && !e.homeValid then s.pageEnd t slot r (some 4) 0
  else if pageTransfers d e then
    s.setTile t ((c.setEntry d.entry { e with state := if d.sub = 1 then 2 else 4 }).setRun slot (some { r with progress := 1 }))
  else if d.sub = 1 || d.sub = 2 then s.pageEnd t slot r none 0
  else (s.setTile t (c.setEntry d.entry (e.settle d bind))).pageEnd t slot r none 0

/-- Fills a frame from its home; a failure leaves the entry failed with a status code (R119). -/
def pageFill (s : State) (t n : Nat) : State × Option (BitVec 8) :=
  let e := (s.tile t).pageEntry n
  let bad (s : State) (k : BitVec 8) : State × Option (BitVec 8) :=
    (s.modTile t fun c => c.setEntry n { e with state := 5 }, some k)
  match s.mainRead 1 (e.home.toNat * pageBytes) pageBytes with
  | (s, .ok bs) =>
    (s.modTile t fun c => (c.writeData (e.frame.toNat * pageBytes) bs).setEntry n { e with state := 3, dirty := false }, none)
  | (s, .outside) => bad s 1
  | (s, .isolated) => bad s 5
  | (s, .uncorrectable _) => bad s 3

/-- Writes a frame home (R118, R119). -/
def pageBack (s : State) (t n : Nat) : State × Option (BitVec 8) :=
  let e := (s.tile t).pageEntry n
  let bad (s : State) (k : BitVec 8) : State × Option (BitVec 8) :=
    (s.modTile t fun c => c.setEntry n { e with state := 5 }, some k)
  match (s.tile t).readData 3 (e.frame.toNat * pageBytes) pageBytes with
  | (c, none) => bad (s.setTile t c) 3
  | (c, some bs) =>
    match wroteMain ((s.setTile t c).mainWrite (e.home.toNat * pageBytes) bs) with
    | .done s => (s, none)
    | .wait s _ => (s, none)
    | .fail k s => bad s k

/-- Descriptors that wait for a page whose fill or write-back failed end with that failure (R119). -/
def Tile.failWaits (c : Tile) (own : Bool) (u page : Nat) (k : BitVec 8) : Tile :=
  let c := (List.range mvSlots).foldl (fun c n =>
    match c.mvRun n with
    | some r =>
      (match r.pageWait with
       | some (v, _, p) =>
         if v = u && p = page then c.setRun n (some { r with failed := some (r.failed.getD k), pageWait := none }) else c
       | none => c)
    | none => c) c
  if own && c.mv.startWait == some page then { c with mv := { c.mv with startWait := none, startFail := some k } } else c
def State.failWaits (s : State) (u page : Nat) (k : BitVec 8) : State :=
  { s with tiles := s.tiles.map fun p => (p.1, p.2.failWaits (p.1 == u) u page k) }

/-- Ends the transfer of a page operation. -/
def pageOpDone (s : State) (t slot : Nat) (r : MvRun) : State :=
  let d := Desc.parse r.item.desc
  match (if d.sub = 1 then pageFill s t d.entry else pageBack s t d.entry) with
  | (s, some k) => (s.failWaits t ((s.tile t).pageEntry d.entry).frame.toNat k).pageEnd t slot r (some k) 0
  | (s, none) =>
    let bind := s.bindArgs t d
    (s.modTile t fun c => c.setEntry d.entry ((c.pageEntry d.entry).settle d bind)).pageEnd t slot r none 64

/-- PAGE_FILL_COMPLETE: the oldest fill that a touch started, else a page operation under way (R117, R119, R261). -/
def pageFillComplete (s : State) (t : Nat) : State :=
  let c := s.tile t
  match c.pages.fills with
  | n :: rest =>
    match pageFill (s.setTile t { c with pages := { c.pages with fills := rest } }) t n with
    | (s, none) => s
    | (s, some k) => s.failWaits t (c.pageEntry n).frame.toNat k
  | [] =>
    match (List.range mvSlots).find? fun k => match c.mvRun k with
      | some r => r.progress == 1 && (Desc.parse r.item.desc).kind == 9 && r.failed.isNone
      | none => false with
    | some k => match c.mvRun k with | some r => pageOpDone s t k r | none => s
    | none => s

/-- MOVER_UNIT_WRITE: the descriptor of a slot reads its source once, then makes its writes one by one (R263, R264).
(DEDUCED, log 43) -/
def moverUnit (s : State) (t slot : Nat) (h : HostReply) : State :=
  match (s.tile t).mvRun slot with
  | some r =>
    if r.failed.isSome then s
    else if (Desc.parse r.item.desc).kind = 9 then pageBegin s t slot r
    else
      match r.plan with
      | some l => moverAct s t slot h r l
      | none =>
        match planWork s t h r with
        | (_, _, some (.page u p)) => (s.awaitPage u p).runAwaits t slot (some (u, false, p))
        | (s, l, _) => moverAct (s.modTile t fun c => c.setRun slot (some { r with plan := some l })) t slot h
            { r with plan := some l } l
  | none => s

/-! ### Completion (R265, R268, R269) -/

/-- The 8-byte status word (R268). -/
def statusWord (code : BitVec 8) (kind result : Nat) : List Byte :=
  [code, BitVec.ofNat 8 kind, 0, 0] ++ leBytes 4 result

/-- MOVER_FIRST_FAIL as a word (R270). -/
def firstFailWord (l : Latch (BitVec 8 × BitVec 8)) : Nat :=
  fieldAt (b2n l.valid) 31 + fieldAt l.value.1.toNat 8 + l.value.2.toNat

/-- Counts a completed descriptor; a failure sets the first record when there is none and raises the event
(R269, R270, R402). -/
def State.mvEnded (s : State) (t : Nat) (d : Desc) (code : BitVec 8) : State :=
  let c := s.tile t
  let m := { c.mv with done := c.mv.done + 1 }
  if code = 0 then s.setTile t { c with mv := m }
  else
    let rec' := (BitVec.ofNat 8 d.kind, code)
    let m := { m with
      failCount := m.failCount + 1
      firstFail := m.firstFail.note rec'
      failOffset := if m.firstFail.valid then m.failOffset else BitVec.ofNat 32 d.statusOffset }
    (s.setTile t { c with mv := m }).raise 1 t (leBytes 4 (firstFailWord ⟨true, rec'⟩) ++ leBytes 4 d.statusOffset)

/-- The slot's descriptor has written its last unit or failed, and none of its writes is held (R265, R344). -/
def Tile.mvFinished (s : State) (t slot : Nat) (r : MvRun) : Bool :=
  (r.failed.isSome ||
    (if (Desc.parse r.item.desc).kind = 9 then r.progress == 2
     else match r.plan with | some l => decide (l.length ≤ r.progress) | none => false))
    && !(s.train.held.any fun x => x.tile == t && x.slot == some slot)

/-- MOVER_DESCRIPTOR_COMPLETE (R265). (DEDUCED, log 46) -/
def moverComplete (s : State) (t slot : Nat) (h : HostReply) : State :=
  match (s.tile t).mvRun slot with
  | some r =>
    if !Tile.mvFinished s t slot r then s
    else
      let d := Desc.parse r.item.desc
      let code : BitVec 8 := match r.failed with
        | some k => k
        | none => if d.dstHost && s.hostAnswer h ≠ .ok then 6 else 0
      let finish (s : State) (code : BitVec 8) : State :=
        (s.modTile t fun c =>
          let c := c.setRun slot none
          let c := if d.dstIsRing && r.waiting then c.modRing (BitVec.ofNat 5 d.dstRing) fun x => x.dropWaiter (true, 2) else c
          if d.srcIsRing then c.modRing r.item.ring fun x => x.finish r.item.id else c).mvEnded t d code
      match (s.tile t).touch d.statusOffset 8 with
      | .wait c p => (s.setTile t c).runAwaits t slot (some (t, true, p))
      | .unresolved => finish s (if code = 0 then 4 else code)
      | .ok => finish (s.modTile t fun c => c.writeData d.statusOffset (statusWord code d.kind r.result)) code
  | none => s

/-- An engine reset ends the mover's work: every descriptor reports ABORTED_BY_RESET and consumes nothing more; its
claims are released (R80, R254, R268). -/
def State.moverAbort (s : State) (t : Nat) : State :=
  let c := s.tile t
  let runs := (List.range mvSlots).filterMap fun k => c.mvRun k
  let all := (runs.map fun r => (r.item, r.result)) ++ c.mv.queue.map fun i => (i, 0)
  let s := s.setTile t { c with mv := { c.mv with queue := [], slots := [], startWait := none, startFail := none } }
  let s := { s with train := { s.train with held := s.train.held.filter fun x => !(x.tile == t && x.slot.isSome) } }
  all.foldl (fun s p =>
    let d := Desc.parse p.1.desc
    let s := s.modTile t fun c =>
      let c := c.writeData d.statusOffset (statusWord 8 d.kind p.2)
      if d.srcIsRing then c.modRing p.1.ring fun x => x.release p.1.id else c
    s.mvEnded t d 8) s

def execMoverDescriptorStart (t : Nat) (s : State) : Out := engineStep t moverStart s
def execMoverUnitWrite (t slot : Nat) (h : HostReply) (s : State) : Out :=
  if mvSlots ≤ slot then .fault .noSuchUnit else engineStep t (fun s t => moverUnit s t slot h) s
def execMoverDescriptorComplete (t slot : Nat) (h : HostReply) (s : State) : Out :=
  if mvSlots ≤ slot then .fault .noSuchUnit else (engineStep t (fun s t => moverComplete s t slot h) s)
def execPageFillComplete (t : Nat) (s : State) : Out := engineStep t pageFillComplete s

end Sys2Proof.Machine
end

