-- ==== Sys2Proof/Machine/Send.lean ====
section
/-! DEFINITION. Sends: issue, the send port, delivery, answers and failure records (R70, R242, R277 to R285, R300, R302,
R426 to R428). -/
namespace Sys2Proof.Machine

/-- Depth of the send queue and sends that run at once (R57, R277). -/
def sdDepth : Nat := 32
def sdRunning : Nat := 4

/-! ### Issue (R70, R242, R426) -/

/-- Columns and rows of an image's target (R89). -/
def State.targetCols (s : State) : Nat := if s.targetTiles = 256 then 16 else 48
def State.targetRows (s : State) : Nat := if s.targetTiles = 256 then 16 else 32

/-- Where a send goes: tiles of this device, or one tile of a partner. -/
structure SendTo where
  tiles : List Nat
  remote : Option (Nat × Bool)
deriving DecidableEq, Repr

/-- Loaded tiles of a rectangle of the target; none when its coordinates are not in order or outside (R70). -/
def State.rectangle (s : State) (x0 y0 x1 y1 : Nat) : Option (List Nat) :=
  if x1 < x0 || y1 < y0 || s.targetCols ≤ x1 || s.targetRows ≤ y1 then none
  else
    some (((List.range (y1 - y0 + 1)).flatMap fun y => (List.range (x1 - x0 + 1)).map fun x =>
      (y0 + y) * s.targetCols + x0 + x).filter s.isLoaded)

/-- Destinations of a SEND; none is SEND_PARAM. Bits of the destination word outside the fields of its dest_kind are ignored
(R70, R426). (DESIGN CHOICE, log 120) -/
def State.sendTargets (s : State) (kind w : Nat) : Option SendTo :=
  let rows (l : Option (List Nat)) : Option SendTo :=
    match l with
    | some (t :: ts) => some ⟨t :: ts, none⟩
    | _ => none
  match kind with
  | 0 => if bitsAt w 0 11 < s.targetTiles && s.isLoaded (bitsAt w 0 11) then some ⟨[bitsAt w 0 11], none⟩ else none
  | 1 => rows (s.rectangle (bitsAt w 5 6) (bitsAt w 0 5) (bitsAt w 11 6) (bitsAt w 0 5))
  | 2 => rows (s.rectangle (bitsAt w 0 6) (bitsAt w 6 5) (bitsAt w 0 6) (bitsAt w 11 5))
  | 3 => rows (s.rectangle (bitsAt w 0 6) (bitsAt w 6 5) (bitsAt w 11 6) (bitsAt w 17 5))
  | 4 => rows (if (s.group (bitsAt w 0 3)).loaded then some (s.group (bitsAt w 0 3)).members else none)
  | 5 =>
    let i := bitsAt w 11 12
    let p := s.partner i
    if p.state = 2 && p.path != 2 && p.rank != 255 && (natBit w 23 == (p.path == 1)) then
      some ⟨[bitsAt w 0 11], some (i, natBit w 23)⟩ else none
  | _ => none

/-- Puts a send into the queue, attributed to the send group and its index (R283, R311). -/
def Tile.pushSend (word : Word64) (imm : Word32) (places : SendTo) (ring : Option RingNo) (start units : Nat) (region : Option Nat) (c : Tile)
    (id : Nat) : Tile :=
  let item : SdItem :=
    { id := id, word := word, pc := BitVec.ofNat 13 c.core.pc, seq := c.sd.issued, group := c.sd.sendGroup,
      index := (c.member c.sd.sendGroup.toNat).index, kind := bitsAt imm.toNat 8 3, ring := ring, start := start, units := units,
      marker := imm.getLsbD 1, region := region, destRing := BitVec.ofNat 5 (bitsAt imm.toNat 11 5),
      dests := places.tiles.map fun t => ⟨t, 0, none, false⟩, remote := places.remote, running := false, stopAt := none,
      waitRecord := false, pageWait := none, flight := none }
  { c with sd := { c.sd with queue := c.sd.queue ++ [item], issued := c.sd.issued + 1 } }

/-- SEND. A ring is read as count-prefixed when the flag says so or the ring is (R65, R242, R243); p without from_region and
ring_a with it are ignored (R54). (DEDUCED, log 42; DESIGN CHOICE, log 120) -/
def sendBody (a : RingNo) (dest p : SReg) (imm : Word32) : State → Nat → Tile → Issue := fun s _ c =>
  let word := encA 5 0x01 a dest 0 p imm
  let length := bitsAt imm.toNat 16 16
  let full := decide (sdDepth ≤ c.sd.queue.length)
  if bitsAt imm.toNat 3 5 ≠ 0 then .fault .illegalInsn 0 c
  else if length = 0 then .fault .sendParam 0 c
  else
    match s.sendTargets (bitsAt imm.toNat 8 3) (c.sreg dest).toNat with
    | none => .fault .sendParam 0 c
    | some places =>
      if imm.getLsbD 2 then
        let off := (c.sreg p).toNat
        let go (c : Tile) (units : Nat) : Issue :=
          if dataBytes < off + 64 * units then .fault .addressRange off c
          else c.tryIssue { consumes := [], produces := [], work := true } full
            (Tile.pushSend word imm places none 0 units (some off))
        if imm.getLsbD 0 then
          if dataBytes < off + 64 then .fault .addressRange off c
          else c.issueReadOnce off 64 0 0 fun c bs =>
            let u := (CountUnit.parse bs).units
            if length < u then .fault .sendParam 0 c else go c (1 + u)
        else go c length
      else
        let x := c.ring a
        let go (c : Tile) (units : Nat) : Issue :=
          c.tryIssue { consumes := [(a, units)], produces := [], work := true } full
            (Tile.pushSend word imm places (some a) (c.ring a).firstFree units none)
        if !x.valid then .fault .ringUndefined 0 c
        else if imm.getLsbD 0 || x.countPrefixed then
          if x.available = 0 then .stall c .input [a]
          else
            match c.readUnits 0 a x.firstFree 1 with
            | (c, none) => .fault .memoryUncorrectable (x.offset x.firstFree) c
            | (c, some bs) =>
              let u := (CountUnit.parse bs).units
              if length < u then .fault .sendParam 0 c else go c (1 + u)
        else go c length

def insnSend (a : RingNo) (dest p : SReg) (imm : Word32) : Insn :=
  { word := encA 5 0x01 a dest 0 p imm, scalars := [dest, p], vectors := [], body := sendBody a dest p imm }

def execSend (t : Nat) (ringA : RingNo) (dest p : SReg) (imm : Word32) (s : State) : Out :=
  issue false t (insnSend ringA dest p imm) s

/-! ### Changes of one send -/

/-- Changes the send `id` of a tile. -/
def Tile.modSend (c : Tile) (id : Nat) (f : SdItem → SdItem) : Tile :=
  { c with sd := { c.sd with queue := c.sd.queue.map fun i => if i.id = id then f i else i } }
def Tile.send? (c : Tile) (id : Nat) : Option SdItem := c.sd.queue.find? fun i => i.id == id
def SdItem.modDest (i : SdItem) (t : Nat) (f : SendDest → SendDest) : SdItem :=
  { i with dests := i.dests.map fun d => if d.tile = t then f d else d }

/-- The last packet is injected: read ahead, or landed at every destination that still takes units (R277). -/
def SdItem.injected (i : SdItem) : Bool :=
  i.flight.isSome || i.dests.all fun d => d.answer.isSome || decide (i.units ≤ d.landed)

/-- Offset of unit k of the source (R70). -/
def SdItem.offset (c : Tile) (i : SdItem) (k : Nat) : Nat :=
  match i.region, i.ring with
  | some off, _ => off + 64 * k
  | none, some r => (c.ring r).offset (i.start + k)
  | none, none => 0

/-- Unit k of a send, when it is injected already. -/
def SdItem.inFlight (i : SdItem) (k : Nat) : Option (List Byte) := i.flight.bind fun f => if f.1 ≤ k then f.2[k - f.1]? else none

/-- Reads unit k of a send's source (R117, R128). -/
def Tile.sendRead (c : Tile) (i : SdItem) (k : Nat) : Tile × Except Halt (List Byte) :=
  let off := i.offset c k
  match i.inFlight k with
  | some bs => (c, .ok bs)
  | none =>
  match c.touch off 64 with
  | .wait c' p => (c'.modSend i.id fun i => { i with pageWait := some p }, .error (.page 0 p))
  | .unresolved => (c, .error (.code 4))
  | .ok =>
    let c := c.modSend i.id fun i => { i with pageWait := none }
    match c.readData 2 off 64 with
    | (c, some bs) => (c, .ok bs)
    | (c, none) => (c, .error (.code 2))

/-- A source page that cannot be brought in: a tile fault at the SEND (R119). The send does not go on. -/
def State.sendPageFault (s : State) (t : Nat) (i : SdItem) (off : Nat) : State :=
  s.tileFault t .pageFaultUnresolved i.pc.toNat i.word off

/-! ### Starting (R277, R419, R427) -/

/-- An earlier running send names the ring at a same destination and has not injected its last packet (R277).
(DEDUCED, log 49) -/
def sendConflict (r i : SdItem) : Bool :=
  r.destRing == i.destRing && (r.remote.map (·.1)) == (i.remote.map (·.1)) && !r.injected
    && (r.dests.any fun d => i.dests.any fun e => d.tile == e.tile)

/-- Reads up to n units from unit k on; the reason it stopped short is kept. -/
def readSendUnits (i : SdItem) : Nat → Nat → Tile → Tile × List (List Byte) × Option Halt
  | 0, _, c => (c, [], none)
  | n + 1, k, c =>
    match c.sendRead i k with
    | (c, .ok bs) => let r := readSendUnits i n (k + 1) c; (r.1, bs :: r.2.1, r.2.2)
    | (c, .error e) => (c, [], some e)

/-- Packets of a remote send: up to four units each, the end marker on the last (R273, R278, R419). -/
def remotePackets (s : State) (t : Nat) (i : SdItem) (rank : Nat) (marker : Bool) (us : List (List Byte)) : List LinkPacket :=
  let ps := chunks 4 us.length us
  (ps.zip (List.range ps.length)).map fun p =>
    ⟨(PktHeader.mk 0 rank s.ownRank ((i.dests.map (·.tile)).headD 0) i.destRing.toNat p.1.length
      (marker && p.2 + 1 == ps.length) i.group.toNat (i.index % 256) t).pack, p.1⟩

/-- Marks every destination of a send answered. -/
def SdItem.answerAll (i : SdItem) (code : Option (BitVec 3)) : SdItem :=
  { i with dests := i.dests.map fun d => if d.answer.isSome then d else { d with answer := some code, landed := i.units } }

/-- A remote send hands its packets to its port; a source word that cannot be read stops it (R302, R422). -/
def startRemote (s : State) (t : Nat) (i : SdItem) (k : Nat) : State :=
  if (s.partner k).state ≠ 2 then s.modTile t fun c => c.modSend i.id fun i => { i with running := true }.answerAll (some 3)
  else
    match readSendUnits i i.units 0 (s.tile t) with
    | (c, _, some (.page _ _)) => s.setTile t c
    | (c, us, some (.code 4)) => (s.setTile t c).sendPageFault t i (i.offset c us.length)
    | (c, us, h) =>
      let s := s.setTile t (c.modSend i.id fun i =>
        let i := { i with running := true, dests := i.dests.map fun d => { d with landed := us.length } }
        if h.isSome then { i with stopAt := some us.length }.answerAll (some 2) else i)
      (remotePackets s t i (s.partner k).rank (i.marker && h.isNone) us).foldl (fun s p => s.sendVia k 0 p) s

/-- Units that the haul buffers on the way to a tile hold: 32 flits in each router's input (R271, R272). -/
def State.wayUnits (s : State) (t u : Nat) : Nat :=
  let d (p q : Nat) : Nat := (p - q) + (q - p)
  16 * (d (s.tx t) (s.tx u) + d (s.ty t) (s.ty u) + 1)

/-- What a send still has to land fits the buffers on the way, and its source can be read: it is injected (R277).
(DEDUCED, log 49) -/
def State.inject (s : State) (t : Nat) (i : SdItem) : State :=
  let waits := i.dests.filter fun d => d.answer.isNone
  if i.remote.isSome || i.stopAt.isSome || waits.any fun d => decide (d.landed + s.wayUnits t d.tile < i.units) then s
  else
    let k := (waits.map (·.landed)).foldl min i.units
    match readSendUnits i (i.units - k) k (s.tile t) with
    | (c, us, none) => s.setTile t (c.modSend i.id fun i => { i with flight := some (k, us) })
    | _ => s

/-- Starts a send of the queue. -/
def startSend (s : State) (t : Nat) (i : SdItem) : State :=
  match i.remote with
  | some (k, _) => startRemote s t i k
  | none => s.modTile t fun c => c.modSend i.id fun i => { i with running := true }

/-- SEND_START: the first queued send that does not run yet, once no running send conflicts with it (R277). -/
def sendStart (s : State) (t : Nat) : State :=
  let running (s : State) : List SdItem := (s.tile t).sd.queue.filter (·.running)
  match (s.tile t).sd.queue.find? fun i => !i.running with
  | some i =>
    if sdRunning ≤ (running s).length then s
    else
      let s := ((running s).filter fun r => sendConflict r i).foldl (fun s r => s.inject t r) s
      if (running s).any fun r => sendConflict r i then s else startSend s t i
  | none => s

/-! ### Delivery (R109, R112, R280, R281, R285, R300) -/

/-- Counts an end marker that reaches a tile (R285). -/
def State.countMarker (s : State) (u g n : Nat) : State :=
  let c := s.tile u
  if (s.groupsOf u).contains g then
    let m := c.member g
    (s.setTile u (c.setMember g { m with markers := NMap.set 0 m.markers n (NMap.get 0 m.markers n + 1) })).noteMet u
  else s.setTile u { c with sd := { c.sd with excess := BitVec.ofNat 8 (satInc 8 c.sd.excess.toNat 1) } }

/-- Notes which tile delivers into a ring in the superstep of its send, group and index; a second source raises the event once
(R281). -/
def State.noteSource (s : State) (u : Nat) (r : RingNo) (step : Nat × Nat) (source : Nat) : State :=
  let c := s.tile u
  let x := c.ring r
  let same := x.sources.filter fun e => (e.1, e.2.1) == step
  if same.any fun e => e.2.2 == source then s
  else
    let second := !same.isEmpty && !x.multi.contains step
    let s := s.setTile u (c.setRing r { x with
      sources := x.sources ++ [(step.1, step.2, source)], multi := if second then x.multi ++ [step] else x.multi })
    if second then s.raise 3 u [BitVec.ofNat 8 r.toNat] else s

/-- Where a packet enters the router of its destination: its own port 0, west 1, east 2, north 3, south 4; the neighbour paths
from 5 to 8 (R271, R275). -/
def State.entrySide (s : State) (t u kind : Nat) : Nat :=
  let side := if t = u then 0 else if s.ty t = s.ty u then (if s.tx t < s.tx u then 1 else 2) else if s.ty t < s.ty u then 3 else 4
  if kind = 0 && s.wayUnits t u == 32 then side + 4 else side

/-- Side of a packet that a port brought in: a path of its own to the tile. -/
def linkSide (port : Nat) : Nat := 9 + port

/-- Whether a side is no neighbour path. -/
def meshSide (side : Nat) : Bool := side < 5 || 8 < side

/-- A packet still holds its buffer: its tile has more of it to take. -/
def State.headOpen (s : State) (u : Nat) (h : HaulHead) : Bool :=
  if h.source < tileCount then
    match (s.tile h.source).send? h.id with
    | some i => i.dests.any fun d => d.tile == u && d.answer.isNone
    | none => false
  else s.link.inbound.any fun x => tileCount + x.port == h.source && x.vc == h.id && (PktHeader.parse x.packet.header).destTile == u

/-- A packet may go on: no other one holds the buffer it came in by, none is part-landed over the mesh, and none is part-landed in
the same ring (R273, R281). (DEDUCED, log 49) -/
def State.mayLand (s : State) (u : Nat) (h : HaulHead) : Bool :=
  (s.tile u).sd.heads.all fun k =>
    (k.source == h.source && k.id == h.id) || !s.headOpen u k
      || !(k.side == h.side || (k.opened && ((meshSide k.side && meshSide h.side) || k.ring == h.ring)))

/-- A packet takes the buffer, or leaves it. -/
def Tile.setHead (c : Tile) (h : HaulHead) (stays : Bool) : Tile :=
  let rest := c.sd.heads.filter fun k => !(k.source == h.source && k.id == h.id)
  { c with sd := { c.sd with heads := if stays then rest ++ [h] else rest } }

/-- What a destination makes of one unit. -/
inductive Landing where
  | landed (s : State)
  | full (s : State)
  | isolated
  | undefined
deriving DecidableEq, Repr

/-- Lands one unit of a packet in a ring of a tile; the packet leaves its buffer with its last unit (R108, R109, R112, R273,
R280, R300). -/
def State.land (s : State) (u : Nat) (h : HaulHead) (step : Nat × Nat) (source : Nat) (more : Bool) (bs : List Byte) : Landing :=
  let r := h.ring
  let c := s.tile u
  if s.isolated u then .isolated
  else if !(c.ring r).valid then .undefined
  else if (c.ring r).room < 1 then .full (s.setTile u ((c.modRing r fun x => x.addWaiter (true, 3)).setHead h true))
  else
    let c := ((c.pushUnit r bs).modRing r fun x => x.dropWaiter (true, 3)).setHead { h with opened := true } more
    .landed ((s.setTile u c).noteSource u r step source)

/-- A destination that still has to get unit k has no room for it: the whole multicast waits (R279). -/
def State.heldBack (s : State) (i : SdItem) (k : Nat) : Bool :=
  i.dests.any fun d => d.answer.isNone && decide (d.landed ≤ k) && !s.isolated d.tile
    && ((s.tile d.tile).ring i.destRing).valid && decide (((s.tile d.tile).ring i.destRing).room < 1)

/-- Sets the answer of a destination. -/
def State.answerSend (s : State) (t id u : Nat) (code : Option (BitVec 3)) : State :=
  s.modTile t fun c => c.modSend id fun i => i.modDest u fun d => { d with answer := some code }

/-- An earlier send of the tile has yet to land in the same ring of the same tile (R278). -/
def Tile.sendBehind (c : Tile) (i : SdItem) (u : Nat) : Bool :=
  (c.sd.queue.takeWhile fun r => r.id != i.id).any fun r =>
    r.remote.isNone && r.destRing == i.destRing && r.dests.any fun d => d.tile == u && d.answer.isNone

/-- The next unit of a local send reaches one of its destinations. (DEDUCED, log 48) -/
def deliverLocal (s : State) (t id u : Nat) : State :=
  match (s.tile t).send? id with
  | some i =>
    match i.dests.find? fun d => d.tile == u with
    | some d =>
      let k := d.landed
      let h : HaulHead := ⟨s.entrySide t u i.kind, t, id, i.destRing, decide (0 < k % 4)⟩
      let skip := !i.running || i.remote.isSome || d.answer.isSome || (s.tile t).sendBehind i u
      let stopped := match i.stopAt with | some n => decide (n ≤ k) | none => false
      if skip then s
      else if stopped then s.answerSend t id u (some 2)
      else if s.isolated u then s.answerSend t id u (some 1)
      else if !s.mayLand u h then s
      else if !((s.tile u).ring i.destRing).valid then
        let s := s.modTile u fun c => c.setHead h false
        let s := if i.marker then s.countMarker u i.group.toNat i.index else s
        s.answerSend t id u (some 5)
      else if s.heldBack i k && !decide (((s.tile u).ring i.destRing).room < 1) then s
      else if ((s.tile u).ring i.destRing).room < 1 then
        s.modTile u fun c => (c.modRing i.destRing fun x => x.addWaiter (true, 3)).setHead h true
      else
        match (s.tile t).sendRead i k with
        | (c, .error (.page _ _)) => s.setTile t c
        | (c, .error (.code 4)) => (s.setTile t c).sendPageFault t i (i.offset c k)
        | (c, .error (.code _)) =>
          (s.setTile t (c.modSend id fun i => { i with stopAt := some k })).answerSend t id u (some 2)
        | (c, .ok bs) =>
          let more := decide ((k + 1) % 4 ≠ 0 && k + 1 < i.units)
          match (s.setTile t c).land u h (i.group.toNat, i.index) t more bs with
          | .landed s =>
            let s := s.modTile t fun c => c.modSend id fun i => i.modDest u fun d => { d with landed := k + 1 }
            if k + 1 < i.units then s
            else
              let s := if i.marker then s.countMarker u i.group.toNat i.index else s
              s.answerSend t id u none
          | _ => s
    | none => s
  | none => s

/-- A packet of a port may be delivered once no earlier packet of its port and channel is waiting (R278). -/
def State.inboundFirst (s : State) (k : Nat) (x : Inbound) : Bool :=
  (s.link.inbound.take k).all fun y => !(y.port == x.port && y.vc == x.vc)

/-- Frees the receive buffer of a packet that has left (R420, R436). -/
def State.freeInbound (s : State) (k : Nat) (x : Inbound) : State :=
  let s := { s with link := { s.link with inbound := s.link.inbound.eraseIdx k } }
  if x.port < 8 then
    if x.last then
      let r := s.road x.port
      (s.setRoad x.port { r with owed := NMap.set 0 r.owed x.vc (NMap.get 0 r.owed x.vc + 1) }).replyRoad x.port false
    else s
  else
    s.setEth (x.port - 8) ((s.ethPort (x.port - 8)).fillTo ((s.ethPort (x.port - 8)).rxFill - slotBytes x.packet))

/-- The last packet of a remote send has been dealt with: it is answered. The header tells a last packet by its end marker
or by fewer than four units; of a full packet without a marker it says nothing, and the name of the send is not in it
(free values). -/
def State.answerInbound (s : State) (h : PktHeader) (code : Option Nat) : State :=
  let a := s.free
  let last := h.marker || decide (h.units < 4) || a.1.getLsbD 0
  if last then
    let b := a.2.free
    b.2.answerRemote h.srcRank h.srcTile (b.1.toNat % 2 ^ 16) code
  else a.2

/-- The next unit of a packet that a port brought in lands (R427, R428). -/
def deliverLink (s : State) (k u : Nat) : State :=
  match s.link.inbound[k]? with
  | some x =>
    let h := PktHeader.parse x.packet.header
    let r : RingNo := BitVec.ofNat 5 h.destRing
    if h.destTile ≠ u || !s.inboundFirst k x then s
    else
      let side : HaulHead := ⟨linkSide x.port, tileCount + x.port, x.vc, r, decide (0 < x.landed)⟩
      let index := nearestIndex ((s.tile u).member h.group).index h.indexLo
      if !s.isLoaded u then (s.freeInbound k x).answerInbound h (some 1)
      else if !s.isolated u && !s.mayLand u side then s
      else
        match s.land u side (h.group, index) (2048 * (1 + x.partner.getD 0) + h.srcTile)
          (decide (x.landed + 1 < x.packet.units.length)) (x.packet.units.getD x.landed []) with
        | .isolated => (s.freeInbound k x).answerInbound h (some 1)
        | .undefined =>
          let s := if h.marker then s.countMarker u h.group index else s
          (s.freeInbound k x).answerInbound h (some 5)
        | .full s => s
        | .landed s =>
          if x.landed + 1 < x.packet.units.length then
            { s with link := { s.link with inbound := setAt s.link.inbound k { x with landed := x.landed + 1 } } }
          else
            let s := if h.marker then s.countMarker u h.group index else s
            (s.freeInbound k x).answerInbound h none
  | none => s

/-- HAUL_DELIVERY_UNIT. A packet of a port may name any tile number that its header can hold (R419, R428). -/
def execHaulDeliveryUnit (src : HaulSource) (dst : Nat) (s : State) : Out :=
  let wait := decide (dst < tileCount) && !(s.tile dst).mem.ready && !s.isolated dst
  match src with
  | .tile t id =>
    if tileCount ≤ t || tileCount ≤ dst then .fault .noSuchUnit else .next (if wait then s else deliverLocal s t id dst)
  | .link k => if 2048 ≤ dst then .fault .noSuchUnit else .next (if wait then s else deliverLink s k dst)

/-! ### Answers and failure records (R282, R302, R312) -/

/-- Untaken records that a tile holds (R302). -/
def recordDepth : Nat := 4

/-- Codes of the destinations that failed, with their tiles. -/
def SdItem.failures (i : SdItem) : List (BitVec 3 × Nat) :=
  i.dests.filterMap fun d => match d.answer with | some (some c) => some (c, d.tile) | _ => none

/-- HAUL_TILE_FAIL as a word (R312). -/
def haulFailWord (l : Latch (BitVec 3 × BitVec 16 × BitVec 11)) : Nat :=
  fieldAt (b2n l.valid) 31 + fieldAt l.value.1.toNat 28 + fieldAt l.value.2.1.toNat 11 + l.value.2.2.toNat

/-- Records a failed send, and raises SEND_FAIL (R302). -/
def State.recordSend (s : State) (t : Nat) (i : SdItem) (code : BitVec 3) (failed first : Nat) : State :=
  let c := s.tile t
  let r : SendFail := ⟨t, i.seq, code, failed, first⟩
  let w := (code, i.seq, BitVec.ofNat 11 first)
  let s := s.setTile t { c with sd := { c.sd with
    records := c.sd.records ++ [r], fail := c.sd.fail.note w } }
  s.raise 2 t (leBytes 4 (haulFailWord ⟨true, w⟩) ++ leBytes 2 failed)

/-- A send leaves the port: its queue entry is free and its source consumed (R60, R282). -/
def Tile.dropSend (c : Tile) (i : SdItem) : Tile :=
  let c := { c with sd := { c.sd with queue := c.sd.queue.filter fun j => j.id != i.id } }
  match i.ring with
  | some r => c.modRing r fun x => x.finish i.id
  | none => c

/-- Records a failed send: the lowest code stands for it, and code 2 above all (R302). (DEDUCED, log 52) -/
def State.recordFailures (s : State) (t : Nat) (i : SdItem) : State :=
  let fs := i.failures
  let codes := fs.map fun f => f.1.toNat
  let code := if codes.contains 2 then 2 else codes.foldl min 7
  s.recordSend t i (BitVec.ofNat 3 code) fs.length ((fs.map (·.2)).foldl min ((fs.map (·.2)).headD 0))

/-- Completes a send whose destinations have all answered; a failed one waits for a free record (R282, R302). The lowest
code stands for the send, and code 2 above all. -/
def State.finishSend (s : State) (t : Nat) (i : SdItem) : State :=
  match i.failures with
  | [] => (s.modTile t fun c => c.dropSend i).noteMet t
  | _ =>
    if recordDepth ≤ (s.tile t).sd.records.length then
      s.modTile t fun c => c.modSend i.id fun i => { i with waitRecord := true }
    else
      ((s.recordFailures t i).modTile t fun c => c.dropSend i).noteMet t

/-- SEND_RESPONSE_ARRIVE: the answer of a destination reaches the source (R282). -/
def sendResponse (s : State) (t id u : Nat) : State :=
  match (s.tile t).send? id with
  | some i =>
    if i.dests.any fun d => d.tile == u && d.answer.isSome && !d.arrived then
      let i' := i.modDest u fun d => { d with arrived := true }
      let s := s.modTile t fun c => c.modSend id fun _ => i'
      if i'.dests.all (·.arrived) then s.finishSend t i' else s
    else s
  | none => s

/-- Records of a step that firmware keeps for QUERY (R302). -/
def keptRecords : Nat := 4096

/-- SEND_FAIL_RECORD_TAKE: firmware takes the oldest record; a send that waited for it completes (R302). -/
def takeRecord (s : State) (t : Nat) : State :=
  let c := s.tile t
  match c.sd.records with
  | [] => s
  | r :: rest =>
    let s := s.setTile t { c with sd := { c.sd with records := rest } }
    let h := s.host
    let s := { s with host := { h with
      sendFails := if h.sendFails.length < keptRecords then h.sendFails ++ [SendRecord.mk r.tile r.seq r.code r.failed r.first]
                   else h.sendFails
      sendFailCount := h.sendFailCount + 1
      sendIsolated := h.sendIsolated || r.code == 1 || r.code == 5 } }
    match (s.tile t).sd.queue.find? fun i => i.waitRecord with
    | some i => s.finishSend t i
    | none => s

/-- Takes every record of a tile; the fuel bounds the sends that wait for one. -/
def takeRecords (t : Nat) : Nat → State → State
  | 0, s => s
  | n + 1, s => if (s.tile t).sd.records.isEmpty then s else takeRecords t n (takeRecord s t)

/-- What an engine reset makes of the destinations of a send: one whose acknowledgement has arrived is done, a tile that is being
retired answers as isolated, the rest is aborted (R80, R300, R483). -/
def SdItem.abortAll (i : SdItem) (gone : List Nat) : SdItem :=
  { i with dests := i.dests.map fun d =>
      match d.answer with
      | some (some _) => d
      | some none => if d.arrived then d else { d with answer := some (some 4) }
      | none => { d with answer := some (some (if i.remote.isNone && gone.contains d.tile then 1 else 4)) } }

/-- An engine reset ends every send: each reports ABORTED_BY_RESET and its claim is released (R80). -/
def State.sendAbort (s : State) (t : Nat) (gone : List Nat) : State :=
  let items := (s.tile t).sd.queue
  let s := s.modTile t fun c => { c with sd := { c.sd with queue := [] } }
  items.foldl (fun s i =>
    let s := s.modTile t fun c => match i.ring with | some r => c.modRing r fun x => x.release i.id | none => c
    takeRecords t 1 (s.recordFailures t (i.abortAll gone))) s

def execSendStart (t : Nat) (s : State) : Out := engineStep t sendStart s
def execSendResponseArrive (t id dst : Nat) (s : State) : Out :=
  if tileCount ≤ dst then .fault .noSuchUnit else engineStep t (fun s t => sendResponse s t id dst) s
def execSendFailRecordTake (t : Nat) (s : State) : Out :=
  if tileCount ≤ t then .fault .noSuchUnit else .next (takeRecord s t)

end Sys2Proof.Machine
end

