-- ==== Sys2Proof/Machine/Bells.lean ====
section
/-! DEFINITION. Bells: payloads, frames, firing and the phase ledger (R285, R287 to R297, R356 to R359, R429, R430). -/
namespace Sys2Proof.Machine

/-! ### Payloads (R293 to R295, R430) -/

/-- Bell kind of frames and records: 0 cut, 1 haul, 2 final (R308, R429). -/
def BellPhase.code : BellPhase → Nat
  | .cut => 0
  | .haul => 1
  | .final => 2
  | .done => 3

/-- Reduction of the contributions of one slot, in order (R293, R294). -/
def reduceSlot (op : BitVec 2) (vs : List Word32) : Word32 :=
  match op.toNat with
  | 0 => vs.foldl (fun a b => if a.toNat < b.toNat then b else a) 0
  | 1 => sumTree vs.length vs
  | 2 => vs.foldl (· ||| ·) 0
  | _ => 0

/-- What a member contributes to slot i of the bell its group is at (R289, R293, R296, R301). -/
def State.contribution (s : State) (g i t : Nat) : Option Word32 :=
  let m := (s.tile t).member g
  if m.excused || ((s.group g).phase == .haul && m.rolled) || !m.mask.getLsbD i then none else m.lanes[i]?

/-- The device's own result of each slot: whether a member contributed, and the value (R294, R429). -/
def State.localSlots (s : State) (g : Nat) : List (Bool × Word32) :=
  (List.range 8).map fun i =>
    let vs := (s.group g).members.filterMap (s.contribution g i)
    (!vs.isEmpty, reduceSlot ((s.group g).ops.getD i 3) vs)

/-- The frame belongs to the bell the group is at (R430). -/
def PeerFrame.isFor (f : PeerFrame) (G : BellGroup) : Bool := f.kind.toNat == G.phase.code && f.index == G.index

/-- Every peer's frame for the bell is there (R291). -/
def BellGroup.framesHere (G : BellGroup) : Bool :=
  G.peers.all fun p => G.frames.any fun f => f.isFor G && f.rank == p.1

/-- The reduced payload: the device's results, or on an extended group the results by ascending rank (R293, R295, R430). -/
def State.payload (s : State) (g : Nat) : List Word32 :=
  let G := s.group g
  let own := s.localSlots g
  if G.peers.isEmpty then own.map (·.2)
  else
    (List.range 8).map fun i =>
      let vs := (List.range 256).filterMap fun r =>
        if r = G.rank then (let x := own.getD i (false, 0); if x.1 then some x.2 else none)
        else
          match G.frames.find? fun f => f.isFor G && f.rank == r with
          | some f => if f.contributed.getLsbD i then f.lanes[i]? else none
          | none => none
      reduceSlot (G.ops.getD i 3) vs

/-! ### Bell frames (R429, R430) -/

/-- Attempt of the running step, 0 for its first run (R429). -/
def State.attemptNo (s : State) : Nat :=
  match s.step with
  | some r => r.attempt
  | none => 0

/-- The bell frame of the bell that a group is at (R429). -/
def State.bellFrame (s : State) (g : Nat) : List Byte :=
  let G := s.group g
  let slots := s.localSlots g
  let mask := ((slots.zip (List.range 8)).map fun p => fieldAt (b2n p.1.1) p.2).foldl (· + ·) 0
  fit 0 64 (leBytes 1 1 ++ leBytes 1 (g + fieldAt G.phase.code 4) ++ leBytes 1 G.rank ++ leBytes 1 mask ++ leBytes 4 G.index
    ++ leBytes 8 s.stepNo.toNat ++ leBytes 4 s.attemptNo ++ leBytes 4 0 ++ slots.flatMap fun p => leBytes 4 p.2.toNat)

/-- The group's condition holds and every frame is there: its timer stops and it is firing (R291, R292). -/
def State.checkHolding (s : State) (g : Nat) : State :=
  let G := s.group g
  if G.localHeld && !G.holding && G.framesHere then
    s.setGroup g { G with holding := true, heldAt := s.clock.tick, timerLimit := none }
  else s

/-- BELL_CONDITION_HOLDS: the local condition comes to hold; frames go to the peers (R288, R291, R292, R429).
(DEDUCED, log 51) -/
def bellConditionHolds (s : State) (g : Nat) : State :=
  let G := s.group g
  if !s.localCondition g || G.localHeld || !G.probed.isEmpty || (s.step.map (·.stopped)).getD false then s
  else
    let s := s.setGroup g { G with localHeld := true }
    let frame := s.bellFrame g
    (G.peers.foldl (fun s p => s.sendControl p.2 2 0 frame) s).checkHolding g

/-- Frames discarded (R430). -/
def State.discardFrame (s : State) : State :=
  { s with link := { s.link with discarded := BitVec.ofNat 32 (satInc 32 s.link.discarded.toNat 1) } }

/-- Place of a bell in the course of a step (R287). -/
def bellOrder (kind index : Nat) : Nat := if kind = 1 then 2 * index + 1 else 2 * index

/-- BELL_FRAME_RECEIVE: kept against its bell, or discarded and counted (R430). -/
def bellFrameReceive (s : State) (f : List Byte) : State :=
  let g := leAt f 1 1 % 8
  let kind := leAt f 1 1 / 16 % 4
  let rank := leAt f 2 1
  let index := leAt f 4 4
  let G := s.group g
  let repeated := G.frames.any fun x => x.kind.toNat == kind && x.index == index && x.rank == rank
  if kind = 3 then s
  else if leAt f 0 1 ≠ 1 || s.step.isNone || leAt f 8 8 ≠ s.stepNo.toNat || leAt f 0x10 4 ≠ s.attemptNo || repeated
      || !(G.peers.any fun p => p.1 == rank) || bellOrder kind index < bellOrder G.phase.code G.index then s.discardFrame
  else
    let x : PeerFrame :=
      { rank := rank, step := BitVec.ofNat 64 (leAt f 8 8), kind := BitVec.ofNat 2 kind, index := index
        contributed := BitVec.ofNat 8 (leAt f 3 1), lanes := (List.range 8).map fun i => BitVec.ofNat 32 (leAt f (0x18 + 4 * i) 4) }
    (s.setGroup g { G with frames := G.frames ++ [x] }).checkHolding g

/-! ### The phase ledger (R356 to R359) -/

/-- The group that the ledger follows, when it is loaded (R356, R369). -/
def State.ledgerGroup (s : State) : Option Nat :=
  if s.train.ledgerGroup.toNat < 8 then
    (if (s.group s.train.ledgerGroup.toNat).loaded then some s.train.ledgerGroup.toNat else none)
  else (List.range 8).find? fun g => (s.group g).loaded

/-- A field in ns that saturates (R358). -/
def nsField (a b : Nat) : Nat := min (a - b) (2 ^ 32 - 1)

/-- The tile with the latest time, lowest number first. -/
def latest (ts : List (Nat × Nat)) : Nat × Nat :=
  ts.foldl (fun a b => if a.2 < b.2 then b else a) (ts.headD (0, 0))

/-- Members of a group in a bench. -/
def State.benchMembers (s : State) (g b : Nat) : List Nat := (s.group g).members.filter fun t => s.tb t == b

/-- What the collectors hold after a cut bell or a final bell: arrivals and empty cuts by bench (R357). (DEDUCED, log 62) -/
def State.collect (s : State) (g : Nat) : List BenchTimes :=
  (List.range 6).filterMap fun b =>
    let ms := s.benchMembers g b
    if ms.isEmpty then none
    else
      let l := latest (ms.filterMap fun t =>
        let m := (s.tile t).member g
        if m.excused then none else some (t, m.arriveTime))
      some ⟨b, l.2, l.1, (ms.filter fun t => ((s.tile t).member g).emptyCut).length⟩

/-- Appends an entry to the ledger ring (R359). -/
def State.ledgerPut (s : State) (e : List Byte) : State :=
  let t := s.train
  let n := 2 ^ t.ledgerLog2
  if (t.ledgerWrite - t.ledgerRead).toNat = n then
    { s with train := { t with ledgerLost := BitVec.ofNat 32 (satInc 32 t.ledgerLost.toNat 1) } }
  else
    let s := s.mainPut (t.ledgerBase.toNat + 64 * (t.ledgerWrite.toNat % n)) e
    { s with train := { s.train with ledgerWrite := t.ledgerWrite + 1 } }

/-- One entry per bench at a haul bell or at the final bell (R356, R358). -/
def State.ledgerWriteAll (s : State) (g : Nat) (final : Bool) : State :=
  let G := s.group g
  if !s.train.ledgerEnable || s.ledgerGroup ≠ some g || s.step.isNone then s
  else
    let times := if final then s.collect g else G.cutTimes
    times.foldl (fun s x =>
      let ms := s.benchMembers g x.bench
      let h := latest (ms.map fun t => (t, ((s.tile t).member g).metTime))
      let excused := ms.any fun t => ((s.tile t).member g).excused
      let flags := b2n final + fieldAt (b2n (decide (0 < s.attemptNo))) 1 + fieldAt (b2n s.inEval) 2
        + fieldAt (b2n (!final && ms.any fun t => ((s.tile t).member g).rolled)) 3
        + fieldAt (b2n (G.dividedBenches.contains x.bench)) 4 + fieldAt (b2n excused) 5
      let cutEnd := if final then s.now else G.tCut
      s.ledgerPut (fit 0 64 (leBytes 8 s.stepNo.toNat ++ leBytes 4 G.index ++ leBytes 1 x.bench ++ leBytes 1 g
        ++ leBytes 1 (if G.peers.isEmpty then 0 else G.rank) ++ leBytes 1 flags ++ leBytes 8 G.tRel
        ++ leBytes 4 (nsField x.tArr G.tRel) ++ leBytes 4 (nsField cutEnd x.tArr)
        ++ leBytes 4 (if final then 0 else nsField h.2 G.tCut) ++ leBytes 4 (if final then 0 else nsField s.now h.2)
        ++ leBytes 2 ms.length ++ leBytes 2 x.empty ++ leBytes 2 x.lastTile ++ leBytes 2 (if final then 0 else h.1)))) s

/-! ### Firing (R285, R287, R289, R290, R296) -/

/-- Lanes 0 to 7 of the vector register take the payload (R290). -/
def Tile.takePayload (c : Tile) (r : Option VReg) (pay : List Word32) : Tile :=
  match r with
  | some v => c.setV v (lanes fun i => if i < 8 then pay.getD i 0 else lane (c.vreg v) i)
  | none => c

/-- The S-core goes on after its bell. -/
def Tile.goOn (c : Tile) : Tile :=
  if c.core.run == .atBell || c.core.run == .emptyCut then
    { c with core := { c.core with run := if c.core.halt then .halted else .running } }
  else c

/-- Markers beyond the expectation of a superstep whose haul bell fires (R285). -/
def Tile.countExcess (c : Tile) (g n : Nat) : Tile :=
  let m := c.member g
  let exceeds := NMap.get 0 m.markers n - NMap.get 0 m.expect n
  { c with sd := { c.sd with excess := BitVec.ofNat 8 (satInc 8 c.sd.excess.toNat exceeds) } }

/-- A superstep of a group is over for a ring: its deliveries are forgotten (R281). -/
def Ring.endSuperstep (x : Ring) (g n : Nat) : Ring :=
  { x with sources := x.sources.filter fun e => !(e.1 == g && decide (e.2.1 ≤ n))
           multi := x.multi.filter fun e => !(e.1 == g && decide (e.2 ≤ n)) }

/-- A tile's standing after a bell of group g fires; the send group becomes that of the BELL it passes (R283). -/
def State.releaseMember (s : State) (g : Nat) (pay : List Word32) (t : Nat) : State :=
  let G := s.group g
  let c := s.tile t
  let m := c.member g
  let pass (c : Tile) (m : Member) : Tile :=
    let c := c.setMember g { m with arrived := false, met := false, counted := false, reg := none, emptyCut := false }
    { c with sd := { c.sd with sendGroup := BitVec.ofNat 3 g } }
  match G.phase with
  | .cut => if m.excused then s else s.setTile t ((pass (c.takePayload m.reg pay) { m with phase := .haul }).goOn)
  | .haul =>
    let c := { c.countExcess g G.index with rings := c.rings.map fun x => x.endSuperstep g G.index }
    if m.excused then s.setTile t c
    else if m.rolled then s.setTile t (c.setMember g { m with rolled := false, met := false, counted := false })
    else
      s.setTile t ((pass (c.takePayload m.reg pay)
        { m with phase := afterHaul s.supersteps m.index, index := m.index + 1 }).goOn)
  | .final =>
    if m.excused then s
    else
      let c := c.setMember g { m with phase := .done }
      if (s.groupsOf t).all fun h => (c.member h).phase == .done || (c.member h).excused then
        let named := (s.groupsOf t).find? fun h => (c.member h).reg.isSome
        let c := (s.groupsOf t).foldl (fun c h =>
          c.takePayload (c.member h).reg (if h = g then pay else (s.group h).payload)) c
        s.setTile t { c with
          core := { c.core with run := .halted, halt := true }
          sd := { c.sd with sendGroup := BitVec.ofNat 3 (named.getD g) } }
      else s.setTile t c
  | .done => s

/-- The group after its bell fires: the next bell, and its timer (R287, R292). -/
def BellGroup.fired (G : BellGroup) (s : State) (pay : List Word32) : BellGroup :=
  let next := match G.phase with | .cut => .haul | .haul => afterHaul s.supersteps G.index | _ => .done
  let runs := s.step.isSome && next != .done && !((s.step.map fun r => r.programFault || r.stopped).getD false)
  { G with
    phase := next, index := if G.phase == .haul then G.index + 1 else G.index, fires := G.fires + 1
    latency := BitVec.ofNat 32 (s.clock.tick - G.heldAt), payload := pay, localHeld := false, holding := false
    frames := G.frames.filter fun f => !f.isFor G
    timerStart := s.now, timerLimit := if runs then some (s.bell.timeoutMs.toNat * 1000000) else none
    tRel := if G.phase == .haul then s.now else G.tRel, tCut := if G.phase == .cut then s.now else G.tCut
    dividedBenches := if G.phase == .haul then (List.range 6).filter fun b => s.effective b != 0 else G.dividedBenches }

/-- BELL_FIRE (R290). -/
def bellFire (s : State) (g : Nat) : State :=
  let G := s.group g
  if !G.holding || (s.step.map (·.stopped)).getD false then s
  else
    let s := s.noteAllDivided
    let G := s.group g
    let pay := s.payload g
    let times := s.collect g
    let s := if G.phase == .haul then s.ledgerWriteAll g false else if G.phase == .final then s.ledgerWriteAll g true else s
    let s := G.members.foldl (fun s t => s.releaseMember g pay t) s
    let s := s.setGroup g { (s.group g).fired s pay with cutTimes := if G.phase == .cut then times else G.cutTimes }
    G.members.foldl (fun s t => s.noteMet t) s

def execBellConditionHolds (g : Nat) (s : State) : Out := if 8 ≤ g then .fault .noSuchUnit else .next (bellConditionHolds s g)
def execBellFire (g : Nat) (s : State) : Out := if 8 ≤ g then .fault .noSuchUnit else .next (bellFire s g)
def execBellFrameReceive (frame : List Byte) (s : State) : Out := .next (bellFrameReceive s frame)

end Sys2Proof.Machine
end

