-- ==== Sys2Proof/Machine/Digest.lean ====
section
/-! DEFINITION. The digest tree (R474). -/
namespace Sys2Proof.Machine

/-- 32 bytes of SHAKE256. -/
def shake32 (m : List Byte) : List Byte := shake256 m 32

/-- Bytes of a chunk (R474). -/
def chunkBytes : Nat := 65536

/-- Chunks of a string. -/
def chunksOf (bs : List Byte) : List (List Byte) := chunks chunkBytes bs.length bs

/-- leaf[j] of a chunk. -/
def digestLeaf (j : Nat) (chunk : List Byte) : List Byte := shake32 (0x00 :: leBytes 8 j ++ chunk)

/-- The leaves of a string. -/
def digestLeaves (bs : List Byte) : List (List Byte) :=
  ((chunksOf bs).zip (List.range bs.length)).map fun p => digestLeaf p.2 p.1

/-- One level up: pairs are hashed, and an odd last entry passes up unchanged. -/
def digestLevel : List (List Byte) → List (List Byte)
  | a :: b :: rest => shake32 (0x01 :: a ++ b) :: digestLevel rest
  | l => l

/-- Levels until one entry is left; the fuel bounds them. -/
def digestTop : Nat → List (List Byte) → List Byte
  | _, [] => leBytes 32 Config.emptyLeaf.toNat
  | _, [a] => a
  | 0, a :: _ => a
  | n + 1, l => digestTop n (digestLevel l)

/-- The root over n bytes, from the leaves. -/
def rootOf (n : Nat) (leaves : List (List Byte)) : List Byte :=
  shake32 (0x02 :: leBytes 8 n ++ digestTop leaves.length leaves)

/-- The digest of a byte string. -/
def digest (bs : List Byte) : List Byte := rootOf bs.length (digestLeaves bs)

end Sys2Proof.Machine
end

