-- ==== Sys2Proof/Machine/HostCore.lean ====
section
/-! DEFINITION. Queues, packets, scheduling, the journal and completions (R387 to R409, R513). -/
namespace Sys2Proof.Machine

/-! ### Packets (R396 to R400, R403, R405) -/

/-- Status codes (R403). -/
inductive CmdStatus where
  | ok | badPacket | notReady | abortedByReset | queueAborted | tileFault | bellTimeout | haulTargetIsolated
  | spareExhausted | digestMismatch | profileMismatch | gradeMismatch | partnerSharesFeed | pageFaultUnresolved
  | memoryUncorrectable | powerCapped | hostError
deriving DecidableEq, Repr

def CmdStatus.code : CmdStatus → Nat
  | .ok => 0 | .badPacket => 1 | .notReady => 2 | .abortedByReset => 3 | .queueAborted => 4 | .tileFault => 5
  | .bellTimeout => 6 | .haulTargetIsolated => 7 | .spareExhausted => 8 | .digestMismatch => 9 | .profileMismatch => 10
  | .gradeMismatch => 11 | .partnerSharesFeed => 12 | .pageFaultUnresolved => 13 | .memoryUncorrectable => 14
  | .powerCapped => 15 | .hostError => 16

/-- Scheduling classes (R405). -/
inductive CmdClass where
  | compute | held | transfer | order | information | control
deriving DecidableEq, Repr

/-- What R399 and R400 say of an opcode: class, admin queue only?, flags it uses, parameter fields as (offset, size). -/
structure OpSpec where
  cls : CmdClass
  admin : Bool
  flags : Nat
  fields : List (Nat × Nat)
deriving DecidableEq, Repr

/-- The opcodes (R399, R400). -/
def opSpec : Nat → Option OpSpec
  | 0x01 => some ⟨.compute, false, 1, [(8, 24)]⟩
  | 0x02 => some ⟨.compute, false, 3, [(8, 12), (0x18, 8)]⟩
  | 0x03 => some ⟨.compute, false, 3, [(8, 24)]⟩
  | 0x04 => some ⟨.compute, false, 1, [(8, 32)]⟩
  | 0x05 => some ⟨.transfer, false, 1, [(8, 3)]⟩
  | 0x06 => some ⟨.compute, false, 9, [(8, 1), (0x0A, 2), (0x10, 16)]⟩
  | 0x07 => some ⟨.held, true, 17, [(8, 5), (0x10, 26)]⟩
  | 0x08 => some ⟨.held, true, 1, [(8, 2)]⟩
  | 0x09 => some ⟨.held, false, 1, [(8, 17)]⟩
  | 0x0A => some ⟨.held, false, 1, [(8, 16)]⟩
  | 0x0B => some ⟨.transfer, false, 1, [(8, 25)]⟩
  | 0x0C => some ⟨.order, false, 1, [(8, 1)]⟩
  | 0x0D => some ⟨.information, false, 1, [(8, 2), (0x0C, 8), (0x18, 12)]⟩
  | 0x0E => some ⟨.information, false, 1, [(8, 4), (0x10, 12)]⟩
  | 0x0F => some ⟨.control, true, 1, [(8, 6)]⟩
  | 0x10 => some ⟨.control, true, 1, [(8, 1), (0x0C, 2)]⟩
  | 0x11 => some ⟨.control, true, 5, []⟩
  | 0x12 => some ⟨.compute, true, 1, [(8, 2)]⟩
  | 0x13 => some ⟨.information, false, 1, [(8, 44)]⟩
  | 0x14 => some ⟨.control, true, 1, [(8, 17)]⟩
  | _ => none

def Held.op (h : Held) : Nat := leAt h.packet 0 1
def Held.flag (h : Held) (b : Nat) : Bool := natBit (leAt h.packet 1 1) b
def Held.field (h : Held) (o n : Nat) : Nat := leAt h.packet o n

/-- Port numbers that a path admits (R411): HR0 to HR7 are 0 to 7, E0 to E3 are 8 to 11. -/
def portOk (path port : Nat) : Bool := if path = 0 then decide (port < 8) else decide (8 ≤ port) && decide (port < 12)

/-- Parameters of an opcode that are out of range whatever the device's state, with their offsets (R398, R400, R411, R515). -/
def rangeFaults (p : List Byte) : List (Nat × Bool) :=
  let f := leAt p
  match f 0 1 with
  | 0x02 => [(0x10, f 0x10 4 = 0 || 65535 < f 0x10 4)]
  | 0x05 => [(8, 4095 < f 8 2), (0x0A, 2 < f 0x0A 1)]
  | 0x06 => [(8, 1 < f 8 1), (0x0A, 4095 < f 0x0A 2)]
  | 0x07 =>
    if f 0x10 8 = Config.identity.toNat then
      [(8, 4095 < f 8 2), (0x0A, f 0x0A 1 ≠ 0), (0x18, f 0x18 16 ≠ 0), (0x28, f 0x28 2 ≠ 0)]
    else [(8, 4095 < f 8 2), (0x0A, 1 < f 0x0A 1), (0x0B, !portOk (f 0x0A 1) (f 0x0B 1))]
  | 0x08 => [(8, 4095 < f 8 2)]
  | 0x09 => [(0x18, 3 < f 0x18 1)]
  | 0x0A => [(0x10, 8192 < f 0x10 2), (0x12, 1 < f 0x12 1), (0x13, 24 < f 0x13 1)]
  | 0x0B => [(0x18, f 0x18 8 % 8 ≠ 0 || f 0x18 8 < 8 || 2 ^ 32 < f 0x18 8), (0x20, 2 < f 0x20 1)]
  | 0x0C => [(8, 1 < f 8 1)]
  | 0x0D => [(8, 10 < f 8 2)]
  | 0x0F =>
    [(8, 3 < f 8 1),
     (9, (f 8 1 = 0 && f 9 1 ≠ 1) || (f 8 1 = 1 && f 9 1 ≠ 2 && f 9 1 ≠ 4) || (f 9 1 ≠ 1 && f 9 1 ≠ 2 && f 9 1 ≠ 4)),
     (0x0A, 2 < f 0x0A 1 || (2 ≤ f 8 1 && f 0x0A 1 = 2)),
     (0x0B, (f 0x0A 1 = 1 && 1 < f 0x0B 1) || (f 0x0A 1 = 2 && 5 < f 0x0B 1)),
     (0x0C, f 0x0C 2 ≠ 0 && (f 0x0C 2 < 1200 || 3000 < f 0x0C 2))]
  | 0x10 =>
    [(8, 4 < f 8 1), (0x0C, decide (([1536, 6, 2, 12, 32] : List Nat).getD (f 8 1) 0 ≤ f 0x0C 2))]
  | 0x12 => [(8, 1536 ≤ f 8 2)]
  | 0x14 => [(0x18, 2 < f 0x18 1)]
  | _ => []

/-- Nonzero bytes outside the fields of an opcode (R396). -/
def reservedFaults (sp : OpSpec) (p : List Byte) : List (Nat × Bool) :=
  (rangeFrom 8 56).map fun o =>
    (o, (sp.fields.all fun f => decide (o < f.1) || decide (f.1 + f.2 ≤ o)) && leAt p o 1 ≠ 0)

/-- Offset of the first faulty field (R398). -/
def firstFault (l : List (Nat × Bool)) : Option Nat :=
  l.foldl (fun a x => if !x.2 then a else match a with | none => some x.1 | some o => some (min o x.1)) none

/-- Opcodes that run before ready (R374). -/
def earlyOp (op : Nat) : Bool := ([0x0C, 0x0D, 0x0E, 0x11, 0x13, 0x14] : List Nat).contains op

/-- How a packet is refused when it is fetched; none when it is accepted (R374, R396, R398, R399). (DEDUCED, log 66) -/
def State.refuse (s : State) (q : Nat) (p : List Byte) : Option (CmdStatus × Nat) :=
  match opSpec (leAt p 0 1) with
  | none => some (.badPacket, 0)
  | some sp =>
    if !s.pw.ready && !earlyOp (leAt p 0 1) then some (.notReady, 0)
    else if sp.admin && q ≠ 0 then some (.badPacket, 0)
    else if (setBits (leAt p 1 1) 8 0).any fun b => !natBit sp.flags b then some (.badPacket, 1)
    else (firstFault (reservedFaults sp p ++ rangeFaults p)).map fun o => (.badPacket, o)

/-! ### Held commands and completions (R392, R394, R397, R404, R405, R513) -/

def State.held? (s : State) (n : Nat) : Option Held := s.host.held.find? fun h => h.n == n

/-- Compute and held commands take effect in start order (R405). (DEDUCED, log 67) -/
def Held.serial (h : Held) : Bool :=
  match opSpec h.op with
  | some sp => sp.cls == .compute || sp.cls == .held
  | none => false

def Held.isFence (h : Held) : Bool := (opSpec h.op).any fun sp => sp.cls == .order

/-- A command fetched earlier holds this one back (R304, R405). -/
def Held.blocks (p h : Held) : Bool :=
  (p.isFence && p.queue == h.queue) || (p.serial && h.serial) || (h.isFence && (h.field 8 1 = 1 || p.queue == h.queue))

/-- No earlier command holds it back. -/
def State.mayStart (s : State) (h : Held) : Bool := (s.host.held.takeWhile fun p => p.n != h.n).all fun p => !p.blocks h

/-- A command's row: packet n, of this opcode, fetched and free to start. -/
def startHeld (op n : Nat) (k : State → Held → State) (s : State) : Out :=
  match s.held? n with
  | some h => if h.op = op && h.phase == .waiting && s.mayStart h then .next (k s h) else .next s
  | none => .next s

/-- The row that ends a command under way. -/
def endHeld (op n : Nat) (k : State → Held → State) (s : State) : Out :=
  match s.held? n with
  | some h => if h.op = op && h.phase == .running then .next (k s h) else .next s
  | none => .next s

/-- The command goes on in a later row. -/
def State.setRunning (s : State) (n : Nat) : State :=
  { s with host := { s.host with held := s.host.held.map fun h => if h.n = n then { h with phase := .running } else h } }

/-- A command completes: its completion waits to be written (R394, R397). -/
def State.complete (s : State) (n : Nat) (st : CmdStatus) (detail result : Nat) (replayed : Bool) : State :=
  match s.held? n with
  | none => s
  | some h =>
    let d : Done :=
      { queue := h.queue, seq := h.field 4 4, tag := h.field 2 2, status := st.code, opcode := h.op,
        detail := detail % 2 ^ 64, result := result % 2 ^ 64, replayed := replayed, irq := !h.flag 0, slot := some h.slot }
    { s with host := { s.host with held := s.host.held.filter (·.n != n), done := s.host.done ++ [d] } }

def State.queue (s : State) (q : Nat) : Queue := NMap.get Queue.init s.host.queues q
def State.setQueue (s : State) (q : Nat) (x : Queue) : State :=
  { s with host := { s.host with queues := NMap.set Queue.init s.host.queues q x } }

/-- Slots of a queue (R389). -/
def Queue.entries (x : Queue) : Nat := x.lastEntry.toNat + 1

/-- Commands of a queue fetched and without a written completion (R389, R393). -/
def State.inFlight (s : State) (q : Nat) : Nat :=
  (s.host.held.filter (·.queue == q)).length + (s.host.done.filter fun d => d.queue == q && d.slot.isSome).length

def QueueState.code : QueueState → Nat
  | .disabled => 0 | .active => 1 | .disabling => 2 | .error => 3

/-- QUEUE_STATUS (R389). -/
def State.queueStatus (s : State) (q : Nat) : Nat :=
  fieldAt (s.queue q).state.code 30 + fieldAt (s.queue q).error.toNat 28 + s.inFlight q % 2 ^ 16

/-- A queue enters the error state (R392). -/
def State.queueError (s : State) (q : Nat) (e : BitVec 2) : State :=
  if (s.queue q).state == .error then s
  else
    let s := s.setQueue q { s.queue q with state := .error, error := e }
    s.raise 8 q (leBytes 4 (s.queueStatus q))

/-- Status reply (R397). -/
def Done.reply (d : Done) (sqHead : Nat) (phase : Bool) : List Byte :=
  fit 0 32 (leBytes 4 d.seq ++ leBytes 2 d.tag ++ leBytes 2 d.status ++ leBytes 2 sqHead ++ leBytes 1 d.queue
    ++ leBytes 1 (b2n phase + fieldAt (b2n d.replayed) 1) ++ leBytes 4 d.opcode ++ leBytes 8 d.detail ++ leBytes 8 d.result)

/-- Removes the first waiting completion of a queue. -/
def dropDone (q : Nat) : List Done → List Done
  | [] => []
  | d :: ds => if d.queue = q then ds else d :: dropDone q ds

def State.putHost (s : State) (a : Nat) (bs : List Byte) : State :=
  { s with host := { s.host with mem := NMap.setRun 0 s.host.mem a bs } }
/-- (DESIGN CHOICE, log 7) -/
def State.getHost (s : State) (a n : Nat) : List Byte := NMap.getRun 0 s.host.mem a n

/-- The queue has a free completion slot (R394): as for the SQ, the CQ is full with its tail one slot behind its head.
(DEDUCED, log 65) -/
def Queue.hasRoom (x : Queue) : Bool := (x.cqTail + 1) % x.entries != x.cqHead

/-- COMPLETION_WRITE (R392, R394, R397, R408, R513). -/
def completionWrite (s : State) (q : Nat) (h : HostReply) : State :=
  let x := s.queue q
  match s.host.done.find? (·.queue == q) with
  | none => s
  | some d =>
    if !x.hasRoom || x.state == .disabled then s
    else
      let s := { s with host := { s.host with done := dropDone q s.host.done } }
      let bytes := d.reply x.sqHead x.phase
      match s.hostAnswer h with
      | .fail e =>
        let s := s.hostFailed e
        let s := match d.slot with
          | some k =>
            let j := NMap.get (Journal.mk [] 0 false []) s.host.journal k
            { s with host := { s.host with journal := NMap.put s.host.journal k { j with unwritten := true, reply := bytes } } }
          | none => s
        s.queueError q 2
      | .ok =>
        let s := s.putHost (x.cqBase.toNat + 32 * x.cqTail) bytes
        let wraps := x.cqTail + 1 = x.entries
        let s := s.setQueue q { x with cqTail := (x.cqTail + 1) % x.entries, phase := if wraps then !x.phase else x.phase }
        let s := match d.slot with
          | some k => { s with host := { s.host with journal := NMap.drop s.host.journal k } }
          | none => s
        if x.irqEnable && d.irq then s.raiseVector x.vector.toNat else s

/-! ### Fetching (R391, R392, R395, R398, R404, R520) -/

/-- Commands held at most (R404), and entries of the journal (R511). -/
def heldLimit : Nat := 256

def State.priorityOf (s : State) (q : Nat) : Nat := if q = 0 then 0 else (s.queue q).priority.toNat

/-- A slot of the queue may be fetched: announced, and every report of R395 written. -/
def State.fetchable (s : State) (q : Nat) : Bool :=
  (s.queue q).state == .active && (s.queue q).sqHead != (s.queue q).sqTail
    && !(s.host.done.any fun d => d.queue == q && d.slot.isNone)

/-- The queue that the scheduler selects (R404). -/
def State.fetchQueue (s : State) : Option Nat :=
  let ready := (List.range 64).filter s.fetchable
  match (List.range 4).find? fun p => ready.any fun q => s.priorityOf q == p with
  | none => none
  | some p =>
    let l := ready.filter fun q => s.priorityOf q == p
    match l.find? fun q => decide (NMap.get 63 s.host.rr p < q) with
    | some q => some q
    | none => l.head?

/-- Slot of a new journal entry: the lowest free one, or the lowest that holds an unwritten completion (R513).
(DEDUCED, log 64) -/
def State.journalSlot (s : State) : Option Nat :=
  match (List.range heldLimit).find? fun k => !(s.host.journal.any fun p => p.1 == k) with
  | some k => some k
  | none => (s.host.journal.find? fun p => p.2.unwritten).map (·.1)

/-- PACKET_FETCH (R392, R398, R404, R513). -/
def packetFetch (s : State) (h : HostReply) : State :=
  match s.fetchQueue, s.journalSlot with
  | some q, some k =>
    if !s.pw.diagReady || s.host.d3hot || heldLimit ≤ s.host.held.length then s
    else
      let x := s.queue q
      match s.hostAnswer h with
      | .fail e => (s.hostFailed e).queueError q 1
      | .ok =>
        let p := s.getHost (x.sqBase.toNat + 64 * x.sqHead) 64
        let n := s.host.nextStart
        let good := leAt p 4 4 = x.nextSeq.toNat
        let s := s.setQueue q { x with
          sqHead := (x.sqHead + 1) % x.entries, nextSeq := if good then x.nextSeq + 1 else x.nextSeq }
        let s := { s with host := { s.host with
          held := s.host.held ++ [Held.mk n q p k .waiting]
          journal := NMap.put s.host.journal k (Journal.mk p q false [])
          nextStart := n + 1
          rr := NMap.set 63 s.host.rr (s.priorityOf q) q } }
        if !good then s.complete n .badPacket (2 ^ 63 + x.nextSeq.toNat) 0 false
        else
          match s.refuse q p with
          | some r => s.complete n r.1 r.2 0 false
          | none => s
  | _, _ => s

/-! ### Queue registers and doorbells (R388 to R393, R395) -/

/-- Reports of the commands that a reset lost (R395); they hold no journal slot. -/
def lostReports (q : Nat) (lost : LostReport) (journal : NMap Journal) : List Done :=
  let base : Done :=
    { queue := q, seq := 0, tag := 0xFFFF, status := CmdStatus.queueAborted.code, opcode := 0, detail := 0, result := 0,
      replayed := false, irq := true, slot := none }
  match lost with
  | .none => []
  | .unknown => [{ base with detail := 2 ^ 64 - 1 }]
  | .range lo hi => [{ base with detail := lo + fieldAt hi 32 }]
  | .each =>
    (journal.filter fun p => p.2.queue == q && !p.2.unwritten).map fun p =>
      { base with seq := leAt p.2.packet 4 4, tag := leAt p.2.packet 2 2, status := CmdStatus.abortedByReset.code
                  opcode := leAt p.2.packet 0 1, irq := !natBit (leAt p.2.packet 1 1) 0 }

/-- QUEUE_ENABLE: pointers to zero, phase 1, and the reports of R395 (R390). -/
def State.enableQueue (s : State) (q : Nat) : State :=
  let x := s.queue q
  let lost := lostReports q x.lost s.host.journal
  let s := s.setQueue q { x with
    enable := true, state := .active, error := 0, sqHead := 0, sqTail := 0, cqTail := 0, cqHead := 0, phase := true
    nextSeq := 0, lost := .none }
  let keep := match x.lost with
    | .none => s.host.journal
    | _ => s.host.journal.filter fun p => p.2.queue != q || p.2.unwritten
  { s with host := { s.host with done := s.host.done ++ lost, journal := keep } }

/-- A write of QUEUE_CONFIG (R388 to R390, R393). -/
def State.queueConfig (s : State) (q : Nat) (w : Word32) : State :=
  let x := s.queue q
  let on := w.getLsbD 31
  if x.enable then
    if on then s
    else
      let s := s.setQueue q { x with enable := false }
      s.setQueue q { s.queue q with state := if s.inFlight q = 0 then .disabled else .disabling }
  else
    let s := s.setQueue q { x with
      priority := if q = 0 then 0 else w.extractLsb' 29 2, vector := w.extractLsb' 22 7, irqEnable := w.getLsbD 21
      lastEntry := if w.extractLsb' 0 12 = 0 then 1 else w.extractLsb' 0 12 }
    if on then s.enableQueue q else s

/-- SQ_TAIL_DB_q (R391): the host's writes to its own memory come before its doorbell (R386). -/
def sqDoorbell (s : State) (q index : Nat) (writes : List (Nat × Byte)) : State :=
  let s := { s with host := { s.host with mem := writes.foldl (fun m w => NMap.set 0 m w.1 w.2) s.host.mem } }
  let x := s.queue q
  if x.state == .disabled || x.state == .disabling then s
  else if x.lastEntry.toNat < index % 4096 then s.queueError q 3
  else s.setQueue q { x with sqTail := index % 4096 }

/-- CQ_HEAD_DB_q (R391). -/
def cqDoorbell (s : State) (q index : Nat) : State :=
  let x := s.queue q
  if x.state == .disabled then s
  else if x.lastEntry.toNat < index % 4096 then s.queueError q 3
  else s.setQueue q { x with cqHead := index % 4096 }

/-- Queues of the device (R387). -/
def queueCount : Nat := 64

/-- A command that names a queue. -/
def onQueue (q : Nat) (f : State → State) (s : State) : Out := if queueCount ≤ q then .fault .noSuchUnit else .next (f s)

def execPacketFetch (h : HostReply) (s : State) : Out := .next (packetFetch s h)
def execCompletionWrite (q : Nat) (h : HostReply) (s : State) : Out := onQueue q (fun s => completionWrite s q h) s
def execSqTailDoorbell (q index : Nat) (writes : List (Nat × Byte)) (s : State) : Out :=
  onQueue q (fun s => sqDoorbell s q index writes) s
def execCqHeadDoorbell (q index : Nat) (s : State) : Out := onQueue q (fun s => cqDoorbell s q index) s

/-- QUEUE_ENABLE: a write of QUEUE_CONFIG with enable 1. -/
def execQueueEnable (q : Nat) (value : Word32) (s : State) : Out :=
  onQueue q (fun s => if s.pw.diagReady && value.getLsbD 31 then s.queueConfig q value else s) s
/-- QUEUE_DISABLE: a write of QUEUE_CONFIG with enable 0. -/
def execQueueDisable (q : Nat) (value : Word32) (s : State) : Out :=
  onQueue q (fun s => if s.pw.diagReady && !value.getLsbD 31 then s.queueConfig q value else s) s

/-- QUEUE_DRAINED (R393). -/
def execQueueDrained (q : Nat) (s : State) : Out :=
  onQueue q (fun s =>
    if (s.queue q).state == .disabling && s.inFlight q = 0 then s.setQueue q { s.queue q with state := .disabled } else s) s

/-- Interrupt vectors (R371). -/
def vectorCount : Nat := 128

/-- An entry of the MSI-X table is written; a vector unmasked with its PBA bit set sends the pending message (R375, R408). -/
def State.setMsix (s : State) (v : Nat) (e : MsixEntry) : State :=
  let s := { s with host := { s.host with msix := NMap.set MsixEntry.init s.host.msix v e } }
  if e.unmasked && s.host.pba.contains v then
    { s with host := { s.host with pba := s.host.pba.filter (· ≠ v) } }.raiseVector v
  else s

/-- MSIX_UNMASK (R408). -/
def execMsixUnmask (vector : Nat) (s : State) : Out :=
  if vectorCount ≤ vector then .fault .noSuchUnit else .next (s.setMsix vector { s.msix vector with unmasked := true })

/-- FENCE_COMMAND: completes when nothing earlier holds it back (R304, R405). -/
def execFenceCommand (n : Nat) (s : State) : Out := startHeld 0x0C n (fun s _ => s.complete n .ok 0 0 false) s

end Sys2Proof.Machine
end

