-- ==== Sys2Proof/Machine/ScaleTable.lean ====
section
/-! DEFINITION. The scale unit: entries, posts, views and the update at the final bell (R197 to R213, R576). -/
namespace Sys2Proof.Machine

def State.setScaleEntry (s : State) (n : Nat) (e : ScaleEntry) : State :=
  { s with scale := { s.scale with entries := NMap.set ScaleEntry.init s.scale.entries n e } }

/-- Control word of an entry (R197). -/
def ScaleEntry.control (e : ScaleEntry) : Nat :=
  (e.histLen - 1) % 16 + fieldAt e.margin.toNat 4 + fieldAt (b2n e.privileged) 7 + fieldAt e.format.toNat 8
    + fieldAt (b2n e.inView) 16 + fieldAt (b2n e.posted) 17 + fieldAt (b2n e.initialised) 18

/-- The 128 bytes of an entry (R197). -/
def ScaleEntry.bytes (e : ScaleEntry) : List Byte :=
  fit 0 128 (leBytes 4 e.control ++ leBytes 4 e.scale.toNat ++ leBytes 4 e.pending.toNat ++ leBytes 4 e.histCount
    ++ fit 0 64 (e.history.flatMap fun w => leBytes 4 w.toNat))

/-- A scale as R576 stores it: the largest power of two not above it, at least 2^-126; none is not stored. -/
def storedScale (w : Word32) : Option Word32 :=
  match f32 w with
  | .fin false m e =>
    if m = 0 then none
    else if (Num.fin false m e).exponent < -126 then some (pow2F32 (-126)) else some (pow2F32 (Num.fin false m e).exponent)
  | _ => none

/-- Stores 128 bytes into an entry; the fields that only hardware writes keep their values (R576). -/
def ScaleEntry.store (e : ScaleEntry) (bs : List Byte) : ScaleEntry :=
  let c := leAt bs 0 4
  let len := bitsAt c 0 4 + 1
  { e with
    histLen := len, margin := BitVec.ofNat 3 (bitsAt c 4 3), privileged := natBit c 7, format := BitVec.ofNat 8 (bitsAt c 8 8),
    initialised := natBit c 18, scale := (storedScale (BitVec.ofNat 32 (leAt bs 4 4))).getD e.scale,
    histCount := min (min (leAt bs 12 4 % 32) 16) len,
    history := (List.range 16).map fun i => BitVec.ofNat 32 (leAt bs (16 + 4 * i) 4) }

/-- The global loss scale 2^k as FP32 (R201, R208). -/
def State.lossScale (s : State) : Word32 := pow2F32 s.scale.k

/-- raise_interval of the active profile, 1,000 when no image is loaded (R194, R213). -/
def State.raiseInterval (s : State) : Nat :=
  match s.image with
  | some i => leAt i.profile 8 4
  | none => 1000

/-- Stores k and the clean-step count (R213). -/
def State.setLossScale (s : State) (k clean : Nat) : State :=
  { s with scale := { s.scale with k := min k 24, clean := if s.raiseInterval ≤ clean then 0 else clean } }

/-- +Inf. -/
def posInf : Word32 := 0x7F80_0000

/-- A post to entry n (R202). -/
def State.post (s : State) (n : Nat) (w : Word32) : State :=
  let e := s.scaleEntry n
  let nan := (f32 w).isNan
  if !e.inView || (nan && !e.privileged) then { s with scale := { s.scale with drops := s.scale.drops + 1 } }
  else
    let v := if nan then posInf else w &&& 0x7FFF_FFFF
    s.setScaleEntry n { e with posted := true, pending := if e.pending.toNat < v.toNat then v else e.pending }

/-- Clears what the entries were posted (R203). -/
def State.clearPosts (s : State) : State :=
  s.scale.entries.foldl (fun s p => s.setScaleEntry p.1 { p.2 with posted := false, pending := 0 }) s

/-- Applies a view (R199). -/
def State.applyView (s : State) (view : List ViewEntry) : State :=
  let s := s.scale.entries.foldl (fun s p => s.setScaleEntry p.1 { p.2 with inView := false }) s
  view.foldl (fun s v =>
    let e := s.scaleEntry v.entry
    let e := { e with histLen := v.histLen, margin := v.margin, inView := true }
    s.setScaleEntry v.entry
      (if !e.initialised || e.format != v.format || e.privileged != v.privileged then
        { e with format := v.format, privileged := v.privileged, scale := 0x3F80_0000, histCount := 0, history := [],
                 initialised := true }
       else { e with histCount := min e.histCount v.histLen })) s

/-- Installs the view of an evaluation: its entries take format, privileged bit, history length and margin; no scale and no
history changes (R199, R200). (DEDUCED, log 60) -/
def State.evalView (s : State) (view : List ViewEntry) : State :=
  let s := s.scale.entries.foldl (fun s p => s.setScaleEntry p.1 { p.2 with inView := false }) s
  view.foldl (fun s v => s.setScaleEntry v.entry { s.scaleEntry v.entry with
    format := v.format, privileged := v.privileged, histLen := v.histLen, margin := v.margin, inView := true }) s

/-- What a view sets in an entry comes back from an earlier one (R200). -/
def ScaleEntry.viewFrom (e old : ScaleEntry) : ScaleEntry :=
  { e with format := old.format, privileged := old.privileged, histLen := old.histLen, margin := old.margin, inView := old.inView }

/-- The view that stood before an evaluation comes back (R200). -/
def State.restoreView (s : State) (old : NMap ScaleEntry) : State :=
  (s.scale.entries ++ old).foldl (fun s p =>
    s.setScaleEntry p.1 ((s.scaleEntry p.1).viewFrom (NMap.get ScaleEntry.init old p.1))) s

/-- Largest finite FP32 value. -/
def fltMaxPos : Word32 := 0x7F7F_FFFF

/-- The scale that an amax gives (R205, R206); for an amax of +Inf, which only a stored history can hold, the power of two is left
open between the bounds of the clamp. (DESIGN CHOICE, log 38) -/
def newScale (s : State) (e : ScaleEntry) (amax : Word32) : Word32 × State :=
  match (Format.ofCode e.format.toNat).bind Format.fmtMax with
  | none => (e.scale, s)
  | some (mF, eF) =>
    match f32 amax with
    | .fin false m x =>
      if m = 0 then (e.scale, s)
      else (pow2F32 (clampInt (-126) 127 (floorLog2Ratio mF eF m x - e.margin.toNat)), s)
    | .inf false => let f := s.free; (pow2F32 ((f.1.toNat % 254 : Nat) - 126), f.2)
    | _ => (e.scale, s)

/-- The update of one entry (R205). -/
def updateEntry (s : State) (n : Nat) (e : ScaleEntry) : State :=
  if !e.inView || e.privileged then s
  else
    let e := if e.posted then
        { e with history := ((if e.pending = posInf then fltMaxPos else e.pending) :: e.history).take 16
                 histCount := min (e.histCount + 1) e.histLen }
      else e
    let amax := (e.history.take e.histCount).foldl (f32Extreme true) 0
    let r := newScale s e amax
    r.2.setScaleEntry n { e with scale := r.1 }

/-- The step overflowed: an in_view privileged entry holds +Inf (R210). -/
def State.overflowed (s : State) : Bool := s.scale.entries.any fun p => p.2.inView && p.2.privileged && p.2.pending == posInf

/-- Entries in view that hold a post. -/
def State.postedCount (s : State) : Nat := (s.scale.entries.filter fun p => p.2.inView && p.2.posted).length

/-- The scale update and the loss-scale update at the end of a STEP (R205, R210, R214, R215). -/
def State.scaleUpdate (s : State) : State :=
  let exceeds := s.overflowed
  let posted := s.postedCount
  let s := s.scale.entries.foldl (fun s p => updateEntry s p.1 (s.scaleEntry p.1)) s
  let c := s.scale
  let c := { c with lastOverflow := exceeds, done := true, busy := false, entriesPosted := posted
                    skipped := if exceeds then satInc 24 c.skipped 1 else c.skipped }
  let enabled := leAt s.profile 4 1 == 1
  let c := if !enabled then c
    else
      let c' := { c with atMin := false, atMax := false }
      if exceeds then { c' with k := c.k - 1, clean := 0, atMin := c.k == 0 }
      else if s.raiseInterval ≤ c.clean + 1 then { c' with k := min (c.k + 1) 24, clean := 0, atMax := c.k == 24 }
      else { c' with clean := c.clean + 1 }
  { s with scale := c }

end Sys2Proof.Machine
end

