-- ==== Sys2Proof/Machine/Image.lean ====
section
/-! DEFINITION. The program image: its checks and its parse (R89 to R91, R94, R105, R194, R198, R286). -/
namespace Sys2Proof.Machine

/-! ### Header, profile and section table -/

/-- "YZ1IMAGE". -/
def imageMagic : List Byte := [0x59, 0x5A, 0x31, 0x49, 0x4D, 0x41, 0x47, 0x45]

/-- Faulty fields of the profile block (R194). -/
def profileFaults (b : List Byte) : List (Nat × Bool) :=
  let f := leAt b
  [(0x30, f 0x30 1 ≠ 1), (0x31, 2 < f 0x31 1), (0x32, f 0x32 1 ≠ 3 && f 0x32 1 ≠ 4), (0x33, 1 < f 0x33 1),
   (0x34, 1 < f 0x34 1), (0x35, f 0x35 3 ≠ 0), (0x38, f 0x38 4 = 0 || 1000000 < f 0x38 4), (0x3C, f 0x3C 20 ≠ 0)]

/-- Faulty fields of the header; `eval` is what the evaluation flag must be (R89, R91 check 1, R94 check 2).
(DEDUCED, log 20) -/
def headerFaults (b : List Byte) (len : Nat) (eval : Bool) : List (Nat × Bool) :=
  let f := leAt b
  let l : List (Nat × Bool) := [(0, b.take 8 ≠ imageMagic), (8, f 8 2 ≠ 1), (0x0A, 1 < f 0x0A 1), (0x0B, 1 < f 0x0B 1),
   (0x0C, f 0x0C 4 / 32 ≠ 0 || natBit (f 0x0C 4) 3 != eval), (0x10, f 0x10 4 = 0),
   (0x14, f 0x14 2 = 0 || 1536 < f 0x14 2), (0x16, 8 < f 0x16 1),
   (0x17, f 0x17 1 = 0 || 16 < f 0x17 1 || len < 0x50 + 16 * f 0x17 1), (0x18, f 0x18 8 ≠ len)]
  l ++ profileFaults b

/-- An entry of the section table. -/
structure ImgSection where
  place : Nat
  kind : Nat
  off : Nat
  len : Nat
deriving DecidableEq, Repr

/-- The section table (R89). -/
def sectionTable (b : List Byte) : List ImgSection :=
  (List.range (leAt b 0x17 1)).map fun i =>
    let o := 0x50 + 16 * i
    ⟨o, leAt b o 4, leAt b (o + 8) 4, leAt b (o + 12) 4⟩

/-- Faults of the section table: kinds, alignment, bounds and overlap (R89, R90). -/
def sectionFaults (b : List Byte) (len : Nat) : List (Nat × Bool) :=
  let tab := sectionTable b
  let first := 0x50 + 16 * tab.length
  tab.flatMap fun x =>
    let before := tab.filter fun y => decide (y.place < x.place)
    [(x.place, x.kind = 0 || 7 < x.kind || before.any fun y => y.kind == x.kind),
     (x.place + 4, leAt b (x.place + 4) 4 ≠ 0),
     (x.place + 8, x.off % 64 ≠ 0 || x.off < first || len < x.off
        || before.any fun y => decide (x.off < y.off + y.len) && decide (y.off < x.off + x.len)),
     (x.place + 12, len < x.off + x.len)]

/-- The section of a kind; an absent one is empty. -/
def imgSection (b : List Byte) (kind : Nat) : ImgSection :=
  ((sectionTable b).find? fun x => x.kind == kind).getD ⟨0, kind, 0, 0⟩

/-- Tiles of the target (R89). -/
def imgTiles (b : List Byte) : Nat := if leAt b 0x0B 1 = 0 then 1536 else 256

/-- Section lengths must fit the entry counts; kinds 1 to 3 must be there (R90, R91 check 1). -/
def countFaults (b : List Byte) : List (Nat × Bool) :=
  let cc := leAt b 0x14 2
  let here (k : Nat) : Bool := (sectionTable b).any fun x => x.kind == k
  (0x17, !here 1 || !here 2 || !here 3) :: (0x16, leAt b 0x16 1 ≠ 0 && !here 6) ::
    (sectionTable b).map fun x =>
      (x.place + 12, match x.kind with
        | 1 => x.len != 16 * cc
        | 3 => x.len != 2 * imgTiles b
        | 4 => x.len % 24 != 0
        | 5 => x.len != 512 * cc
        | 6 => x.len != 200 * leAt b 0x16 1
        | _ => x.len % 8 != 0)

/-! ### Sections -/

/-- 64-bit words of a byte string. -/
def words64 (b : List Byte) (off n : Nat) : List Word64 :=
  (List.range n).map fun i => BitVec.ofNat 64 (leAt b (off + 8 * i) 8)

def parseClasses (b : List Byte) : List ImageClass :=
  let o := (imgSection b 1).off
  (List.range (leAt b 0x14 2)).map fun c =>
    ⟨words64 b ((imgSection b 2).off + leAt b (o + 16 * c) 4) (leAt b (o + 16 * c + 4) 2), leAt b (o + 16 * c + 6) 2⟩

def classFaults (b : List Byte) : List (Nat × Bool) :=
  let o := (imgSection b 1).off
  (List.range (leAt b 0x14 2)).flatMap fun c =>
    let p := o + 16 * c
    [(p, leAt b p 4 % 8 ≠ 0 || (imgSection b 2).len < leAt b p 4 + 8 * leAt b (p + 4) 2), (p + 8, leAt b (p + 8) 8 ≠ 0)]

/-- 16-bit words of a byte string. -/
def words16 : List Byte → List Nat
  | lo :: hi :: rest => (lo.toNat + 256 * hi.toNat) :: words16 rest
  | _ => []

def parseTileMap (b : List Byte) : NMap Nat :=
  ((List.range (imgTiles b)).zip (words16 (fit 0 (2 * imgTiles b) (b.drop (imgSection b 3).off)))).filterMap fun p =>
    if p.2 = 0xFFFF then none else some p

def tileMapFaults (b : List Byte) : List (Nat × Bool) :=
  (parseTileMap b).map fun p => ((imgSection b 3).off + 2 * p.1, leAt b 0x14 2 ≤ p.2)

def parseSegments (b : List Byte) : List Segment :=
  let x := imgSection b 4
  (List.range (x.len / 24)).map fun j =>
    let p := x.off + 24 * j
    { tile := leAt b p 2 = 1, target := leAt b (p + 2) 2, offset := leAt b (p + 4) 4
      kind := BitVec.ofNat 2 (leAt b (p + 12) 4), data := (b.drop (leAt b (p + 16) 8)).take (leAt b (p + 8) 4) }

def segmentFaults (b : List Byte) (len : Nat) : List (Nat × Bool) :=
  let x := imgSection b 4
  (List.range (x.len / 24)).flatMap fun j =>
    let p := x.off + 24 * j
    [(p, 1 < leAt b p 2), (p + 2, decide ((if leAt b p 2 = 0 then leAt b 0x14 2 else imgTiles b) ≤ leAt b (p + 2) 2)),
     (p + 12, 2 < leAt b (p + 12) 4), (p + 16, len < leAt b (p + 16) 8 + leAt b (p + 8) 4)]

def parseRings (b : List Byte) : NMap (BitVec 128) :=
  let x := imgSection b 5
  (List.range (x.len / 16)).foldl (fun m j => NMap.set 0 m j (BitVec.ofNat 128 (leAt b (x.off + 16 * j) 16))) []

def parseGroups (b : List Byte) : List ImageGroup :=
  let x := imgSection b 6
  (List.range (x.len / 200)).map fun j =>
    let p := x.off + 200 * j
    ⟨leAt b p 1, (List.range 8).map fun i => BitVec.ofNat 2 (bitsAt (leAt b (p + 1) 2) (2 * i) 2),
     setBits (leAt b (p + 8) 192) 1536 0⟩

/-- Group numbers, reserved bytes, and members that are idle or outside the target (R90, R286). -/
def groupFaults (b : List Byte) : List (Nat × Bool) :=
  let x := imgSection b 6
  let gs := parseGroups b
  (gs.zip (List.range gs.length)).flatMap fun q =>
    let p := x.off + 200 * q.2
    [(p, 7 < q.1.number || (gs.take q.2).any fun h => h.number == q.1.number), (p + 3, leAt b (p + 3) 5 ≠ 0),
     (p + 8, q.1.members.any fun t => !((parseTileMap b).any fun y => y.1 == t))]

def parseView (b : List Byte) : List ViewEntry :=
  let x := imgSection b 7
  (List.range (x.len / 8)).map fun j =>
    let p := x.off + 8 * j
    { entry := leAt b p 2, format := BitVec.ofNat 8 (leAt b (p + 2) 1), histLen := leAt b (p + 3) 1
      margin := BitVec.ofNat 3 (leAt b (p + 4) 1), privileged := natBit (leAt b (p + 5) 1) 0 }

def viewFaults (b : List Byte) : List (Nat × Bool) :=
  let x := imgSection b 7
  let vs := parseView b
  (vs.zip (List.range vs.length)).flatMap fun q =>
    let p := x.off + 8 * q.2
    [(p, 8191 < q.1.entry || (vs.take q.2).any fun v => v.entry == q.1.entry),
     (p + 2, (Format.ofCode q.1.format.toNat).isNone
        || (q.1.privileged && Format.ofCode q.1.format.toNat ≠ some .fp16)),
     (p + 3, q.1.histLen = 0 || 16 < q.1.histLen), (p + 4, 7 < leAt b (p + 4) 1), (p + 5, 1 < leAt b (p + 5) 1),
     (p + 6, leAt b (p + 6) 2 ≠ 0)]

/-- The image that bytes spell, when its checks have passed. -/
def imageOf (b : List Byte) : Image :=
  { bytes := b, grade := BitVec.ofNat 8 (leAt b 0x0A 1), target := BitVec.ofNat 8 (leAt b 0x0B 1)
    flags := BitVec.ofNat 32 (leAt b 0x0C 4), supersteps := leAt b 0x10 4, layoutId := (b.drop 0x20).take 16
    profile := (b.drop 0x30).take 32, classes := parseClasses b, tileMap := parseTileMap b, segments := parseSegments b
    rings := parseRings b, groups := parseGroups b, view := parseView b }

/-! ### What an image says of a tile -/

def Image.tiles (i : Image) : Nat := if i.target = 0 then 1536 else 256
def Image.classOf (i : Image) (t : Nat) : Option Nat := (i.tileMap.find? fun p => p.1 == t).map (·.2)

/-- Segments of a tile in the order they apply: class segments first, then tile segments (R92, R113). -/
def Image.segmentsOf (i : Image) (t : Nat) : List Segment :=
  (i.segments.filter fun g => !g.tile && i.classOf t == some g.target) ++ i.segments.filter fun g => g.tile && g.target == t

/-- Pages that a segment overlaps. -/
def Segment.pages (g : Segment) : List Nat :=
  if g.data.isEmpty then []
  else rangeFrom (g.offset / 4096) ((g.offset + g.data.length - 1) / 4096 - g.offset / 4096 + 1)

/-- The page attribute map of a tile (R113). -/
def Image.attrs (i : Image) (t : Nat) : NMap (BitVec 2) :=
  (i.segmentsOf t).foldl (fun m g => g.pages.foldl (fun m p => NMap.set 0 m p g.kind) m) []

/-- Backed pages of a map, in ascending order. -/
def backedPages (m : NMap (BitVec 2)) : List Nat := (m.filter fun p => p.2 == 2).map (·.1)

/-- Ring descriptor r of a class (R90 kind 5). -/
def Image.ringOf (i : Image) (c r : Nat) : BitVec 128 := NMap.get 0 i.rings (32 * c + r)

/-! ### The rest of check 1, and check 4 -/

/-- Descriptors with reserved bits set or that are not well formed on a tile of their class; the rings of an evaluation image run on
the training image's map (R104, R105, R115). -/
def ringFaults (i : Image) (training : Option Image) (o : Nat) : List (Nat × Bool) :=
  let maps := i.tileMap.map fun p => (p.2, (training.getD i).attrs p.1)
  i.rings.map fun p =>
    let w := p.2
    let attrs := (maps.filter fun m => m.1 == p.1 / 32).map (·.2)
    let bad (m : NMap (BitVec 2)) : Bool := !(Ring.unpack w).wellFormed fun page => NMap.get 0 m page
    (o + 16 * p.1, w.getLsbD 15 || w.extractLsb' 98 14 ≠ 0 || bad [] || attrs.any bad)

/-- Tiles with a class and no group (R286). -/
def strayFaults (i : Image) (o : Nat) : List (Nat × Bool) :=
  i.tileMap.map fun p => (o + 2 * p.1, !(i.groups.any fun g => g.members.contains p.1))

/-- A tile with more than 64 backed pages (R114). -/
def backedFault (i : Image) (o : Nat) : Nat × Bool :=
  (o, (List.range i.tiles).any fun t => decide (64 < (backedPages (i.attrs t)).length))

/-- Check 1 of R91: the image, or the offset of the first faulty field. An evaluation image is checked beside the training image. -/
def parseImage (b : List Byte) (len : Nat) (training : Option Image) : Except Nat Image :=
  match firstFault (headerFaults b len training.isSome) with
  | some o => .error o
  | none =>
    match firstFault (sectionFaults b len) with
    | some o => .error o
    | none =>
      match firstFault (countFaults b) with
      | some o => .error o
      | none =>
        match firstFault (classFaults b ++ tileMapFaults b ++ segmentFaults b len ++ groupFaults b ++ viewFaults b) with
        | some o => .error o
        | none =>
          let i := imageOf b
          match firstFault (ringFaults i training (imgSection b 5).off ++ strayFaults i (imgSection b 3).off
              ++ [backedFault i (imgSection b 4).off]) with
          | some o => .error o
          | none => .ok i

/-- A half of the device is gated (R299, R514). -/
def State.halfGated (s : State) : Bool :=
  (List.range 6).any fun b => (s.bench b).level.isGated

/-- Members in both halves (R299). -/
def spansSeam (members : List Nat) : Bool :=
  (members.any fun t => benchSouth (tileBench t)) && members.any fun t => !benchSouth (tileBench t)

/-- Check 4 of R91. (DEDUCED, log 21) -/
def lateFaults (s : State) (i : Image) : List (Nat × Bool) :=
  let o (k : Nat) : Nat := (imgSection i.bytes k).off
  let long : List (Nat × Bool) := (i.classes.zip (List.range i.classes.length)).map fun p =>
    (o 1 + 16 * p.2 + 4, 8192 < p.1.code.length)
  let beyond : List (Nat × Bool) := (i.segments.zip (List.range i.segments.length)).map fun p =>
    (o 4 + 24 * p.2 + 4, dataBytes < p.1.offset + p.1.data.length)
  long ++ beyond ++ ((i.groups.zip (List.range i.groups.length)).map fun p =>
      (o 6 + 200 * p.2 + 8, i.target = 0 && s.halfGated && spansSeam p.1.members))

/-- Grade byte of this part (R2, R89). -/
def gradeByte : Byte := if Config.gradeT then 1 else 0

/-- A BAD_PACKET answer that names an offset (R398). -/
def badAt (o : Nat) : CmdStatus × Nat := (.badPacket, o % 65536)

/-- The checks of R91, or those of R94 from 2 to 5: `targetOk` is check 3 of R91 or check 4 of R94. -/
def State.checkImage (s : State) (b : List Byte) (len : Nat) (training : Option Image) (targetOk : Image → Bool) :
    Except (CmdStatus × Nat) Image :=
  match parseImage b len training with
  | .error o => .error (badAt o)
  | .ok i =>
    if i.grade ≠ gradeByte then .error (.gradeMismatch, 0)
    else if !targetOk i then .error (.notReady, 0)
    else
      match firstFault (lateFaults s i) with
      | some o => .error (badAt o)
      | none => .ok i

end Sys2Proof.Machine
end

