-- ==== Sys2Proof/Machine/LoadImage.lean ====
section
/-! DEFINITION. LOAD_IMAGE: its load-parameter block, the regions it checks, and what it installs (R92, R113, R114, R116, R199,
R286, R327, R329, R343, R401, R465, R466, R541, R542). -/
namespace Sys2Proof.Machine

/-! ### Banks and regions (R343, R465, R466, R495) -/

/-- Two spans share an address. -/
def overlap (a n b m : Nat) : Bool := decide (a < b + m) && decide (b < a + n) && decide (0 < n) && decide (0 < m)

/-- Largest bank length (R343). -/
def maxBank : Nat := 992 * 2 ^ 30

/-- A bank setting breaks R343. -/
def State.bankBroken (s : State) (a b len : Nat) : Bool :=
  a % 4096 != 0 || b % 4096 != 0 || len == 0 || len % 4096 != 0 || decide (maxBank < len) || !s.inMain a len || !s.inMain b len
    || overlap a len b len

/-- Depth and slot length in bytes of the input ring (R495). -/
def State.ringDepth (s : State) : Nat := bitsAt s.res.inputRing.toNat 23 9
def State.slotLength (s : State) : Nat := bitsAt s.res.inputRing.toNat 0 20 * 4096

/-- Foreign slots and their length in bytes (R495): the four-bit field holds 16 as 0. -/
def State.foreignSlots (s : State) : Nat :=
  if bitsAt s.res.foreignConfig.toNat 28 4 = 0 then 16 else bitsAt s.res.foreignConfig.toNat 28 4
def State.foreignLength (s : State) : Nat := bitsAt s.res.foreignConfig.toNat 0 28 * 65536

/-- Base and length of the recovery region, the shadow, the home slots and the foreign region. (DEDUCED, log 93) -/
def State.regions (s : State) : List (Nat × Nat) :=
  [(s.res.recoveryBase.toNat, 2 ^ 20 + s.ringDepth * s.slotLength),
   (s.res.shadowBase.toNat, s.res.shadowLength.toNat * 65536),
   (s.res.homeBase.toNat, 2 * s.res.homeLength.toNat * 65536),
   (s.res.foreignBase.toNat, s.foreignSlots * s.foreignLength)]

/-- Region k breaks R465 beside the banks given. -/
def State.regionBroken (s : State) (banks : List (Nat × Nat)) (k : Nat) : Bool :=
  let l := s.regions
  let r := l.getD k (0, 0)
  r.2 != 0 && (r.1 % 65536 != 0 || !s.inMain r.1 r.2 || (l.eraseIdx k ++ banks).any fun q => overlap r.1 r.2 q.1 q.2)

/-- Offset of the image copy in the shadow (R466). -/
def shadowImage : Nat := 3 * 2 ^ 30

/-! ### The load-parameter block (R401) -/

/-- A block of defaults, used when the packet names none (R401, R369). (DEDUCED, log 73) -/
def defaultParams : List Byte := patch (List.replicate 64 0) 0x2C [8]

def orDefault (v d : Nat) : Nat := if v = 0 then d else v

def paramFaults (s : State) (p : List Byte) : List (Nat × Bool) :=
  let f := leAt p
  let a := f 0 8
  let b := f 8 8
  let n := f 0x10 8
  [(0, n ≠ 0 && (a % 4096 ≠ 0 || !s.inMain a n)), (8, n ≠ 0 && (b % 4096 ≠ 0 || !s.inMain b n || overlap a n b n)),
   (0x10, n ≠ 0 && (n % 4096 ≠ 0 || maxBank < n)), (0x18, f 0x18 8 % 64 ≠ 0), (0x20, f 0x20 8 % 64 ≠ 0),
   (0x2A, 15 < f 0x2A 1), (0x2B, f 0x2B 1 ≠ 0 && (f 0x2B 1 < 6 || 24 < f 0x2B 1)), (0x2C, 8 < f 0x2C 1),
   (0x2D, f 0x2D 1 ≠ 0), (0x2E, 4096 < f 0x2E 2), (0x30, f 0x30 16 ≠ 0)]

/-- Writes the block's values to the training block and BELL_CONTROL (R401). -/
def State.applyParams (s : State) (p : List Byte) : State :=
  let f := leAt p
  { s with
    train := { s.train with
      enable := f 0x10 8 ≠ 0, bankA := BitVec.ofNat 64 (f 0 8), bankB := BitVec.ofNat 64 (f 8 8)
      bankLen := BitVec.ofNat 64 (f 0x10 8), ledgerEnable := f 0x18 8 ≠ 0, ledgerBase := BitVec.ofNat 64 (f 0x18 8)
      ledgerLog2 := orDefault (f 0x2B 1) 6, ledgerGroup := BitVec.ofNat 4 (f 0x2C 1), normEnable := f 0x20 8 ≠ 0
      normBase := BitVec.ofNat 64 (f 0x20 8), normLayers := orDefault (f 0x2E 2) 4096 }
    bell := { s.bell with timeoutMs := BitVec.ofNat 16 (orDefault (f 0x28 2) 50) } }

/-! ### Writing the tiles (R92, R99, R104, R107, R113, R114, R116) -/

/-- Code words from address 0, with fresh check bits (R92, R127). -/
def Tile.loadCode (c : Tile) (ws : List Word64) : Tile :=
  { c with mem := { c.mem with
    code := NMap.setRun 0 c.mem.code 0 ws, eccCode := NMap.dropRange c.mem.eccCode 0 ws.length } }

/-- Data bytes with fresh check bits; no page state changes. -/
def Tile.loadBytes (c : Tile) (off : Nat) (bs : List Byte) : Tile :=
  if bs.isEmpty then c
  else
    { c with mem := { c.mem with
      data := NMap.setRun 0 c.mem.data off bs
      eccData := NMap.dropRange c.mem.eccData (off / 8) ((off + bs.length - 1) / 8 - off / 8 + 1) } }

/-- Zeroes a page. -/
def Tile.zeroPage (c : Tile) (p : Nat) : Tile :=
  { c with mem := { c.mem with
    data := NMap.dropRange c.mem.data (4096 * p) 4096, eccData := NMap.dropRange c.mem.eccData (512 * p) 512 } }

/-- The rings of a class, counters zero (R104, R107). -/
def Tile.loadRings (c : Tile) (i : Image) (cls : Nat) : Tile :=
  { c with rings := Vector.ofFn fun r => Ring.unpack (i.ringOf cls r.val) }

/-- The page table that binds the backed pages of a map in order, each present (R116). -/
def boundTable (m : NMap (BitVec 2)) : NMap PageEntry :=
  ((backedPages m).zip (List.range 64)).map fun p => (p.2, { PageEntry.init with frame := BitVec.ofNat 9 p.1, state := 3 })

/-- Segments that LOAD_IMAGE writes (R92). -/
def Image.written (i : Image) (t : Nat) (resident : Bool) : List Segment :=
  (i.segmentsOf t).filter fun g => g.kind != 1 || resident

/-- Resident pages that LOAD_IMAGE writes (R114, R466). -/
def Image.residentWritten (i : Image) (t : Nat) (resident : Bool) : List Nat :=
  if resident then (List.range 512).filter fun p => NMap.get 0 (i.attrs t) p == 1 else []

/-- The bytes of a segment, page by page. -/
def Segment.pieces (g : Segment) : List (Nat × Nat × List Byte) :=
  g.pages.map fun p =>
    let at' := max g.offset (4096 * p)
    (p, at', (g.data.drop (at' - g.offset)).take (4096 * (p + 1) - at'))

/-- The S-core of a tile no longer waits for anything. -/
def Tile.unstalled (c : Tile) : Tile :=
  let c := if c.core.run == .stalled then c.waitsNowhere else c
  { c with core := { c.core with stallKind := .none, stallRing := 0, held := none, pageWait := none } }

/-- Halts the S-core of a tile. -/
def Tile.halted (c : Tile) : Tile :=
  let c := c.unstalled
  { c with core := { c.core with halt := true, run := .halted } }

/-- The code and the ring descriptors of a tile's class, when it has one (R92, R93). -/
def Tile.installClass (c : Tile) (i : Image) (t : Nat) : Tile :=
  match i.classOf t with
  | some k =>
    let c := (c.loadCode ((i.classes.map (·.code)).getD k [])).loadRings i k
    { c with core := { c.core with cls := some k, codeLen := ((i.classes.map (·.code)).getD k []).length } }
  | none => { c with core := { c.core with cls := none, codeLen := 8192 } }

/-- The pages of a tile: map, zeroed pages, segments and page table; without load_resident a page that is resident keeps its
contents (R92, R113, R114, R116). A shadow-written bit stays where its page stays resident and is not written. -/
def Tile.installPages (c : Tile) (i : Image) (t : Nat) (resident : Bool) : Tile :=
  let m := i.attrs t
  let ws := i.written t resident
  let kept := (List.range 512).filter fun p => NMap.get 0 m p != 1 && !((i.segmentsOf t).any fun g => g.pages.contains p)
  let c := kept.foldl Tile.zeroPage c
  let c := ws.foldl (fun c g => g.pieces.foldl (fun c x =>
    if !resident && NMap.get 0 m x.1 == 1 then c else c.loadBytes x.2.1 x.2.2) c) c
  let gone := i.residentWritten t resident
  { c with pages := { attr := m, table := boundTable m, fills := []
                      shadowWritten := c.pages.shadowWritten.filter fun p => NMap.get 0 m p == 1 && !gone.contains p } }

/-- Copies pages of a tile into its shadow slot through its mover; a page with a word that cannot be read is not copied
(R128, R466, R467). (DEDUCED, log 94) -/
def State.shadowPages (s : State) (t : Nat) (pages : List Nat) : State :=
  pages.foldl (fun s p =>
    match (s.tile t).readData 3 (4096 * p) 4096 with
    | (c, some bs) => (s.setTile t c).mainPut (s.res.shadowBase.toNat + t * 2 ^ 21 + p * 4096) bs
    | (c, none) => s.setTile t c) s

/-- LOAD_IMAGE writes one tile. -/
def State.installTile (s : State) (i : Image) (threshold : BitVec 4) (resident : Bool) (t : Nat) : State :=
  let c := ((s.tile t).halted.installClass i t).installPages i t resident
  let c := { c with mx := { c.mx with threshold := threshold }, rn := { c.rn with arming := i.flags.getLsbD 2 } }
  let s := s.setTile t c
  if s.res.shadowLength = 0 then s else s.shadowPages t (i.residentWritten t resident)

/-! ### The rest of the load -/

/-- Loads the sync-group maps (R92). -/
def State.installGroups (s : State) (i : Image) : State :=
  { s with bell := { s.bell with
    rollingAllowed := i.flags.getLsbD 1
    groups := (List.range 8).foldl (fun m g =>
      let G := NMap.get BellGroup.init s.bell.groups g
      NMap.set BellGroup.init m g (match i.groups.find? fun x => x.number == g with
        | some x => { G with loaded := true, ops := x.ops, members := x.members }
        | none => { G with loaded := false, ops := [], members := [], phase := .cut, index := 0 })) [] } }

/-- A measurement slot (R541). -/
def State.slot (s : State) (k : Nat) : List Byte := NMap.get (List.replicate 32 0) s.sec.slots k
def State.setSlot (s : State) (k : Nat) (d : List Byte) : State :=
  { s with sec := { s.sec with slots := NMap.set (List.replicate 32 0) s.sec.slots k d } }

/-- Extends a measurement slot (R541). -/
def State.extend (s : State) (k : Nat) (d : List Byte) : State := s.setSlot k (shake32 (s.slot k ++ d))

/-- Slot 5 takes the image, slot 4 is extended with it (R541, R542). -/
def State.measureImage (s : State) (i : Image) : State :=
  let d := digest i.bytes
  (s.setSlot 5 d).extend 4 d

/-- What LOAD_IMAGE does once every check has passed (R92, R199, R401, R466). -/
def State.install (s : State) (i : Image) (p : List Byte) : State :=
  let s := s.applyParams p
  let threshold := BitVec.ofNat 4 (orDefault (leAt p 0x2A 1) 12)
  let s := ((List.range i.tiles).filter fun t => !s.isolated t).foldl (fun s t => s.installTile i threshold (i.flags.getLsbD 0) t) s
  let s := if s.res.shadowLength = 0 then s else s.mainPut (s.res.shadowBase.toNat + shadowImage) i.bytes
  let s := ((s.applyView i.view).installGroups i).measureImage i
  { s with
    image := some i, runnable := true, unshadowed := s.res.shadowLength = 0, expertCode := false
    res := { s.res with forced := false }
    random := { s.random with freeArmed := if i.flags.getLsbD 2 then false else s.random.freeArmed } }

/-- The device takes images of this target: 0 in compute service, 1 in field mode (R91 check 3). -/
def State.takesTarget (s : State) (i : Image) : Bool := (i.target == 0) != s.pw.fieldBench.isSome

/-- A shadow that is too short or breaks R465 (R466). -/
def State.shadowRefuses (s : State) (i : Image) (p : List Byte) : Bool :=
  let n := s.res.shadowLength.toNat * 65536
  let banks := [(leAt p 0 8, leAt p 0x10 8), (leAt p 8 8, leAt p 0x10 8)]
  n ≠ 0 && (n < shadowImage + i.bytes.length || s.regionBroken banks 1)

/-- LOAD_IMAGE with its image and parameter block at hand (R91, R329, R401, R466); a gated tile that the image needs refuses it
(R519). -/
def State.loadImage (s : State) (n len : Nat) (b p : List Byte) : State :=
  match s.checkImage b len none s.takesTarget with
  | .error e => s.complete n e.1 e.2 0 false
  | .ok i =>
    if i.flags.getLsbD 2 && s.res.protect then s.complete n .badPacket 0x0C 0 false
    else
      match firstFault (paramFaults s p) with
      | some o => s.complete n .badPacket o 0 false
      | none =>
        if s.shadowRefuses i p || i.tileMap.any fun q => s.isolated q.1 then s.complete n .notReady 0 0 false
        else (s.install i p).complete n .ok 0 0 false

/-- LOAD_IMAGE (R91, R92, R401, R403). -/
def execLoadImage (n : Nat) (h : HostReply) (s : State) : Out :=
  startHeld 0x01 n (fun s c =>
    match s.hostAnswer h with
    | .fail e => (s.hostFailed e).complete n .hostError (c.field 8 8) 0 false
    | .ok =>
      let p := if c.field 0x18 8 = 0 then defaultParams else s.getHost (c.field 0x18 8) 64
      s.loadImage n (c.field 0x10 8) (s.getHost (c.field 8 8) (c.field 0x10 8)) p) s

end Sys2Proof.Machine
end

