-- ==== Sys2Proof/Machine/Reach.lean ====
section
/-! DEFINITION. Reach (R74, R120 to R126, R201, R338, R342, R454, R574). -/
namespace Sys2Proof.Machine

/-- Outstanding accesses of a tile, and accesses held at a target (R57, R120). -/
def rcDepth : Nat := 16
def rcInbox : Nat := 4

/-- The device address map takes the access (R74, R121, R201, R338, R342). -/
def State.reachOk (s : State) (op : ReachOp) (a : Nat) : Bool :=
  match s.place a op.size with
  | .main _ | .writeAlias _ | .tile _ _ => true
  | .scale off =>
    if off < 0x100000 then !op.isWrite || (op == .writeS && off % 128 == 8) else off == 0x100000 && op == .readS
  | .seq _ => !op.isWrite
  | .bankWord => op == .readS
  | .outside => false

/-- Issue of a reach access (R74, R122). -/
def reachBody (word : Word64) (op : ReachOp) (a : SReg) (imm : Word32) (dS : SReg) (dV : VReg) (data : Tile → List Byte) :
    State → Nat → Tile → Issue := fun s _ c =>
  let addr := (c.sreg a + sext imm).toNat
  if addr % op.size ≠ 0 then .fault .misaligned addr c
  else if !s.reachOk op addr then .fault .reachAddress addr c
  else
    c.tryIssue { consumes := [], produces := [], work := true } (decide (rcDepth ≤ c.rc.out.length)) fun c id =>
      let item : RcItem := { id := id, op := op, addr := addr, data := data c, destS := dS, destV := dV, word := word,
                             pc := BitVec.ofNat 13 c.core.pc, state := .sent }
      let c := { c with rc := { c.rc with out := c.rc.out ++ [item] } }
      match op with
      | .readS => c.pendScalar dS true
      | .readV => c.pendVector dV true
      | _ => c

def insnXrds (d a : SReg) (imm : Word32) : Insn :=
  { word := encA 9 0x01 d a 0 0 imm, scalars := [d, a], vectors := [],
    body := reachBody (encA 9 0x01 d a 0 0 imm) .readS a imm d 0 fun _ => [] }
def insnXrdv (d : VReg) (a : SReg) (imm : Word32) : Insn :=
  { word := encA 9 0x02 (vfield d) a 0 0 imm, scalars := [a], vectors := [d],
    body := reachBody (encA 9 0x02 (vfield d) a 0 0 imm) .readV a imm 0 d fun _ => [] }
def insnXwrs (a b : SReg) (imm : Word32) : Insn :=
  { word := encA 9 0x03 0 a b 0 imm, scalars := [a, b], vectors := [],
    body := reachBody (encA 9 0x03 0 a b 0 imm) .writeS a imm 0 0 fun c => leBytes 8 (c.sreg b).toNat }
def insnXwrv (a : SReg) (b : VReg) (imm : Word32) : Insn :=
  { word := encA 9 0x04 0 a (vfield b) 0 imm, scalars := [a], vectors := [b],
    body := reachBody (encA 9 0x04 0 a (vfield b) 0 imm) .writeV a imm 0 0 fun c => laneBytes (c.vreg b) }

def execXrds (t : Nat) (d a : SReg) (imm : Word32) (s : State) : Out := issue false t (insnXrds d a imm) s
def execXrdv (t : Nat) (d : VReg) (a : SReg) (imm : Word32) (s : State) : Out := issue false t (insnXrdv d a imm) s
def execXwrs (t : Nat) (a b : SReg) (imm : Word32) (s : State) : Out := issue false t (insnXwrs a b imm) s
def execXwrv (t : Nat) (a : SReg) (b : VReg) (imm : Word32) (s : State) : Out := issue false t (insnXwrv a b imm) s

/-! ### At the target -/

def Tile.reach? (c : Tile) (id : Nat) : Option RcItem := c.rc.out.find? fun i => i.id == id
def State.setReach (s : State) (t id : Nat) (r : ReachState) : State :=
  s.modTile t fun c => { c with rc := { c.rc with
    out := c.rc.out.map fun i => if i.id = id then { i with state := r } else i } }

/-- An access to main memory is served (R126, R454, R464). -/
def serveMain (s : State) (t : Nat) (i : RcItem) (a : Nat) : State :=
  match (if i.op.isWrite then s.mainWrite a i.data else s.mainRead 2 a i.op.size) with
  | (s, .ok bs) => s.setReach t i.id (.ok bs)
  | (s, .outside) => s.setReach t i.id .isolated
  | (s, .isolated) => s.setReach t i.id .isolated
  | (s, .uncorrectable x) => s.setReach t i.id (.uncorrectable (some x))

/-- Offset in tile u's data memory of an access. -/
def State.reachOffset (s : State) (u : Nat) (i : RcItem) : Option Nat :=
  match s.place i.addr i.op.size with
  | .tile v off => if v = u then some off else none
  | _ => none

/-- Banks that an access uses (R97). -/
def banksOf (off n : Nat) : List Nat := (rangeFrom (off / 64) (ceilDiv (off % 64 + n) 64)).map (· % 16)

/-- An access held earlier at the tile, whose page is now ready, waits for one of the same banks: it goes first (R125). -/
def State.reachBehind (s : State) (u off : Nat) (key : Nat × Nat) (i : RcItem) : Bool :=
  ((s.tile u).rc.inbox.takeWhile (· != key)).any fun k =>
    match (s.tile k.1).reach? k.2 with
    | some j =>
      match s.reachOffset u j with
      | some o => (s.tile u).touch o j.op.size == .ok && (banksOf o j.op.size).any (banksOf off i.op.size).contains
      | none => false
    | none => false

/-- An access to a tile is served, or held while its page is on its way (R117, R119, R120, R125, R126). (DEDUCED, log 25) -/
def serveTile (s : State) (t u off : Nat) (i : RcItem) : State :=
  let key := (t, i.id)
  let inbox := (s.tile u).rc.inbox
  let leave (s : State) : State := s.modTile u fun c => { c with rc := { c.rc with inbox := c.rc.inbox.filter (· != key) } }
  if s.isolated u then (leave s).setReach t i.id .isolated
  else if !(s.tile u).mem.ready then s
  else if !inbox.contains key && rcInbox ≤ inbox.length then s
  else if s.reachBehind u off key i then s
  else
    match (s.tile u).touch off i.op.size with
    | .wait c _ =>
      if inbox.contains key then s.setTile u c
      else (s.setTile u { c with rc := { c.rc with inbox := c.rc.inbox ++ [key] } }).setReach t i.id .held
    | .unresolved => (leave s).setReach t i.id .unresolved
    | .ok =>
      let s := leave s
      if i.op.isWrite then (s.modTile u fun c => c.writeData off i.data).setReach t i.id (.ok [])
      else
        match (s.tile u).readData 4 off i.op.size with
        | (c, some bs) => (s.setTile u c).setReach t i.id (.ok bs)
        | (c, none) => (s.setTile u c).setReach t i.id (.uncorrectable none)

/-- The access has not been served yet. -/
def RcItem.open (i : RcItem) : Bool := i.state == .sent || i.state == .held

/-- REACH_TARGET_ACCESS. A write that a drain holds stays held until BANK_HOLD_RELEASE (R344). -/
def reachTarget (s : State) (t id : Nat) : State :=
  match (s.tile t).reach? id with
  | some i =>
    if !i.open || s.train.held.any fun x => x.tile == t && x.reach == some id then s
    else
      match s.place i.addr i.op.size with
      | .main a => serveMain s t i a
      | .writeAlias a =>
        if i.op.isWrite && s.drainHolds a i.data.length then
          let w : HeldWrite := { addr := a, data := i.data, since := s.now, tile := t, slot := none, reach := some id, bit := none }
          let s : State := { s with train := { s.train with held := s.train.held ++ [w] } }
          s.setReach t id .held
        else serveMain s t i a
      | .tile u off => serveTile s t u off i
      | .outside => s.setReach t id .isolated
      | _ => s
  | none => s

/-- Bytes of the scale window (R201). -/
def State.scaleBytes (s : State) (off n : Nat) : List Byte :=
  if off = 0x100000 then fit 0 8 (leBytes 4 s.lossScale.toNat) else (((s.scaleEntry (off / 128)).bytes).drop (off % 128)).take n

/-- REACH_CONTROL_SERVICE (R201, R202, R338, R342, R574). -/
def reachControl (s : State) (t id : Nat) : State :=
  match (s.tile t).reach? id with
  | some i =>
    if !i.open then s
    else
      match s.place i.addr i.op.size with
      | .scale off =>
        if i.op.isWrite then (s.post (off / 128) (BitVec.ofNat 32 (leAt i.data 0 4))).setReach t id (.ok [])
        else s.setReach t id (.ok (s.scaleBytes off i.op.size))
      | .seq off => s.setReach t id (.ok (NMap.getRun 0 s.seqWindow off i.op.size))
      | .bankWord => s.setReach t id (.ok (leBytes 8 s.sampledU.toNat))
      | _ => s
  | none => s

/-- REACH_REPLY_ARRIVE: the register takes the data, or the initiator faults (R58, R119, R124, R126). -/
def reachReply (s : State) (t id : Nat) : State :=
  let c := s.tile t
  match c.reach? id with
  | some i =>
    let c := { c with rc := { c.rc with out := c.rc.out.filter fun j => j.id != id } }
    match i.state with
    | .ok bs =>
      s.setTile t (match i.op with
        | .readS => (c.setS i.destS (BitVec.ofNat 64 (leNat bs))).pendScalar i.destS false
        | .readV => (c.setV i.destV (bytesLanes bs)).pendVector i.destV false
        | _ => c)
    | .isolated => (s.setTile t c).tileFault t .reachAddress i.pc.toNat i.word i.addr
    | .uncorrectable x =>
      let c := { c with rc := { c.rc with mainWords := c.rc.mainWords ++ x.toList } }
      (s.setTile t c).tileFault t .memoryUncorrectable i.pc.toNat i.word i.addr
    | .unresolved => (s.setTile t c).tileFault t .pageFaultUnresolved i.pc.toNat i.word i.addr
    | _ => s
  | none => s

def execReachTargetAccess (t id : Nat) (s : State) : Out := engineStep t (fun s t => reachTarget s t id) s
def execReachControlService (t id : Nat) (s : State) : Out := engineStep t (fun s t => reachControl s t id) s
def execReachReplyArrive (t id : Nat) (s : State) : Out := (engineStep t (fun s t => reachReply s t id) s)

end Sys2Proof.Machine
end

