-- ==== Sys2Proof/Machine/Drain.lean ====
section
/-! DEFINITION. Drains: the snapshot, the hold of R344, shipping, and the receiving side (R344, R433, R465, R468, R474 to R480,
R495 to R497). -/
namespace Sys2Proof.Machine

/-! ### The copy (R475, R476) -/

def copyBodyAt : Nat := 0x10000
def copyScaleAt : Nat := 0x110000
def copyBankAt : Nat := 0x210000
def bodyBytes (bankLen : Nat) : Nat := 2 ^ 21 + bankLen
def bodyChunks (bankLen : Nat) : Nat := ceilDiv (bodyBytes bankLen) chunkBytes
/-- Length of a copy (R475). -/
def copyBytes (bankLen : Nat) : Nat := copyBankAt + bankLen + ceilDiv (32 * bodyChunks bankLen) 65536 * 65536

/-- Base of home slot k and of foreign slot k (R495). -/
def State.homeSlot (s : State) (k : Nat) : Nat := s.res.homeBase.toNat + k * (s.res.homeLength.toNat * 65536)
def State.foreignSlot (s : State) (k : Nat) : Nat := s.res.foreignBase.toNat + k * s.foreignLength

/-- "YZ1COPY1". -/
def copyMagic : List Byte := [0x59, 0x5A, 0x31, 0x43, 0x4F, 0x50, 0x59, 0x31]

/-- Adds the digest of the first 224 bytes of a manifest (R476). -/
def sealManifest (m : List Byte) : List Byte := fit 0 0xE0 m ++ shake32 (fit 0 0xE0 m)

/-- The manifest of the home copy (R476). -/
def Drain.manifest (d : Drain) (root : List Byte) (tEnd : Nat) : List Byte :=
  sealManifest (copyMagic ++ leBytes 8 Config.identity.toNat ++ leBytes 8 d.u.toNat ++ leBytes 8 d.lastStep.toNat
    ++ leBytes 8 d.bankLen ++ leBytes 8 (bodyBytes d.bankLen) ++ fit 0 32 root ++ fit 0 32 d.profile ++ fit 0 16 d.layoutId
    ++ [gradeByte, BitVec.ofNat 8 (1 + fieldAt (b2n d.correlated) 1 + 4),
        if d.feedGroup.getLsbD 8 then d.feedGroup.setWidth 8 else 0xFF, BitVec.ofNat 8 d.k]
    ++ leBytes 4 d.clean ++ leBytes 8 d.tStart ++ leBytes 8 tEnd ++ leBytes 8 d.logIndex.toNat ++ fit 0 32 d.imageDigest)

/-- DRAIN_STATUS (R497). -/
def State.drainStatus (s : State) : Nat :=
  let r := s.res
  fieldAt (b2n r.drain.isSome) 31 + fieldAt (b2n ((r.drain.map (·.shipping)).getD false)) 30 + fieldAt (b2n r.lastOk) 29
    + fieldAt r.lastCode.toNat 26 + fieldAt (b2n r.homeValid) 25 + fieldAt (b2n r.homeNewest) 24 + r.shippedGib % 2 ^ 24

/-! ### End of a drain (R468, R479, R480) -/

/-- last_code of a status (R497). -/
def drainCode : CmdStatus → BitVec 3
  | .ok => 0 | .digestMismatch => 1 | .memoryUncorrectable => 3 | .abortedByReset => 4 | _ => 2

/-- A drain ends: a DRAIN command completes, and with OK turns replay protection on; an automatic drain raises its event.
While a free-mode image is loaded protection is not turned on (R329). -/
def State.endDrain (s : State) (n : Option Nat) (partner path : Nat) (st : CmdStatus) (detail result : Nat) : State :=
  let refused := n.isSome && st == CmdStatus.ok && s.freeMode
  let s := { s with res := { s.res with drain := none, lastOk := st == CmdStatus.ok, lastCode := drainCode st } }
  match n with
  | none => s.raise 12 0 (leBytes 4 s.drainStatus)
  | some n =>
    if refused then s.complete n .badPacket 0 0 false
    else
      let s := if st == CmdStatus.ok then
          { s with res := { s.res with
            protect := true, partner := BitVec.ofNat 12 partner, path := BitVec.ofNat 2 path } }
        else s
      s.complete n st detail result false

/-! ### The snapshot (R344, R477) -/

/-- 2 MiB regions of the bank. -/
def Drain.bankRegions (d : Drain) : List Nat :=
  if d.bankLen = 0 then []
  else rangeFrom (d.bankBase / 2 ^ 21) ((d.bankBase + d.bankLen - 1) / 2 ^ 21 - d.bankBase / 2 ^ 21 + 1)

/-- What a drain takes between steps (R344, R477). (DEDUCED, log 95) -/
def State.snapshot (s : State) (d : Drain) : Drain :=
  { d with
    slot := if s.res.homeValid && !s.res.homeNewest then 1 else 0, begun := true, u := s.train.u, lastStep := s.res.lastStep
    bankBase := (if s.train.u.getLsbD 0 then s.train.bankB else s.train.bankA).toNat, bankLen := s.train.bankLen.toNat
    profile := s.profile, layoutId := (s.image.map (·.layoutId)).getD [], imageDigest := s.slot 5, k := s.scale.k
    clean := s.scale.clean, feedGroup := s.link.feedGroup, correlated := natBit (s.partner d.partner).flags.toNat 1
    scaleEntries := s.scale.entries, logIndex := s.res.logIndex - 1, tStart := s.now, regions := []
    log := (s.mm.bytes.filter fun p => decide (s.res.recoveryBase.toNat ≤ p.1) && decide (p.1 < s.res.recoveryBase.toNat + 2 ^ 20)).map
      fun p => (p.1 - s.res.recoveryBase.toNat, p.2) }

/-- A drain that waits for a step to end begins its snapshot (R477). -/
def State.beginSnapshot (s : State) : State :=
  match s.res.drain with
  | some d => if d.begun then s else { s with res := { s.res with drain := some (s.snapshot d) } }
  | none => s

/-- The entry that a drain or a restore uses for a partner and a path (R433): the named entry, or another entry in state up of
the same device. -/
def State.pathEntry (s : State) (i path : Nat) : Except (CmdStatus × Nat) Nat :=
  let p := s.partner i
  let mine := (i, p) :: (s.upPartners.filter fun q => q.1 != i && q.2.identity == p.identity)
  let road := mine.find? fun q => q.2.path == 0 && q.2.hops == 1
  let eth := mine.find? fun q => q.2.path == 1
  if p.state ≠ 2 || p.path = 2 then .error (.notReady, 0)
  else
    match path with
    | 0 => match road with | some q => .ok q.1 | none => .error (.badPacket, 0x0A)
    | 1 => match eth with | some q => .ok q.1 | none => .error (.notReady, 0)
    | _ => match road with
      | some q => .ok q.1
      | none => match eth with | some q => .ok q.1 | none => .error (.notReady, 0)

/-- R465 is broken, or the home slots cannot hold the copy. -/
def State.drainBroken (s : State) : Bool :=
  let banks := [(s.train.bankA.toNat, s.train.bankLen.toNat), (s.train.bankB.toNat, s.train.bankLen.toNat)]
  ((List.range 4).any fun k => s.regionBroken banks k) || decide (s.res.homeLength.toNat * 65536 < copyBytes s.train.bankLen.toNat)

/-- Starts a drain, or ends it with the status of the check that fails (R329, R433, R465, R468, R477, R480).
(DEDUCED, log 94) -/
def State.startDrain (s : State) (n : Option Nat) (partner path : Nat) : State :=
  if n.isSome && s.freeMode then s.endDrain n partner path .badPacket 0 0
  else if s.drainBroken then s.endDrain n partner path .badPacket 0 0
  else
    match s.pathEntry partner path with
    | .error e => s.endDrain n partner path e.1 e.2 0
    | .ok i =>
      let d : Drain :=
        { n := n, partner := i, path := path, slot := 0, begun := false, shipping := false, u := 0, lastStep := 0, bankBase := 0
          bankLen := 0, profile := [], layoutId := [], imageDigest := [], k := 0, clean := 0, feedGroup := 0, correlated := false
          scaleEntries := [], log := [], logIndex := 0, tStart := 0, regions := [] }
      let s := { s with res := { s.res with drain := some d, shippedGib := 0 } }
      let s := match n with | some n => s.setRunning n | none => s
      if s.step.isSome then s else s.beginSnapshot

/-- DRAIN: one drain at a time (R468, R477, R480). -/
def execDrain (n : Nat) (s : State) : Out :=
  if s.res.drain.isSome then .next s
  else startHeld 0x05 n (fun s h => s.startDrain (some n) (h.field 8 2) (h.field 0x0A 1)) s

/-- After a STEP that advanced U to a multiple of the interval (R480). -/
def State.autoDrain (s : State) : State :=
  if s.res.protect && s.res.interval ≠ 0 && s.train.u.toNat % s.res.interval.toNat = 0 then
    if s.res.drain.isSome then { s with res := { s.res with skipped := BitVec.ofNat 32 (satInc 32 s.res.skipped.toNat 1) } }
    else s.startDrain none s.res.partner.toNat s.res.path.toNat
  else s

/-- The partner and the path that a drain reports as its own when it ends: those of its command (R468). -/
def State.drainNames (s : State) (d : Drain) : Nat × Nat :=
  match d.n.bind s.held? with
  | some h => (h.field 8 2, h.field 0x0A 1)
  | none => (s.res.partner.toNat, s.res.path.toNat)

/-- The running drain ends; nothing more of it is shipped. -/
def State.stopDrain (s : State) (d : Drain) (st : CmdStatus) (detail result : Nat) : State :=
  (if d.shipping then s.dropDrainData d.partner else s).endDrain d.n (s.drainNames d).1 (s.drainNames d).2 st detail result

/-- Reads one region of the bank into the home slot; none when its words could not be read, after the drain has ended. -/
def State.readRegion (s : State) (d : Drain) (r : Nat) : State × Option Drain :=
  let lo := max d.bankBase (r * 2 ^ 21)
  let hi := min (d.bankBase + d.bankLen) ((r + 1) * 2 ^ 21)
  match s.mainRead 5 lo (hi - lo) with
  | (s, .ok bs) =>
    let s := s.mainPut (s.homeSlot d.slot + copyBankAt + (lo - d.bankBase)) bs
    let d := { d with regions := d.regions ++ [r] }
    ({ s with res := { s.res with drain := some d } }, some d)
  | (s, .uncorrectable a) => (s.stopDrain d .memoryUncorrectable a 0, none)
  | (s, _) => (s.stopDrain d .notReady 0 0, none)

/-- Reads a list of regions. -/
def readRegions : List Nat → State → Drain → State × Option Drain
  | [], s, d => (s, some d)
  | r :: rs, s, d =>
    match s.readRegion d r with
    | (s, some d) => readRegions rs s d
    | (s, none) => (s, none)

/-- Packets of a byte string for VC2, of up to four units each; dest_ring names the kind, 0 manifest, 1 leaf, 2 chunk. -/
def drainPackets (s : State) (i kind : Nat) (bs : List Byte) : List LinkPacket :=
  let us := unitsOf bs
  (chunks 4 us.length us).map fun u => ⟨(PktHeader.mk 2 (s.partner i).rank s.ownRank 0 kind u.length false 0 0 0).pack, u⟩

/-- Shipping: the manifest, then the chunks in order, each behind its leaf, on VC2 or as drain datagrams (R433, R439, R477).
(DESIGN CHOICE, log 127) -/
def State.ship (s : State) (i : Nat) (manifest body : List Byte) (leaves : List (List Byte)) : State :=
  let parts := (chunks chunkBytes body.length body).zip leaves
  s.sendAllVia i 2 (drainPackets s i 0 manifest
    ++ parts.flatMap fun p => drainPackets s i 1 p.2 ++ drainPackets s i 2 p.1)

/-- The home copy is complete and shipping begins (R475 to R477). -/
def State.sealHome (s : State) (d : Drain) : State :=
  let base := s.homeSlot d.slot
  let s := s.mainPut (base + copyBodyAt) (NMap.getRun 0 d.log 0 (2 ^ 20))
  let s := s.mainPut (base + copyScaleAt) ((List.range 8192).flatMap fun n => (NMap.get ScaleEntry.init d.scaleEntries n).bytes)
  match s.mainRead 5 (base + copyBodyAt) (bodyBytes d.bankLen) with
  | (s, .uncorrectable a) => s.stopDrain d .memoryUncorrectable a 0
  | (s, .ok body) =>
    let leaves := digestLeaves body
    let s := s.mainPut (base + copyBankAt + d.bankLen) (fit 0 (ceilDiv (32 * leaves.length) 65536 * 65536) leaves.flatten)
    let m := d.manifest (rootOf body.length leaves) s.now
    let s := s.mainPut base m
    State.ship { s with res := { s.res with
      drain := some { d with shipping := true }, homeValid := true, homeNewest := d.slot == 1, lastU := d.u } } d.partner m body leaves
  | (s, _) => s.stopDrain d .notReady 0 0

/-- DRAIN_SNAPSHOT_DONE (R477). -/
def execDrainSnapshotDone (s : State) : Out :=
  match s.res.drain with
  | some d =>
    if d.begun && !d.shipping then
      match readRegions (d.bankRegions.filter fun r => !d.regions.contains r) s d with
      | (s, some d) => .next (s.sealHome d)
      | (s, none) => .next s
    else .next s
  | none => .next s

/-- A held write lands (R344): its holder goes on. -/
def State.landHeld (s : State) (w : HeldWrite) : State :=
  let s := { s with train := { s.train with
    held := s.train.held.filter (· != w), holdNs := BitVec.ofNat 32 (satInc 32 s.train.holdNs.toNat (s.now - w.since)) } }
  let data := match w.bit with
    | some b => [putBit ((s.mainBytes w.addr 1).headD 0) b.1 b.2]
    | none => w.data
  let r := s.mainWrite w.addr data
  match w.slot, w.reach with
  | some k, _ =>
    match wroteMain r with
    | .done s => s
    | .wait s _ => s
    | .fail c s => s.modTile w.tile fun x =>
      match x.mvRun k with
      | some m => x.setRun k (some { m with failed := some (m.failed.getD c) })
      | none => x
  | _, some id =>
    match r with
    | (s, .ok _) => s.setReach w.tile id (.ok [])
    | (s, .uncorrectable x) => s.setReach w.tile id (.uncorrectable (some x))
    | (s, _) => s.setReach w.tile id .isolated
  | _, _ => r.1

/-- BANK_HOLD_RELEASE: the drain reads a held region ahead of the others, and the writes that nothing holds any more land
(R344). -/
def bankHoldRelease (s : State) (region : Nat) : State :=
  let s := match s.res.drain with
    | some d =>
      if d.begun && !d.shipping && d.bankRegions.contains region && !d.regions.contains region then (s.readRegion d region).1 else s
    | none => s
  (s.train.held.filter fun w => decide (w.addr / 2 ^ 21 ≤ region) && decide (region ≤ (w.addr + w.data.length - 1) / 2 ^ 21)
    && !s.drainHolds w.addr w.data.length).foldl State.landHeld s

def execBankHoldRelease (region : Nat) (s : State) : Out := .next (bankHoldRelease s region)

/-! ### The receiver (R478, R479) -/

def State.owner (s : State) (k : Nat) : Option ForeignOwner := NMap.get none s.res.owners k
def State.setOwner (s : State) (k : Nat) (o : Option ForeignOwner) : State :=
  { s with res := { s.res with owners := NMap.set none s.res.owners k o } }

/-- A fill under way for a sender: the number of its pair and the fill. -/
def State.fillOf (s : State) (identity : Word64) : Option (Nat × ForeignFill) :=
  (s.res.fills.filterMap fun p => p.2.map fun f => (p.1, f)).find? fun p => p.2.identity == identity
def State.setFill (s : State) (pair : Nat) (f : Option ForeignFill) : State :=
  { s with res := { s.res with fills := NMap.set none s.res.fills pair f } }

/-- The pair of foreign slots for a sender: its own, or the lowest free one (R478). -/
def State.foreignPair (s : State) (identity : Word64) : Option Nat :=
  let pairs := if s.foreignLength = 0 then [] else List.range (s.foreignSlots / 2)
  let owns (p : Nat) : Bool := [2 * p, 2 * p + 1].any fun k => (s.owner k).any fun o => o.identity == identity
  match pairs.find? owns with
  | some p => some p
  | none => pairs.find? fun p => (s.owner (2 * p)).isNone && (s.owner (2 * p + 1)).isNone

/-- Index of the entry of an identity. -/
def State.indexOf (s : State) (identity : Word64) : Nat :=
  ((s.link.partners.find? fun p => p.2.state != 0 && p.2.path != 2 && p.2.identity == identity).map (·.1)).getD 0

/-- Begins a fill: the pair's slot that does not hold the newest complete copy, its complete flag cleared (R478). -/
def State.openFill (s : State) (manifest : List Byte) : State :=
  let identity := BitVec.ofNat 64 (leAt manifest 8 8)
  match s.foreignPair identity with
  | none => s
  | some p =>
    if s.foreignLength < copyBytes (leAt manifest 0x20 8) then s
    else
      let keepsFirst := (s.owner (2 * p)).any fun o => o.newest && o.complete
      let k := if keepsFirst then 2 * p + 1 else 2 * p
      let fresh : ForeignOwner := ⟨false, false, BitVec.ofNat 12 (s.indexOf identity), identity⟩
      let s := if (s.owner (2 * p)).isNone then s.setOwner (2 * p) (some fresh) else s
      let s := if (s.owner (2 * p + 1)).isNone then s.setOwner (2 * p + 1) (some fresh) else s
      let s := s.setOwner k (some fresh)
      let read := s.mainRead 5 (s.foreignSlot k + 0x81) 1
      let s := read.1
      let flags := match read.2 with | .ok b => b.headD 0 | _ => 0
      let s := s.mainPut (s.foreignSlot k + 0x81) [flags &&& 0xFE]
      s.setFill p (some ⟨identity, k, manifest, [], false⟩)

/-- A remote entry in state up has this identity (R414). -/
def State.admits (s : State) (identity : Word64) : Bool := s.upPartners.any fun p => p.2.identity == identity

/-- DRAIN_CHUNK_RECEIVE: what comes from an identity without an entry is dropped; the chunk and its leaf are written and the leaf
is checked; after a mismatch the receiver takes no more of the drain (R414, R478, R479). -/
def drainChunk (s : State) (manifest : List Byte) (index : Nat) (chunk leaf : List Byte) : State :=
  let identity := BitVec.ofNat 64 (leAt manifest 8 8)
  if !s.admits identity then s.dropFrame
  else
  let s := match s.fillOf identity with
    | some f => if f.2.manifest = manifest then s else s.openFill manifest
    | none => s.openFill manifest
  match s.fillOf identity with
  | none => s
  | some (p, f) =>
    let bankLen := leAt manifest 0x20 8
    if f.bad || f.manifest ≠ manifest || bodyChunks bankLen ≤ index then s
    else
      let base := s.foreignSlot f.slot
      let own := digestLeaf index chunk
      let s := s.mainPut (base + copyBodyAt + index * chunkBytes) (chunk.take (bodyBytes bankLen - index * chunkBytes))
      let s := s.mainPut (base + copyBankAt + bankLen + 32 * index) own
      s.setFill p (some { f with leaves := NMap.put f.leaves index own, bad := own != leaf })

def execDrainChunkReceive (manifest : List Byte) (index : Nat) (chunk leaf : List Byte) (s : State) : Out :=
  .next (drainChunk s manifest index chunk leaf)

/-- The receiver's end of a drain: every leaf there, the root right, and the manifest is written complete (R478, R479). -/
def receiverEnd (s : State) (identity : Word64) : State :=
  match s.fillOf identity with
  | none => s
  | some (p, f) =>
    let s := s.setFill p none
    let bankLen := leAt f.manifest 0x20 8
    let leaves := f.leaves.map (·.2)
    if f.bad || leaves.length ≠ bodyChunks bankLen || rootOf (bodyBytes bankLen) leaves ≠ (f.manifest.drop 0x30).take 32 then s
    else
      let flags := ((f.manifest.drop 0x81).headD 0 &&& 0xFB) ||| 1
      let s := s.mainPut (s.foreignSlot f.slot) (sealManifest (patch f.manifest 0x81 [flags]))
      let other := if f.slot % 2 = 0 then f.slot + 1 else f.slot - 1
      let s := s.setOwner other ((s.owner other).map fun o => { o with newest := false })
      s.setOwner f.slot ((s.owner f.slot).map fun o => { o with newest := true, complete := true })

/-- The sender's end of a drain (R468, R479, R480). -/
def senderEnd (s : State) (d : Drain) : DrainEnd → State
  | .verified =>
    let n := 65536 + bodyBytes d.bankLen
    { s with res := { s.res with shippedGib := bodyBytes d.bankLen / 2 ^ 30 } }.stopDrain d .ok 0 n
  | .mismatch j => s.stopDrain d .digestMismatch (s.homeSlot d.slot + copyBodyAt + j * chunkBytes) 0
  | .noSlot => s.stopDrain d .notReady 0 0

/-- DRAIN_VERIFIED: at the receiver of the owner's drain, or at the sender when no owner is named (R479). -/
def execDrainVerified (owner : Option Word64) (outcome : DrainEnd) (s : State) : Out :=
  match owner with
  | some id => .next (receiverEnd s id)
  | none =>
    match s.res.drain with
    | some d => if d.shipping then .next (senderEnd s d outcome) else .next s
    | none => .next s

end Sys2Proof.Machine
end

