-- ==== Sys2Proof/Machine/StepCourse.lean ====
section
/-! DEFINITION. The course of a step: its checks, its start and its end; RUN and EVAL; the halt after a fault (R41, R75, R80,
R81, R92 to R94, R203, R302, R323, R337 to R343, R353 to R355, R362, R363, R415, R467 to R472, R477, R480, R487). -/
namespace Sys2Proof.Machine

/-! ### Checks of stage 2 -/

/-- Loaded tiles of an image (R70). -/
def Image.loaded (i : Image) : List Nat := i.tileMap.map (·.1)

/-- A training image is loaded and runnable, and none of its tiles is gated (R81, R482, R519). -/
def State.imageReady (s : State) : Bool :=
  match s.image with
  | some i => s.runnable && s.res.state != .restoreRequired && !(i.loaded.any s.isolated)
  | none => false

/-- An extended group is loaded and the domain is not complete (R415). -/
def State.domainBroken (s : State) : Bool :=
  match s.selfEntry with
  | some e => ((List.range 8).any fun g => (s.group g).loaded && e.extended.getLsbD g) && !s.domainComplete
  | none => false

/-- Key derivation or arming is in progress, of a tile that is not gated: firmware releases no tile (R330, R333). -/
def State.randomBusy (s : State) : Bool := s.random.keyBusy || s.tiles.any fun p => p.2.rn.arming && !s.isolated p.1

/-- Faulty fields of a batch header and its sequence table (R337). -/
def seqFaults (b : List Byte) (len : Nat) : List (Nat × Bool) :=
  let n := leAt b 0 4
  if n = 0 || 512 < n || len < 0x10 + 16 * n then [(0, true)]
  else
    (4, leAt b 4 12 ≠ 0) :: (List.range n).flatMap fun j =>
      let o := 0x10 + 16 * j
      [(o, len ≤ leAt b o 8), (o + 8, leAt b (o + 8) 4 = 0 || len < leAt b o 8 + leAt b (o + 8) 4)]

/-- The sequence window of a batch (R338). -/
def seqWindowOf (b : List Byte) : Mem := NMap.setRun 0 [] 0 (b.take (0x10 + 16 * leAt b 0 4))

/-- Reads bytes of the batch (R403). (DEDUCED, log 59) -/
def State.takeBatch (s : State) (a n : Nat) : State × Except (CmdStatus × Nat) (List Byte) :=
  match s.mainRead 5 a n with
  | (s, .ok bs) => (s, .ok bs)
  | (s, .outside) => (s, .error (.badPacket, 0x10))
  | (s, .isolated) => (s, .error (.notReady, 0))
  | (s, .uncorrectable x) => (s, .error (.memoryUncorrectable, x))

/-- Place of the log entry of index i (R471). -/
def State.logAddr (s : State) (i : Word64) : Nat := s.res.recoveryBase.toNat + 256 * (i.toNat % 4096)

/-- The 1 MiB scale table (R197). -/
def State.scaleTableBytes (s : State) : List Byte := (List.range 8192).flatMap fun n => (s.scaleEntry n).bytes

/-- The log entry that a STEP replays, or none when the step runs as usual (R487). (DEDUCED, log 103) -/
def State.replayCheck (s : State) (stepNo : Word64) (b : List Byte) (addr : Nat) : Except (CmdStatus × Nat) (Option (List Byte)) :=
  match s.res.replay with
  | none => .ok none
  | some x =>
    let entry (i : Word64) : List Byte := s.mainBytes (s.logAddr i) 256
    let known := (List.range 4096).any fun k =>
      decide (k ≤ (x.last - x.first).toNat) && leAt (entry (x.first + BitVec.ofNat 64 k)) 0 8 == stepNo.toNat
    let e := entry x.next
    if !known then .ok none
    else if leAt e 0 8 ≠ stepNo.toNat || leAt e 8 8 ≠ s.train.u.toNat then .error (.badPacket, 8)
    else if (e.drop 0x20).take 32 ≠ digest b then .error (.digestMismatch, addr)
    else if (e.drop 0x60).take 32 ≠ digest s.scaleTableBytes then .error (.digestMismatch, scaleWindowBase)
    else if (e.drop 0xA0).take 32 ≠ s.profile && !x.forced then .error (.profileMismatch, 0)
    else .ok (some e)

/-- Reads the log entry that a replay takes next (R403, R487). -/
def State.readLogged (s : State) : State × Option (CmdStatus × Nat) :=
  match s.res.replay with
  | none => (s, none)
  | some x =>
    match s.mainRead 5 (s.logAddr x.next) 256 with
    | (s, .uncorrectable a) => (s, some (.memoryUncorrectable, a))
    | (s, _) => (s, none)

/-- A logged replay takes both seeds and k from its entry (R331, R487). -/
def State.takeLogged (s : State) (e : List Byte) : State :=
  let seed := BitVec.ofNat 64 (leAt e 0x40 8)
  { s with
    random := { s.random with keyedSeed := seed, freeSeed := BitVec.ofNat 64 (leAt e 0x48 8), key := deriveKey seed, keyValid := true }
    scale := { s.scale with k := leAt e 0x50 1 } }

/-- What held at stage 2 that R472 asks for. -/
def State.replayEligible (s : State) : Bool := s.res.protect && !s.freeMode && s.bell.timeoutEnable && !s.expertCode

/-- What R472 asks for must hold for the whole step: an entry whose condition fails in between is not eligible. -/
def State.keepEligible (s : State) : State :=
  match s.step with
  | some r =>
    if s.replayEligible then s
    else { s with step := some { r with log := r.log.map fun l => { l with eligible := false } } }
  | none => s

/-- What the step-log entry takes at stage 2 (R469, R471). -/
def State.logStart (s : State) (b : List Byte) : LogStart :=
  { u := s.train.u, k := s.scale.k, clean := s.scale.clean, keyedSeed := s.random.keyedSeed, freeSeed := s.random.freeSeed
    scaleDigest := digest s.scaleTableBytes, batchDigest := digest b, eligible := s.replayEligible }

/-- Copies the batch to its input-ring slot, unless it stands there (R469). -/
def State.copyBatch (s : State) (addr : Nat) (b : List Byte) : State :=
  let slot := s.res.recoveryBase.toNat + 2 ^ 20 + s.res.logIndex.toNat % max 1 s.ringDepth * s.slotLength
  if addr = slot then s else s.mainPut slot b

/-- What stage 2 has prepared. -/
structure Prepared where
  log : Option LogStart
  logged : Bool
  holdBank : Bool
deriving DecidableEq, Repr

/-- Stage 2 of a STEP, or of one step of a RUN, in the order of its checks (R81, R337, R338, R343, R415, R469, R487). -/
def State.stage2 (s : State) (stepNo : Word64) (addr len : Nat) (hold : Bool) : State × Except (CmdStatus × Nat) Prepared :=
  let bankBad := s.train.enable && s.bankBroken s.train.bankA.toNat s.train.bankB.toNat s.train.bankLen.toNat
  if !s.imageReady || s.domainBroken || bankBad then (s, .error (.notReady, 0))
  else
    let whole := s.res.protect || s.res.replay.isSome
    let table := s.imageFlag 4
    match (if whole then s.takeBatch addr len else if table then s.takeBatch addr (min len 0x2010) else (s, .ok [])) with
    | (s, .error e) => (s, .error e)
    | (s, .ok b) =>
      let read := s.readLogged
      let s := read.1
      match (match read.2 with | some e => Except.error e | none => s.replayCheck stepNo b addr) with
      | .error e => (s, .error e)
      | .ok entry =>
        match if table then firstFault (seqFaults b len) else none with
        | some o => (s, .error (.badPacket, o))
        | none =>
          if s.res.protect && s.slotLength < len then (s, .error (.badPacket, 0x18))
          else
            let s := match entry with
              | some e => s.takeLogged e
              | none =>
                { s with res := { s.res with
                  replay := none, state := if s.res.state == RecoveryState.replay then .normal else s.res.state } }
            let log := if s.res.protect then some (s.logStart b) else none
            let s := if s.res.protect then s.copyBatch addr b else s
            let hold := match entry with | some e => natBit (leAt e 0x51 1) 3 | none => hold
            ({ s with seqWindow := if table then seqWindowOf b else [] }, .ok ⟨log, entry.isSome, hold⟩)

/-! ### Stage 3: the release of the tiles -/

/-- Counters of a tile that every step start clears (R87, R102, R179, R247, R270, R311, R333, R367). -/
def Tile.clearCounters (c : Tile) : Tile :=
  { c with
    core := { c.core with stallCount := 0, cycles := 0, emptyCutCycles := 0 }
    mem := { c.mem with collision := 0, conflict := 0 }
    mx := { c.mx with feedBusy := 0, feedBubble := 0, heldWait := 0 }
    slabs := .init
    mv := { c.mv with done := 0, failCount := 0, waitCycles := 0 }
    sd := { c.sd with issued := 0, excess := 0 }
    rn := { c.rn with drainWait := 0 }
    nt := { c.nt with wait := 0 } }

/-- A tile as a step starts it on the groups given (R75, R142, R159, R215, R247, R270, R283, R287, R305, R333, R361, R367).
(DEDUCED, log 61) -/
def Tile.atStart (c : Tile) (entry : Nat) (gs : List Nat) : Tile :=
  let c := c.clearCounters
  { c with
    core := { c.core with
      pc := entry, pendS := 0, pendV := 0, halt := false, run := .running, stallKind := .none, stallRing := 0
      engineWork := false, held := none, pageWait := none }
    rings := c.rings.map fun x => { x with waiting := [], timer := 0, raised := false, sources := [], multi := [] }
    mx := { Mx.init with
      threshold := c.mx.threshold, forceDense := c.mx.forceDense, lastCount := c.mx.lastCount, sat := c.mx.sat, nan := c.mx.nan }
    mv := { c.mv with startWait := none, startFail := none }
    sd := { c.sd with
      queue := [], sendGroup := BitVec.ofNat 3 (gs.headD 0), heads := []
      groups := gs.map fun g => (g, { Member.init with inStep := true }) }
    rn := { c.rn with queue := [] }
    rc := { c.rc with out := [], mainWords := [] }
    nt := .init }

/-- A loaded group as a step starts it: its first bell is a cut bell and its timer starts (R287, R291, R292, R305). -/
def State.startGroup (s : State) (g : Nat) : State :=
  let G := s.group g
  let ext := (s.selfEntry.map fun e => e.extended.getLsbD g).getD false
  s.setGroup g { G with
    peers := if ext then s.domainPeers else [], rank := s.ownRank, phase := .cut, index := 0, fires := 0, latency := 0
    localHeld := false, holding := false, frames := [], timerStart := s.now
    timerLimit := some (s.bell.timeoutMs.toNat * 1000000), waived := false, tRel := s.now, tCut := 0, cutTimes := []
    rolledAny := false, dividedBenches := (List.range 6).filter fun b => s.effective b != 0, probed := [] }

/-- A group that the image does not load counts nothing either (R305, R308). -/
def State.idleGroup (s : State) (g : Nat) : State :=
  s.setGroup g { s.group g with fires := 0, latency := 0, phase := .cut, index := 0 }

/-- Groups of the loaded image. -/
def State.loadedGroups (s : State) : List Nat := (List.range 8).filter fun g => (s.group g).loaded

/-- Starts one run of a step: the tiles are released at their entry addresses (R41 stage 3, R75, R203, R302, R362). -/
def State.launch (s : State) (r : StepRun) : State :=
  match s.image with
  | none => s
  | some i =>
    let eval := r.kind == .eval
    let s := { s with
      step := some r
      res := { s.res with attempt := BitVec.ofNat 4 (r.attempt + 1) }
      scale := { s.scale with done := false }
      train := { s.train with
        holdNs := 0
        normWritten := if eval then s.train.normWritten else false, norm := if eval then s.train.norm else []
        normTouch := if eval then s.train.normTouch else [], normBad := if eval then s.train.normBad else [] }
      host := { s.host with sendFails := [], sendFailCount := 0, sendIsolated := false } }
    let s := s.clearPosts
    let s := (List.range 8).foldl (fun s g => if (s.group g).loaded then s.startGroup g else s.idleGroup g) s
    let s := { s with tiles := s.tiles.map fun p => (p.1, p.2.clearCounters) }
    i.tileMap.foldl (fun s p =>
      s.modTile p.1 fun c => c.atStart ((i.classes.map (·.entry)).getD p.2 0) (s.groupsOf p.1)) s

/-- A step as it begins. -/
def newRun (s : State) (kind : StepKind) (n : Nat) (stepNo : Word64) (addr len : Nat) : StepRun :=
  { kind := kind, n := n, stepNo := stepNo, batchAddr := addr, batchLen := len, holdBank := false, attempt := 0, startTime := s.now
    log := none, runList := none, logged := false, programFault := false, haltAt := none, faulted := [], timeout := none
    cause := none, stopped := false, training := none, scales := [] }

/-- U is sampled and the tiles are released (R339, R342). -/
def State.startStep (s : State) (r : StepRun) : State :=
  { s with train := { s.train with uSampled := some s.train.u, readBank := s.train.u.getLsbD 0 } }.launch r

/-! ### Stage 7: the end of a step -/

/-- Supersteps that every loaded group has run (R400). -/
def State.superstepsRun (s : State) : Nat :=
  match s.loadedGroups.map fun g => (s.group g).index with
  | [] => 0
  | x :: xs => xs.foldl min x

/-- The step-log entry of a step that ran so many times (R471). -/
def State.logBytes (s : State) (r : StepRun) (l : LogStart) (runs status : Nat) (advanced exceeds : Bool) : List Byte :=
  let flags := b2n (l.eligible && s.replayEligible) + fieldAt (b2n advanced) 1 + fieldAt (b2n exceeds) 2 + fieldAt (b2n r.holdBank) 3
    + fieldAt (b2n s.res.forced) 4 + fieldAt (b2n s.pw.fieldBench.isSome) 5 + fieldAt (b2n r.logged) 6
  fit 0 256 (leBytes 8 r.stepNo.toNat ++ leBytes 8 l.u.toNat ++ leBytes 8 r.batchAddr ++ leBytes 8 r.batchLen
    ++ fit 0 32 l.batchDigest ++ leBytes 8 l.keyedSeed.toNat ++ leBytes 8 l.freeSeed.toNat ++ leBytes 1 l.k ++ leBytes 1 flags
    ++ leBytes 2 runs ++ leBytes 4 l.clean ++ leBytes 4 s.supersteps ++ leBytes 2 status
    ++ leBytes 2 (s.res.logIndex.toNat % max 1 s.ringDepth) ++ fit 0 32 l.scaleDigest ++ fit 0 32 (s.slot 5) ++ fit 0 32 s.profile
    ++ leBytes 8 r.startTime ++ leBytes 8 s.now ++ leBytes 8 s.res.logIndex.toNat)

/-- Writes the entry of the step and moves STEP_LOG_INDEX on (R469, R471). -/
def State.writeLog (s : State) (r : StepRun) (runs status : Nat) (advanced exceeds : Bool) : State :=
  match r.log with
  | none => s
  | some l =>
    let s := s.mainPut (s.logAddr s.res.logIndex) (s.logBytes r l runs status advanced exceeds)
    { s with res := { s.res with logIndex := s.res.logIndex + 1 } }

/-- U advances, or the reason why it does not; with banking disabled no reason fits and the field is left open (R340, R368).
(DESIGN CHOICE, log 58) -/
def State.advanceU (s : State) (r : StepRun) (ok exceeds : Bool) : State × Bool :=
  let hold (s : State) (why : BitVec 2) : State × Bool :=
    ({ s with train := { s.train with advanced := false, holdReason := why } }, false)
  if !ok then hold s 0
  else if exceeds then hold s 1
  else if r.holdBank then hold s 2
  else if !s.train.enable then hold s.free.2 (s.free.1.setWidth 2)
  else
    ({ s with
      train := { s.train with u := s.train.u + 1, advanced := true }
      res := { s.res with lastStep := r.stepNo } }, true)

/-- After a logged replay the next entry is due, or the replay state ends (R487). -/
def State.replayDone (s : State) (r : StepRun) : State :=
  match s.res.replay with
  | some x =>
    if !r.logged then s
    else if x.next = x.last then
      { s with res := { s.res with replay := none, state := if s.res.state == RecoveryState.replay then .normal else s.res.state } }
    else { s with res := { s.res with replay := some { x with next := x.next + 1 } } }
  | none => s

/-- The S-core of a tile stops where it stands (R80). -/
def Tile.stopCore (c : Tile) : Tile :=
  let c := c.unstalled
  { c with core := { c.core with
    halt := true
    run := match c.core.run with | .faulted => .faulted | _ => .halted } }

/-- Stops every bell timer. -/
def State.stopTimers (s : State) : State :=
  { s with bell := { s.bell with groups := s.bell.groups.map fun p => (p.1, { p.2 with timerLimit := none }) } }

/-- The members of the loaded groups leave the step (R309). -/
def State.leaveStep (s : State) : State :=
  { s with tiles := s.tiles.map fun p =>
    (p.1, { p.2 with sd := { p.2.sd with groups := p.2.sd.groups.map fun g => (g.1, { g.2 with inStep := false }) } }) }

/-- After an EVAL: the training image's code, ring descriptors and view come back, and what was posted is discarded (R93,
R200). A tile to which only the evaluation image gave a class keeps that code and those rings. (DEDUCED, log 60) -/
def State.endEval (s : State) (r : StepRun) : State :=
  match r.training with
  | none => s
  | some i =>
    let s := i.loaded.foldl (fun s t => s.modTile t fun c => c.installClass i t) s
    { (s.restoreView r.scales).clearPosts with image := some i }

/-- The state in which no step runs. -/
def State.clearStep (s : State) : State :=
  let s := s.stopTimers.leaveStep
  { s with
    step := none
    res := { s.res with
      attempt := 0, failures := [], filling := false, peerSince := none
      state := match s.res.state with
        | .repairHold | .peerHold => if s.res.replay.isSome then .replay else .normal
        | x => x } }

/-- A STEP completes, a RUN goes on to its next step, or an EVAL completes; a drain that waited begins its snapshot, and an
automatic drain starts, before another step's tiles are released (R41, R94, R323, R400, R477, R480). -/
def State.endStep (s : State) (r : StepRun) (st : CmdStatus) (detail : Nat) (exceeds : Bool)
    (next : State → StepRun → RunList → State) : State :=
  if r.kind == .eval then ((s.endEval r).clearStep.beginSnapshot).complete r.n st detail 0 (decide (0 < r.attempt))
  else
    let a := s.advanceU r (st == CmdStatus.ok) exceeds
    let ran := s.superstepsRun
    let s := (a.1.writeLog r (r.attempt + 1) st.code a.2 exceeds).replayDone r
    let s := { s.clearStep with lastDone := some r.stepNo }
    let s := s.beginSnapshot
    let s := if a.2 then s.autoDrain else s
    match r.runList with
    | none => s.complete r.n st detail (ran % 2 ^ 32 + fieldAt (r.attempt + 1) 32) (decide (0 < r.attempt))
    | some l =>
      let l := { l with
        completed := if st == CmdStatus.ok then l.completed + 1 else l.completed, replayed := l.replayed || decide (0 < r.attempt) }
      if st == CmdStatus.ok && l.completed < l.count then next s r l
      else s.complete r.n st detail l.completed l.replayed

/-- A STEP that stage 2 refuses: U does not advance, and with replay protection on the step log takes its entry
(R323, R368, R471). (DEDUCED, log 121) -/
def State.refuseStep (s : State) (r : StepRun) (e : CmdStatus) : State :=
  let s := { s with lastDone := some r.stepNo, train := { s.train with advanced := false, holdReason := 0 } }
  if !s.res.protect then s
  else
    let d := if s.inMain r.batchAddr r.batchLen then (digest (s.mainBytes r.batchAddr r.batchLen), s) else s.freeBytes 4
    d.2.writeLog { r with log := some { d.2.logStart [] with batchDigest := d.1 } } 0 e.code false false

/-- The next step of a RUN: its batch-table entry, and stage 2 (R400). -/
def State.nextOfRun (s : State) (r : StepRun) (l : RunList) : State :=
  let fail (s : State) (e : CmdStatus × Nat) : State := s.complete r.n e.1 e.2 l.completed l.replayed
  match s.mainRead 5 (l.table + 16 * l.completed) 16 with
  | (s, .ok b) =>
    let stepNo := l.first + BitVec.ofNat 64 l.completed
    let run := newRun s .run r.n stepNo (leAt b 0 8) (leAt b 8 8)
    match s.stage2 stepNo (leAt b 0 8) (leAt b 8 8) l.hold with
    | (s, .error e) => fail (s.refuseStep { run with holdBank := l.hold } e.1) e
    | (s, .ok p) =>
      s.startStep { newRun s .run r.n stepNo (leAt b 0 8) (leAt b 8 8) with
        log := p.log, logged := p.logged, holdBank := p.holdBank, runList := some l }
  | (s, .outside) => fail s (.badPacket, 0x18)
  | (s, .isolated) => fail s (.notReady, 0)
  | (s, .uncorrectable a) => fail s (.memoryUncorrectable, a)

/-- The running step ends with a status (R41 stages 7 and 8). -/
def State.finish (s : State) (r : StepRun) (st : CmdStatus) (detail : Nat) (exceeds : Bool) : State :=
  s.endStep r st detail exceeds State.nextOfRun

/-- Copies the shadow-written pages to the shadow and clears their bits (R467). -/
def State.shadowCopy (s : State) : State :=
  s.tiles.foldl (fun s p =>
    if p.2.pages.shadowWritten.isEmpty then s
    else
      let s := if s.unshadowed then s else s.shadowPages p.1 p.2.pages.shadowWritten
      s.modTile p.1 fun c => { c with pages := { c.pages with shadowWritten := [] } }) s

/-- FLT_MAX in units of 2^-298 (R362, R363). -/
def fltMaxUnits : Nat := (2 ^ 24 - 1) * 2 ^ 402

/-- A sum of the norm window as FP32 under RNE, and whether it overflows (R363). -/
def normWord (sum : Nat) : Word32 × Bool :=
  if fltMaxUnits < sum then (posInf, true) else (toF32 (.fin false sum (-298)), false)

/-- Entry of a layer: its 16 bytes, touched, non-finite, overflow (R363). -/
def State.normEntry (s : State) (layer : Nat) : List Byte × Bool × Bool × Bool :=
  let k (q : Nat) : Nat := 3 * layer + q
  let ws := (List.range 3).map fun q => normWord (NMap.get 0 s.train.norm (k q))
  let touch := (List.range 3).map fun q => NMap.get false s.train.normTouch (k q)
  let bad := (List.range 3).map fun q => NMap.get false s.train.normBad (k q)
  let bits (l : List Bool) : Nat := ((l.zip (List.range 3)).map fun p => fieldAt (b2n p.1) p.2).foldl (· + ·) 0
  let exceeds := ws.map (·.2)
  (ws.flatMap (fun w => leBytes 4 w.1.toNat) ++ leBytes 4 (bits touch + fieldAt (bits bad) 4 + fieldAt (bits exceeds) 8),
    touch.any id, bad.any id, exceeds.any id)

/-- Writes the norm window to main memory (R363, R370). -/
def State.writeNorm (s : State) : State :=
  if !s.train.normEnable then s
  else
    let es := (List.range s.train.normLayers).map s.normEntry
    let s := s.mainPut s.train.normBase.toNat (es.flatMap (·.1))
    { s with train := { s.train with
      normWritten := true, normNonfinite := es.any (·.2.2.1), normOverflow := es.any (·.2.2.2)
      normTouched := (es.filter (·.2.1)).length } }

/-- Takes the records that the tiles still hold (R302). -/
def State.takeAllRecords (s : State) : State := s.tiles.foldl (fun s p => takeRecords p.1 (sdDepth + recordDepth) s) s

/-- Every loaded group has passed its final bell (R42). -/
def State.allFinal (s : State) : Bool := s.loadedGroups.all fun g => (s.group g).phase == .done

/-- STEP_END (R41, R205, R210, R302, R363, R467). -/
def stepEnd (s : State) : State :=
  match s.step with
  | none => s
  | some r =>
    if r.stopped || r.programFault || !s.allFinal then s
    else
      let s := s.takeAllRecords
      let exceeds := s.overflowed
      let s := if r.kind == .eval then s else s.scaleUpdate.shadowCopy.writeNorm
      if s.host.sendIsolated then s.finish r .haulTargetIsolated s.host.sendFailCount exceeds
      else s.finish r .ok 0 exceeds

def execStepEnd (s : State) : Out := .next (stepEnd s)

/-! ### STEP, RUN, EVAL -/

/-- STEP (R41, R400). -/
def execStep (n : Nat) (s : State) : Out :=
  if s.randomBusy then .next s
  else
    startHeld 0x03 n (fun s h =>
      let stepNo := BitVec.ofNat 64 (h.field 8 8)
      match s.stage2 stepNo (h.field 0x10 8) (h.field 0x18 8) (h.flag 1) with
      | (s, .error e) =>
        let run := { newRun s .step n stepNo (h.field 0x10 8) (h.field 0x18 8) with holdBank := h.flag 1 }
        (s.refuseStep run e.1).complete n e.1 e.2 0 false
      | (s, .ok p) =>
        (s.startStep { newRun s .step n stepNo (h.field 0x10 8) (h.field 0x18 8) with
          log := p.log, logged := p.logged, holdBank := p.holdBank }).setRunning n) s

/-- RUN: its first step; the next ones follow at STEP_END (R400). -/
def execRun (n : Nat) (s : State) : Out :=
  if s.randomBusy then .next s
  else
    startHeld 0x02 n (fun s h =>
      let first := BitVec.ofNat 64 (h.field 8 8)
      let l : RunList := ⟨first, h.field 0x10 4, h.field 0x18 8, 0, false, h.flag 1⟩
      (s.setRunning n).nextOfRun { newRun s .run n first 0 0 with runList := some l } l) s

/-- N of an EVAL (R323). -/
def State.evalNumber (s : State) : Word64 := s.lastDone.getD 0 ||| (1#64 <<< 63)

/-- The evaluation image replaces code, ring descriptors and the view, and its tiles are released (R93, R115, R200, R353,
R542). (DEDUCED, log 60) -/
def State.startEval (s : State) (n : Nat) (i training : Image) (addr len : Nat) (window : Mem) : State :=
  let s := s.extend 4 (digest i.bytes)
  let s := i.loaded.foldl (fun s t => s.modTile t fun c => c.installClass i t) s
  let old := s.scale.entries
  let s := { s.evalView i.view with image := some i, seqWindow := window }
  (s.launch { newRun s .eval n s.evalNumber addr len with training := some training, scales := old }).setRunning n

/-- EVAL, its checks in the order of R94 (R94, R195, R196, R337, R415). -/
def State.evalCheck (s : State) (n : Nat) (h : HostReply) (c : Held) : State :=
  match s.image, h with
  | none, _ => s.complete n .notReady 0 0 false
  | some training, h =>
    if !s.imageReady || s.domainBroken then s.complete n .notReady 0 0 false
    else
      match s.hostAnswer h with
      | .fail e => (s.hostFailed e).complete n .hostError (c.field 8 8) 0 false
      | .ok =>
        let b := s.getHost (c.field 8 8) (c.field 0x10 8)
        let addr := c.field 0x18 8
        let len := c.field 0x20 8
        match s.checkImage b (c.field 0x10 8) (some training) fun i => i.target == training.target with
        | .error e => s.complete n e.1 e.2 0 false
        | .ok i =>
          if i.profile ≠ training.profile then s.complete n .profileMismatch 0 0 false
          else if !i.flags.getLsbD 4 then s.startEval n i training addr len []
          else
            match s.takeBatch addr (min len 0x2010) with
            | (s, .error e) => s.complete n e.1 (if e.1 == CmdStatus.badPacket then 0x18 else e.2) 0 false
            | (s, .ok bs) =>
              match firstFault (seqFaults bs len) with
              | some o => s.complete n .badPacket o 0 false
              | none => s.startEval n i training addr len (seqWindowOf bs)

/-- EVAL (R94, R353). -/
def execEval (n : Nat) (h : HostReply) (s : State) : Out :=
  if s.randomBusy then .next s else startHeld 0x04 n (fun s c => s.evalCheck n h c) s

/-! ### The halt after a fault (R80, R482 step 1) -/

/-- Halts the S-cores of the loaded tiles; nothing of the step goes on but the engines (R80). -/
def State.stopTiles (s : State) : State :=
  match s.image, s.step with
  | some i, some r =>
    let s := i.loaded.foldl (fun s t => s.modTile t Tile.stopCore) s
    { s with step := some { r with stopped := true, haltAt := some s.now } }
  | _, _ => s

/-- PROGRAM_FAULT_HALT: the timers of the faulted tiles' groups stop and every loaded S-core halts (R80). -/
def programFaultHalt (s : State) : State :=
  match s.step with
  | some r =>
    if !r.programFault || r.haltAt.isSome then s
    else
      let gs := (List.range 8).filter fun g => (s.group g).members.any fun t => r.faulted.any fun f => f.1 == t
      (gs.foldl (fun s g => s.setGroup g { s.group g with timerLimit := none }) s).stopTiles
  | none => s

def execProgramFaultHalt (s : State) : Out := .next (programFaultHalt s)

/-- Engine work of a tile is over (R80). -/
def Tile.workDone (c : Tile) : Bool := c.enginesIdle && c.sendIdle

/-- Every consumer's claim and every reservation of the tile's rings is released (R80). -/
def Ring.freed (x : Ring) : Ring := { x.moved with claimed := 0, reserved := 0, claims := [], owners := [], waiting := [] }

/-- Tiles that the failures waiting will retire. -/
def State.retiring (s : State) : List Nat := (s.res.failures.filter fun f => !f.transient).map (·.tile)

/-- A reach access into a tile that is being retired fails as isolated: its tile records the fault, and telemetry takes it under an
event number that the spec does not state (R126, R483). (DESIGN CHOICE, log 122) -/
def State.failReach (s : State) (t : Nat) (i : RcItem) : State :=
  let s := s.modTile t fun c => c.recordFault .reachAddress i.pc.toNat i.word i.addr
  let f := s.free
  f.2.stamp (f.1.toNat % 256) t (leBytes 4 i.pc.toNat ++ leBytes 8 i.word.toNat ++ leBytes 8 i.addr)

/-- An engine reset of a tile: mover items and sends report, the rest ends, memory and fault records stay (R80). -/
def State.endWork (s : State) (t : Nat) : State :=
  if (s.tile t).workDone then s
  else
    let gone := s.retiring
    let into (i : RcItem) : Bool := match s.place i.addr i.op.size with | .tile u _ => gone.contains u | _ => false
    let s := ((s.tile t).rc.out.filter fun i => i.open && into i).foldl (fun s i => s.failReach t i) s
    let s := (s.moverAbort t).sendAbort t gone
    let s := s.modTile t fun c => { c with
      core := { c.core with pendS := 0, pendV := 0 }
      mx := { c.mx with queue := [], loader := none, feed := none, drain := none }
      rn := { c.rn with queue := [] }
      rc := { c.rc with out := [], mainWords := [] }
      nt := { c.nt with slots := [], flight := [] }
      rings := c.rings.map Ring.freed }
    { s with
      tiles := s.tiles.map fun p => (p.1, { p.2 with rc := { p.2.rc with inbox := p.2.rc.inbox.filter fun k => k.1 != t } })
      train := { s.train with held := s.train.held.filter fun w => w.tile != t } }

end Sys2Proof.Machine
end

