-- ==== Sys2Proof/Machine/Service.lean ====
section
/-! DEFINITION. Service levels and field mode (R20 to R27, R31, R448 to R450, R491 to R494). -/
namespace Sys2Proof.Machine

/-! ### The spoil map (R20, R21, R27) -/

def State.row (s : State) (k : Nat) : RowRepair := NMap.get RowRepair.init s.res.rows k
def State.setRow (s : State) (k : Nat) (r : RowRepair) : State :=
  { s with res := { s.res with rows := NMap.set RowRepair.init s.res.rows k r } }

/-- A tile is gated off with its row exhausted (R22, R25). -/
def State.loseTile (s : State) (t : Nat) : State :=
  { s with res := { s.res with lost := NMap.set none s.res.lost (s.rowOf t) (some (BitVec.ofNat 4 (s.tx t % 16))) } }

/-- ROW_REPAIR_n (R27). -/
def RowRepair.word (r : RowRepair) : Nat :=
  fieldAt r.offset.toNat 12 + fieldAt (b2n r.shifted) 11 + fieldAt r.spare.toNat 8 + fieldAt r.cause.toNat 4

/-- The fields of a ROW_REPAIR word. -/
def RowRepair.ofWord (w : Nat) : RowRepair :=
  ⟨BitVec.ofNat 4 (bitsAt w 12 4), natBit w 11, BitVec.ofNat 3 (bitsAt w 8 3), BitVec.ofNat 4 (bitsAt w 4 4)⟩

/-! ### The spoil map in flash (R490) -/

/-- A record: the 96 ROW_REPAIR words, the sequence number, and the CRC-32 over both. -/
def spoilRecord (rows : NMap RowRepair) (seq : Nat) : List Byte :=
  let b := ((List.range 96).flatMap fun k => leBytes 4 (NMap.get RowRepair.init rows k).word) ++ leBytes 4 seq
  b ++ leBytes 4 (crc32 b).toNat

def spoilValid (b : List Byte) : Bool := b.length == 392 && leAt b 388 4 == (crc32 (b.take 388)).toNat
def spoilSeq (b : List Byte) : Nat := leAt b 384 4
def spoilRows (b : List Byte) : NMap RowRepair :=
  (List.range 96).foldl (fun m k => NMap.set RowRepair.init m k (RowRepair.ofWord (leAt b (4 * k) 4))) []

/-- Which of the two records serves: the valid one, or the valid one with the higher sequence number. -/
def spoilNewest (flash : NMap (List Byte)) : Option Nat :=
  let ok (k : Nat) : Bool := spoilValid (NMap.get [] flash k)
  if ok 0 && ok 1 then some (if spoilSeq (NMap.get [] flash 0) < spoilSeq (NMap.get [] flash 1) then 1 else 0)
  else if ok 0 then some 0 else if ok 1 then some 1 else none

/-- The map in flash, none when no record is valid. -/
def spoilMap (flash : NMap (List Byte)) : Option (NMap RowRepair) :=
  (spoilNewest flash).map fun k => spoilRows (NMap.get [] flash k)

/-- The record that does not serve takes the map with the next sequence number. -/
def Resilience.writeFlash (r : Resilience) : Resilience :=
  let k := (spoilNewest r.flash).getD 1
  let seq := match spoilNewest r.flash with | some k => spoilSeq (NMap.get [] r.flash k) + 1 | none => 0
  { r with flash := NMap.set [] r.flash (1 - k) (spoilRecord r.rows seq), flashBusy := false }

/-- The map as firmware has it at D5; one whose write has still to be made stands. A second retired tile of a row is kept while the
row is exhausted (R22, R25). (DESIGN CHOICE, log 123) -/
def Resilience.readFlash (r : Resilience) : Resilience :=
  if r.flashBusy then r
  else
    let rows := (spoilMap r.flash).getD r.rows
    { r with rows := rows, lost := r.lost.filter fun p => (NMap.get RowRepair.init rows p.1).spare == 4 }

/-! ### Service (R491, R492, R494) -/

/-- A bench is complete (R491): no exhausted row, dawn's D5 passed, every channel trained. -/
def State.benchComplete (s : State) (b : Nat) : Bool :=
  ((List.range 16).all fun i => (s.row (16 * b + i)).spare != 4) && !s.pw.benchFailed.contains b
    && !(s.mm.chanFail.any fun c => decide (firstChannel b ≤ c) && decide (c < firstChannel b + benchChannels b))

/-- Bench of each haul road and Ethernet port (R31). -/
def roadBench (p : Nat) : Nat := ([0, 2, 2, 5, 5, 3, 3, 0]).getD p 0
def ethBench (e : Nat) : Nat := if e < 2 then 1 else 4

/-- Tile number, in the whole device, of field number n of bench b (R492). -/
def fieldTile (b n : Nat) : Nat := tileAt (16 * (b % 3) + n % 16) (16 * (b / 3) + n / 16)

/-- Address in the pool of bench b of a byte that the mode in force places at channel `ch`, granule `i`, offset `o` (R449). -/
def poolAddress (b ch i o : Nat) : Nat :=
  let n := benchChannels b
  (i * n + (ch - firstChannel b + n - i % n) % n) * 2048 + o

/-- Address of a byte once bench b's pool stands at address 0, none when another bench holds it (R448, R449, R492). -/
def State.fieldAddress (s : State) (b a : Nat) : Option Nat :=
  let c := s.channel a
  if firstChannel b ≤ c.1 && c.1 < firstChannel b + benchChannels b then some (poolAddress b c.1 c.2 (a % 2048)) else none

/-- Field mode on bench b: its tiles take their field numbers, its pool appears at address 0, every other bench is gated, and no
image is loaded (R492). At dawn a change from global interleave leaves main memory filled with zeros (R462). A bench to which
service moves from another one switches on afresh (R131, R494). (DESIGN CHOICE, log 11) -/
def State.enterField (s : State) (dawn : Bool) (b : Nat) : State :=
  let moved := s.pw.fieldBench.isSome
  let fill := moved || (dawn && !s.mm.cur.pools)
  let tiles : NMap Tile :=
    if moved then (List.range 256).map fun n => (n, .switchedOn)
    else (List.range 256).filterMap fun n => (s.tiles.find? fun p => p.1 == fieldTile b n).map fun p => (n, p.2)
  let bytes : Mem := if fill then [] else s.mm.bytes.foldl (fun m p =>
    match s.fieldAddress b p.1 with | some a => NMap.set 0 m a p.2 | none => m) []
  let checks : NMap (BitVec 16) := if fill then [] else s.mm.checks.foldl (fun m p =>
    match s.fieldAddress b (64 * p.1) with | some a => NMap.set 0 m (a / 64) p.2 | none => m) []
  let keeps (port : Nat) : Bool := if port < 8 then roadBench port == b else ethBench (port - 8) == b
  { s with
    tiles := tiles
    image := none, runnable := false
    bell := { s.bell with groups := s.bell.groups.map fun p => (p.1, { p.2 with loaded := false, members := [] }) }
    mm := { s.mm with
      bytes := bytes, checks := checks, served := [], cache := [], cur := { s.mm.cur with pools := true }
      groups := s.mm.groups.map fun p =>
        (p.1,
          if firstChannel b ≤ 4 * p.1 && 4 * p.1 < firstChannel b + benchChannels b then
            { p.2 with state := if p.2.state == .off then .service else p.2.state }
          else { p.2 with state := .off })
      usableGib := poolGib s.mm.cur.unchecked b }
    link := { s.link with
      roads := s.link.roads.map fun p =>
        (p.1, if !keeps p.1 then { p.2 with state := .disabled }
          else if moved && p.2.state == .disabled && s.pw.bootSel ≠ 8 && s.link.srefclk then { p.2 with state := .training } else p.2)
      eth := s.link.eth.map fun p =>
        (p.1, if !keeps (p.1 + 8) then { p.2 with state := 0 }
          else if moved && p.2.enable && p.2.state = 0 then { p.2 with state := 1 } else p.2)
      partners := s.link.partners.map fun p =>
        (p.1, if p.2.state = 2 && p.2.path ≠ 2 && !keeps p.2.port then { p.2 with state := 3 } else p.2) }
    pw := { s.pw with fieldBench := some b, service := 3, ready := true } }

/-- The bench rows that serve are not exhausted: all 96, or the 16 of the field bench (R491, R492). -/
def State.rowsServe (s : State) : Bool :=
  match s.pw.fieldBench with
  | some b => (List.range 16).all fun i => (s.row (16 * b + i)).spare != 4
  | none => s.res.rows.all fun p => p.2.spare != 4

/-- Service falls to field mode on the lowest complete bench, or to diagnostic service (R492, R494). -/
def State.fallService (s : State) (dawn : Bool) : State :=
  match (List.range 6).find? s.benchComplete with
  | some b => s.enterField dawn b
  | none => { s with pw := { s.pw with service := 1, ready := false } }

end Sys2Proof.Machine
end

