-- ==== Sys2Proof/Machine/Tick.lean ====
section
/-! DEFINITION. What one full-clock cycle does when no command waits (R10, R37, R38): the time base and the cycle
counters advance. -/
namespace Sys2Proof.Machine

/-- The MMUL in the feed waits for its held buffer (R144, R145). -/
def Mx.heldWaits (m : Mx) : Bool :=
  match m.feed with
  | some i => i.op == .mmul && m.loadPending i && !m.halts i
  | none => false

/-- The MDRN in the drain waits for lanes that are arming (R327). -/
def Tile.drawWaits (t : Tile) (free : Bool) : Bool :=
  match t.mx.drain with
  | some i => i.op == .mdrn && i.out.isNone && i.drawsHeld free t && !t.mx.feedBlocks i && !t.mx.halts i
  | none => false

/-- Cycle counters of one tile over one of its cycles: SYS 7 (R56), issue stalls (R87), held-buffer waits (R145), norm-tap
stalls (R361), mover waits (R270), drain waits for arming in free mode (R327), ring stall timers (R112). -/
def Tile.cycle (free : Bool) (t : Tile) : Tile :=
  let stalled := t.core.run == .stalled
  let counted := stalled && (match t.core.stallKind with | .none => false | _ => true)
  let waits := t.mv.slots.any fun p => (p.2.map (·.waiting)).getD false
  { t with
    core := { t.core with
      cycles := t.core.cycles + 1, stallCount := t.core.stallCount + (if counted then 1 else 0),
      emptyCutCycles := t.core.emptyCutCycles + (if t.core.run == .emptyCut then 1 else 0) },
    mx := { t.mx with heldWait := t.mx.heldWait + (if t.mx.heldWaits then 1 else 0) }
    rn := { t.rn with drainWait := t.rn.drainWait + (if t.drawWaits free then 1 else 0) }
    nt := { t.nt with wait := t.nt.wait + (if stalled && t.core.stallKind == .normTap then 1 else 0) },
    mv := { t.mv with waitCycles := t.mv.waitCycles + (if waits then 1 else 0) },
    rings := t.rings.map fun x => if x.waiting.isEmpty then x else { x with timer := x.timer + 1 } }

/-- One full-clock cycle. (DESIGN CHOICE, log 4) -/
def State.tickOnce (s : State) : State :=
  { s with
    clock := { s.clock with
      tick := s.clock.tick + 1
      benchCycles := (List.range 6).foldl (fun m b =>
        if s.edge b then NMap.set 0 m b (NMap.get 0 m b + 1) else m) s.clock.benchCycles },
    tiles := s.tiles.map fun p => (p.1, if s.edge (s.tb p.1) then p.2.cycle s.freeMode else p.2) }

end Sys2Proof.Machine
end

