-- ==== Sys2Proof/Machine/Repair.lean ====
section
/-! DEFINITION. Bell timeouts, tile failures and repair (R20 to R23, R43, R80 to R83, R292, R301, R307, R331, R366, R429, R466,
R481 to R483, R490, R494). -/
namespace Sys2Proof.Machine

/-! ### Reports -/

/-- BELL_TIMEOUT_RECORD as a word (R307). -/
def timeoutWord (valid : Bool) (g reason : Nat) (attributed : Bool) (t : Nat) : Nat :=
  fieldAt (b2n valid) 31 + fieldAt (g % 8) 28 + fieldAt (reason % 4) 26 + fieldAt (b2n attributed) 25 + t % 2048

/-- Records a timeout, the first since clear (R292, R307). -/
def State.recordTimeout (s : State) (g reason : Nat) (attributed : Bool) (t : Nat) : State :=
  { s with bell := { s.bell with
    record := s.bell.record.note (BitVec.ofNat 3 g, BitVec.ofNat 2 reason, attributed, BitVec.ofNat 11 t) } }

/-- A repair frame of the running step: bell kind 3, group 0; action 0 hold, 1 resume, 2 abandon (R429, R483). -/
def State.repairFrame (s : State) (action : Nat) : List Byte :=
  fit 0 64 (leBytes 1 1 ++ leBytes 1 (fieldAt 3 4) ++ leBytes 1 s.ownRank ++ leBytes 1 0 ++ leBytes 4 0
    ++ leBytes 8 s.stepNo.toNat ++ leBytes 4 s.attemptNo ++ leBytes 4 0 ++ leBytes 1 action)

/-- Sends a repair frame to every peer (R482). -/
def State.repairFrames (s : State) (action : Nat) : State :=
  let frame := s.repairFrame action
  s.domainPeers.foldl (fun s p => s.sendControl p.2 2 0 frame) s

def State.setResState (s : State) (x : RecoveryState) : State := { s with res := { s.res with state := x } }

/-- RECOVERY_STATE once a hold is over. -/
def State.leaveHold (s : State) : State :=
  match s.res.state with
  | .repairHold | .peerHold => s.setResState (if s.res.replay.isSome then .replay else .normal)
  | _ => s

/-! ### Step 1: the hold (R482) -/

/-- Halts the loaded tiles and stops every timer (R80, R482 step 1). -/
def State.holdStep (s : State) (x : RecoveryState) : State := s.stopTiles.stopTimers.setResState x

/-- Cause in ROW_REPAIR (R27). -/
def Failure.rowCause (f : Failure) : BitVec 4 :=
  if f.command then 6 else match f.cause with | .bellTimeout => 3 | .routerError => 4 | .tileWord => 5 | .memoryWord => 0

/-- The cause's status and detail (R403, R482). -/
def Failure.status (f : Failure) : CmdStatus × Nat :=
  match f.cause with
  | .bellTimeout => (.bellTimeout, f.addr)
  | .routerError => (.tileFault, f.tile + fieldAt 0x21 16 + fieldAt 1 32)
  | .tileWord | .memoryWord => (.memoryUncorrectable, f.addr)

/-! ### Steps 2 and 3: retirement (R20 to R23, R27, R482) -/

/-- A row changes: the flash write starts and tile_retired is raised with the row's word and the item counts (R482, R483). -/
def State.repairRow (s : State) (f : Failure) (r : RowRepair) : State :=
  let s := s.setRow (s.rowOf f.tile) r
  let s := { s with res := { s.res with tile := BitVec.ofNat 11 f.tile, flashBusy := true } }
  s.raise 7 f.tile (leBytes 4 r.word ++ leBytes 2 f.descs ++ leBytes 2 f.sends)

/-- The row has a spare: it shifts, and the spare's power domain switches on in the failed tile's place (R20, R131). -/
def State.shiftRow (s : State) (f : Failure) : State :=
  let s := s.repairRow f
    { offset := BitVec.ofNat 4 (s.tx f.tile % 16), shifted := true, spare := 3, cause := f.rowCause }
  let s := s.setTile f.tile Tile.switchedOn
  { s with res := { s.res with transient := NMap.set none s.res.transient f.tile none } }

/-- The row has none: it is exhausted, and the tile is gated off (R21, R22, R25). (DEDUCED, log 12) -/
def State.exhaustRow (s : State) (f : Failure) : State :=
  let r := s.row (s.rowOf f.tile)
  (s.repairRow f { r with spare := 4, cause := f.rowCause }).loseTile f.tile

/-! ### The ends of a step that is not replayed -/

/-- TILE_FAULT (R80, R81, R403); service falls when a repair has exhausted a row that serves (R83, R491).
(DEDUCED, log 101) -/
def State.endFault (s : State) (r : StepRun) : State :=
  let l := r.faulted.foldl (fun (a : Nat × BitVec 8) p => if p.1 < a.1 then p else a) (r.faulted.headD (0, 0))
  let s := { s.finish r .tileFault (l.1 + fieldAt l.2.toNat 16 + fieldAt r.faulted.length 32) false with runnable := false }
  if s.rowsServe then s else s.fallService false

/-- BELL_TIMEOUT that no tile caused (R292): the image stays runnable when only a peer's frame was missing. -/
def State.endTimeout (s : State) (r : StepRun) (w : Word32) : State :=
  let s' := s.finish r .bellTimeout w.toNat false
  { s' with runnable := if bitsAt w.toNat 26 2 = 3 then s'.runnable else false }

/-- The step ends with the status of the failure that stopped it (R466, R482); R81 applies, but not after a memory error, which
leaves the image as runnable as its repairs have. -/
def State.endCause (s : State) (r : StepRun) (st : CmdStatus × Nat) : State :=
  let s' := s.finish r st.1 st.2 false
  { s' with runnable := st.1 == .memoryUncorrectable && s.runnable }

/-- Step 7 (R482, R494). -/
def State.endExhausted (s : State) (r : StepRun) (t : Nat) : State :=
  State.fallService { (s.repairFrames 2).finish r .spareExhausted t false with runnable := false } false

/-! ### Step 6: the restart (R43, R331, R482) -/

/-- The ring descriptors of a loaded tile from the image, and its fault record cleared. -/
def Tile.reinit (c : Tile) (i : Image) (t : Nat) : Tile :=
  let c := match i.classOf t with
    | some k => c.loadRings i k
    | none => c
  { c with core := { c.core with fault := .empty } }

/-- Starts the next attempt, with the seeds of the step's log entry. -/
def State.restart (s : State) (r : StepRun) : State :=
  match s.image with
  | none => s
  | some i =>
    let s := i.loaded.foldl (fun s t => s.modTile t fun c => c.reinit i t) s
    let s := match r.log with
      | some l =>
        { s with random := { s.random with
          keyedSeed := l.keyedSeed, freeSeed := l.freeSeed
          key := if s.random.keyedSeed = l.keyedSeed then s.random.key else deriveKey l.keyedSeed } }
      | none => s
    let s := { s.leaveHold with res := { s.leaveHold.res with peerSince := none, failures := [], filling := false } }
    s.launch { r with
      attempt := r.attempt + 1, programFault := false, haltAt := none, faulted := [], timeout := none, cause := none
      stopped := false }

/-- The status with which a step that cannot be replayed ends. -/
def StepRun.causeOf (r : StepRun) : CmdStatus × Nat :=
  match r.cause with
  | some c => (match c.1 with | 6 => CmdStatus.bellTimeout | 14 => .memoryUncorrectable | _ => .tileFault, c.2)
  | none => (.tileFault, 0)

/-- The queue of failures is empty (R80, R83, R292, R466, R482 step 6). -/
def State.afterRepairs (s : State) : State :=
  match s.step with
  | none => s.leaveHold
  | some r =>
    if r.programFault then s.endFault r
    else
      match r.timeout with
      | some w => s.endTimeout r w
      | none =>
        if 7 ≤ r.attempt || (s.unshadowed && !s.runnable) then s.endCause r r.causeOf
        else ((s.repairFrames 1).restart r)

/-- Takes the oldest failures until a spare's fill runs or none is left (R482 steps 2, 3, 7); the fuel is their number. -/
def nextFailure : Nat → State → State
  | 0, s => s.afterRepairs
  | n + 1, s =>
    match s.res.failures with
    | [] => s.afterRepairs
    | f :: rest =>
      let s := match s.step with
        | some r => { s with step := some { r with cause := r.cause <|> some (f.status.1.code, f.status.2) } }
        | none => s
      let drop (s : State) : State := { s with res := { s.res with failures := rest } }
      if f.transient then nextFailure n (drop s)
      else if (s.row (s.rowOf f.tile)).spare = 0 then
        let s := s.shiftRow f
        if s.unshadowed && s.image.isSome then
          nextFailure n (drop { s with runnable := false })
        else { s with res := { s.res with filling := true } }
      else
        let s := (drop s).exhaustRow f
        match s.step with
        | some r => if r.programFault then nextFailure n s else s.endExhausted r f.tile
        | none => nextFailure n (State.fallService { s with runnable := false } false)

/-- Takes up the failures that wait. (DEDUCED, log 97) -/
def State.repair (s : State) : State := nextFailure (s.res.failures.length + 1) s

/-! ### Declaring a failure (R481) -/

/-- An hour in ns. -/
def hourNs : Nat := 3600 * 10 ^ 9

/-- A tile's memory error is transient: the first, or the first since the hour of the previous one ended (R481). -/
def State.isTransient (s : State) (t : Nat) : Bool :=
  match NMap.get none s.res.transient t with
  | some w => decide (w + hourNs ≤ s.now)
  | none => true

/-- A failure joins the queue; the first one stops the step (R482). -/
def State.declare (s : State) (f : Failure) : State :=
  let idle := s.res.failures.isEmpty
  let s := { s with res := { s.res with failures := s.res.failures ++ [f] } }
  match s.step with
  | some r =>
    if !r.stopped then (s.holdStep .repairHold).repairFrames 0
    else if s.res.state == RecoveryState.peerHold && r.haltAt.isNone then
      ((s.setResState .repairHold).repairFrames 0).repair
    else s
  | none => if idle then s.repair else s

def newFailure (t : Nat) (c : FailCause) (transient : Bool) (addr : Nat) : Failure :=
  { tile := t, cause := c, transient := transient, addr := addr, descs := 0, sends := 0, command := false }

/-- PROBE_NO_REPLY: the timeout is attributed to the tile (R292 item 1). -/
def probeNoReply (s : State) (g t : Nat) : State :=
  let G := s.group g
  match s.step with
  | some r =>
    if r.stopped || r.programFault || !G.probed.contains t || s.isolated t || s.now < G.probeAt + 10000 then s
    else
      let reason := ((s.memberReason g t).map (·.toNat)).getD 1
      let s := (s.setGroup g { G with probed := [] }).recordTimeout g reason true t
      s.declare (newFailure t .bellTimeout false (timeoutWord true g reason true t))
  | none => s

/-- What firmware sees of each cause (R481): a probe without an answer; a router that reports; an uncorrectable word of the tile
that something consumed, the oldest not handled; an uncorrectable word of main memory at which a reach access of the tile has
faulted in this step (R82). A ROUTER_ERROR is recorded with the tile's current address and instruction 0, as no instruction raises
it (R86). (DEDUCED, log 100) -/
def tileFailure (s : State) (t : Nat) (c : FailCause) : State :=
  if s.isolated t then s
  else
    match c with
    | .bellTimeout =>
      match (List.range 8).find? fun g => (s.group g).probed.contains t with
      | some g => probeNoReply s g t
      | none => s
    | .routerError =>
      let s := if s.step.isSome && s.isLoaded t then s.tileFault t .routerError (s.tile t).core.pc 0 0 else s
      s.declare (newFailure t .routerError false 0)
    | .tileWord =>
      match (s.tile t).mem.ueUsed with
      | [] => s
      | (_, word) :: rest =>
        let f := newFailure t .tileWord (s.isTransient t) (tileWindowBase + t * 2 ^ 22 + (ueAddrOf word).toNat)
        let s := s.modTile t fun c => { c with mem := { c.mem with ueUsed := rest } }
        let s := if f.transient then
            { s with res := { s.res with transient := NMap.set none s.res.transient t (some s.now) } }
          else s
        s.declare f
    | .memoryWord =>
      match (s.tile t).rc.mainWords, s.step with
      | a :: rest, some _ =>
        (s.modTile t fun c => { c with rc := { c.rc with mainWords := rest } }).declare (newFailure t .memoryWord true a)
      | _, _ => s

def execTileFailure (t : Nat) (cause : FailCause) (s : State) : Out :=
  if tileCount ≤ t then .fault .noSuchUnit else .next (tileFailure s t cause)

/-! ### Bell timeouts (R83, R292, R307) -/

/-- The step ends with BELL_TIMEOUT once its engine work is over (R292 items 2 and 3). -/
def State.haltTimeout (s : State) (g reason t : Nat) : State :=
  let s := (s.recordTimeout g reason false t).stopTiles.stopTimers
  match s.step with
  | some r => { s with step := some { r with timeout := some (BitVec.ofNat 32 (timeoutWord true g reason false t)) } }
  | none => s

/-- Tiles that firmware probes: members that are not ready, and destinations of their incomplete sends, behind no isolation
wrapper (R292, R301). -/
def State.probeList (s : State) (g : Nat) : List Nat :=
  let unready := (s.group g).members.filter fun t => (s.memberReason g t).isSome
  (unready ++ (unready.flatMap fun t => (s.tile t).sd.queue.flatMap fun i =>
    if i.remote.isSome then [] else i.dests.map (·.tile)).filter fun u => !unready.contains u).filter fun t => !s.isolated t

/-- BELL_TIMEOUT: the timer has reached its limit (R83, R292). -/
def bellTimeout (s : State) (g : Nat) : State :=
  let G := s.group g
  match s.step, G.timerLimit with
  | some r, some limit =>
    if !s.bell.timeoutEnable || G.holding || r.stopped || r.programFault || s.now < G.timerStart + limit then s
    else if s.localCondition g then (if G.framesHere then s else s.haltTimeout g 3 0)
    else s.setGroup g { G with probed := s.probeList g, probeAt := s.now, timerLimit := none }
  | _, _ => s

/-- Every probe of a group has been answered within 10 µs (R292 item 2). -/
def State.probesAnswered (s : State) (g : Nat) : State :=
  let G := s.group g
  if G.probed.isEmpty || s.now < G.probeAt + 10001 || (s.step.map (·.stopped)).getD true then s
  else
    let t := (G.members.find? fun t => (s.memberReason g t).isSome).getD (G.probed.headD 0)
    (s.setGroup g { G with probed := [] }).haltTimeout g (((s.memberReason g t).map (·.toNat)).getD 0) t

def execBellTimeout (g : Nat) (s : State) : Out := if 8 ≤ g then .fault .noSuchUnit else .next (bellTimeout s g)
def execProbeNoReply (g t : Nat) (s : State) : Out :=
  if 8 ≤ g || tileCount ≤ t then .fault .noSuchUnit else .next (probeNoReply s g t)

/-! ### The end of the engine wait (R80, R83, R292, R482, R483) -/

/-- A failure of a tile takes the counts of its descriptors and sends (R483). -/
def State.countItems (s : State) : State :=
  { s with res := { s.res with failures := s.res.failures.map fun f =>
      let c := s.tile f.tile
      { f with descs := c.mv.queue.length + (c.mv.slots.filter fun p => p.2.isSome).length, sends := c.sd.queue.length } } }

/-- FAULT_ENGINE_WAIT_EXPIRY: 1 ms after the halt, or once all work is over. -/
def engineWaitExpiry (s : State) : State :=
  match s.image, s.step with
  | some i, some r =>
    match r.haltAt with
    | none => s
    | some h =>
      if s.now < h + 1000000 && !(i.loaded.all fun t => (s.tile t).workDone) then s
      else
        let s := i.loaded.foldl State.endWork s.countItems
        let s := match s.step with
          | some r => { s with step := some { r with haltAt := none } }
          | none => s
        if !s.res.failures.isEmpty then s.repair
        else if s.res.state == RecoveryState.peerHold && !r.programFault && r.timeout.isNone then s
        else s.afterRepairs
  | _, _ => s

def execFaultEngineWaitExpiry (s : State) : Out := .next (engineWaitExpiry s)

/-! ### Steps 4, 5 and 8: the fill (R113, R116, R466, R482) -/

/-- Reads a span of the shadow; an unreadable word gives its address. -/
def State.readShadow (s : State) (off n : Nat) : State × Except Nat (List Byte) :=
  let a := s.res.shadowBase.toNat + off
  match s.mainRead 5 a n with
  | (s, .ok bs) => (s, .ok bs)
  | (s, .uncorrectable x) => (s, .error x)
  | (s, _) => (s, .error a)

/-- Resident pages from the shadow slot of a tile. -/
def fillPages (t : Nat) : List Nat → State → State × Except Nat Unit
  | [], s => (s, .ok ())
  | p :: ps, s =>
    match s.readShadow (t * 2 ^ 21 + p * 4096) 4096 with
    | (s, .error a) => (s, .error a)
    | (s, .ok bs) => fillPages t ps (s.modTile t fun c => c.loadBytes (4096 * p) bs)

/-- The fill of a spare from the image copy and the shadow slot; during an EVAL the classes are those of its image.
(DEDUCED, log 98) -/
def State.fillSpare (s : State) (t : Nat) : State × Except Nat Unit :=
  match s.image with
  | none => (s, .ok ())
  | some i =>
    let training := (s.step.bind (·.training)).getD i
    match s.readShadow shadowImage training.bytes.length with
    | (s, .error a) => (s, .error a)
    | (s, .ok bs) =>
      let copy := match parseImage bs bs.length none with
        | .ok x => x
        | .error _ => training
      let code := if s.inEval then i else copy
      let m := copy.attrs t
      let s := s.modTile t fun c =>
        let c := c.installClass code t
        { c with pages := { Pages.init with attr := m, table := boundTable m } }
      fillPages t ((m.filter fun p => p.2 == 1).map (·.1)) s

/-- A RETIRE_TILE command ends. -/
def State.endRetire (s : State) (st : CmdStatus) (detail : Nat) : State :=
  match s.res.retire with
  | some n => { s with res := { s.res with retire := none } }.complete n st detail 0 false
  | none => s

/-- SPARE_FILL_COMPLETE, once the spare's memory is initialised and its lanes are armed (R131, R327, R333); a step with a program
fault ends with TILE_FAULT even when the shadow cannot be read (R83, R482 step 8). -/
def spareFillComplete (s : State) : State :=
  match s.res.failures with
  | [] => s
  | f :: rest =>
    if !s.res.filling || !(s.tile f.tile).mem.ready || (s.tile f.tile).rn.arming then s
    else
      let out (s : State) : State := { s with res := { s.res with failures := rest, filling := false } }
      match s.fillSpare f.tile with
      | (s, .ok _) =>
        let k := s.rowOf f.tile
        let s := out (s.setRow k { s.row k with spare := 1 })
        (if f.command then s.endRetire .ok 0 else s).repair
      | (s, .error a) =>
        let s := { out s with runnable := false }.setResState .restoreRequired
        match s.step with
        | some r => if r.programFault then s.endFault r else { s.finish r .memoryUncorrectable a false with runnable := false }
        | none => (if f.command then s.endRetire .memoryUncorrectable a else s).repair

def execSpareFillComplete (s : State) : Out := .next (spareFillComplete s)

/-- RETIRE_TILE: steps 2 to 5 between steps; with no spare nothing changes (R482). -/
def retireTile (s : State) (n t : Nat) : State :=
  if (s.row (s.rowOf t)).spare ≠ 0 then s.complete n .spareExhausted t 0 false
  else
    let f : Failure := { newFailure t .tileWord false 0 with command := true }
    let whole := !(s.unshadowed && s.image.isSome)
    let s := s.setRunning n
    let s := { s with res := { s.res with retire := some n } }.declare f
    if whole then s else s.endRetire .ok 0

def execRetireTile (n : Nat) (s : State) : Out :=
  if s.step.isSome || !s.res.failures.isEmpty then .next s
  else startHeld 0x12 n (fun s h => retireTile s n (h.field 8 2)) s

/-! ### Peers (R366, R483) -/

/-- A peer's step ends as on abandon. -/
def State.abandon (s : State) (r : StepRun) : State := s.endTimeout r (BitVec.ofNat 32 (timeoutWord true 0 3 false 0))

/-- REPAIR_FRAME_RECEIVE (R430, R483). (DEDUCED, log 99) -/
def repairFrameReceive (s : State) (f : List Byte) : State :=
  match s.step with
  | none => s.discardFrame
  | some r =>
    if leAt f 0 1 ≠ 1 || leAt f 1 1 / 16 % 4 ≠ 3 || leAt f 8 8 ≠ r.stepNo.toNat || leAt f 0x10 4 ≠ r.attempt then s.discardFrame
    else
      let held := s.res.state == RecoveryState.peerHold
      match leAt f 0x18 1 with
      | 0 =>
        if held || !r.stopped then
          let s := if held then s else s.holdStep .peerHold
          { s with res := { s.res with peerSince := some s.now } }
        else s
      | 1 =>
        if !held || r.programFault || r.timeout.isSome then s
        else
          let s := match s.image with
            | some i => i.loaded.foldl State.endWork s
            | none => s
          if 7 ≤ r.attempt then s.abandon r else s.restart r
      | 2 => if s.res.state == RecoveryState.repairHold || r.programFault then s else s.abandon r
      | _ => s

/-- REPAIR_HOLD_TIMEOUT: no frame for 1 s after a hold (R483). -/
def repairHoldTimeout (s : State) : State :=
  match s.step, s.res.peerSince with
  | some r, some t =>
    if s.res.state == RecoveryState.peerHold && t + 10 ^ 9 ≤ s.now then s.abandon r else s
  | _, _ => s

def execRepairFrameReceive (frame : List Byte) (s : State) : Out := .next (repairFrameReceive s frame)
def execRepairHoldTimeout (s : State) : Out := .next (repairHoldTimeout s)

/-- SPOIL_MAP_FLASH_DONE: the alternate record takes the map with the next sequence number (R490). -/
def execSpoilMapFlashDone (s : State) : Out :=
  if s.res.flashBusy then .next { s with res := s.res.writeFlash } else .next s

end Sys2Proof.Machine
end

