-- ==== Sys2Proof/Machine/TileWindow.lean ====
section
/-! DEFINITION. The tile window: what its registers read, and what expert writes to it do (R84 to R88, R133 to R138, R179 to
R181, R247, R248, R270, R380 to R384). -/
namespace Sys2Proof.Machine

/-! ### The instruction that a code word spells -/

/-- The issue of a decoded instruction; none for a command that no code word spells. -/
def insnOf : Instr → Option Insn
  | .add _ d a x => some (insnAdd d a x)
  | .sub _ d a x => some (insnSub d a x)
  | .and _ d a x => some (insnAnd d a x)
  | .or _ d a x => some (insnOr d a x)
  | .xor _ d a x => some (insnXor d a x)
  | .shl _ d a x => some (insnShl d a x)
  | .shr _ d a x => some (insnShr d a x)
  | .sra _ d a x => some (insnSra d a x)
  | .mul _ d a x => some (insnMul d a x)
  | .mulh _ d a x => some (insnMulh d a x)
  | .div _ d a x => some (insnDiv d a x)
  | .rem _ d a x => some (insnRem d a x)
  | .slt _ d a x => some (insnSlt d a x)
  | .sltu _ d a x => some (insnSltu d a x)
  | .addi _ d a x => some (insnAddi d a x)
  | .sys _ d a x => some (insnSys d a x)
  | .li _ d x => some (insnLi d x)
  | .lui _ d x => some (insnLui d x)
  | .ld _ d a imm => some (insnLd d a imm)
  | .st _ a b imm => some (insnSt a b imm)
  | .beq _ a b target => some (insnBeq a b target)
  | .bne _ a b target => some (insnBne a b target)
  | .blt _ a b target => some (insnBlt a b target)
  | .bge _ a b target => some (insnBge a b target)
  | .bltu _ a b target => some (insnBltu a b target)
  | .bgeu _ a b target => some (insnBgeu a b target)
  | .jmp _ target => some (insnJmp target)
  | .jal _ link target => some (insnJal link target)
  | .jr _ a => some (insnJr a)
  | .halt _ => some insnHalt
  | .vaddF32 _ d a b imm => some (insnVaddF32 d a b imm)
  | .vsubF32 _ d a b imm => some (insnVsubF32 d a b imm)
  | .vmulF32 _ d a b imm => some (insnVmulF32 d a b imm)
  | .vfmaF32 _ d a b c imm => some (insnVfmaF32 d a b c imm)
  | .vaddBf _ d a b => some (insnVaddBf d a b)
  | .vsubBf _ d a b => some (insnVsubBf d a b)
  | .vmulBf _ d a b => some (insnVmulBf d a b)
  | .vfmaBf _ d a b c => some (insnVfmaBf d a b c)
  | .vaddI32 _ d a b => some (insnVaddI32 d a b)
  | .vsubI32 _ d a b => some (insnVsubI32 d a b)
  | .vmulI32 _ d a b => some (insnVmulI32 d a b)
  | .vfmaI32 _ d a b c => some (insnVfmaI32 d a b c)
  | .vcmp _ d a b imm => some (insnVcmp d a b imm)
  | .vsel _ d a b c => some (insnVsel d a b c)
  | .vcvt _ d a b imm => some (insnVcvt d a b imm)
  | .vbcast _ d a => some (insnVbcast d a)
  | .vshuf _ d a b => some (insnVshuf d a b)
  | .vred _ d a imm => some (insnVred d a imm)
  | .vld _ d a imm => some (insnVld d a imm)
  | .vst _ a b imm => some (insnVst a b imm)
  | .mldh _ ringA imm => some (insnMldh ringA imm)
  | .mldht _ ringA imm => some (insnMldht ringA imm)
  | .mmul _ ringA imm => some (insnMmul ringA imm)
  | .macc _ ringA imm => some (insnMacc ringA imm)
  | .mslb _ ringA ringB p imm => some (insnMslb ringA ringB p imm)
  | .mclr _ imm => some (insnMclr imm)
  | .mepi _ p imm => some (insnMepi p imm)
  | .mdrn _ ringD imm => some (insnMdrn ringD imm)
  | .mflg _ d imm => some (insnMflg d imm)
  | .movq _ ringA b => some (insnMovq ringA b)
  | .movc _ d => some (insnMovc d)
  | .send _ ringA dest p imm => some (insnSend ringA dest p imm)
  | .rset _ b ringD => some (insnRset b ringD)
  | .rget _ ringA d imm => some (insnRget ringA d imm)
  | .rpush _ ringD imm => some (insnRpush ringD imm)
  | .rpop _ ringA imm => some (insnRpop ringA imm)
  | .rwait _ ringA imm => some (insnRwait ringA imm)
  | .rspace _ ringD imm => some (insnRspace ringD imm)
  | .rngv _ index d p imm => some (insnRngv index d p imm)
  | .rngr _ index ringD p imm => some (insnRngr index ringD p imm)
  | .fence _ imm => some (insnFence imm)
  | .bell _ b imm => some (insnBell b imm)
  | .expect _ p imm => some (insnExpect p imm)
  | .xrds _ d a imm => some (insnXrds d a imm)
  | .xrdv _ d a imm => some (insnXrdv d a imm)
  | .xwrs _ a b imm => some (insnXwrs a b imm)
  | .xwrv _ a b imm => some (insnXwrv a b imm)
  | _ => none

/-- Issue of the code word at the pc of a halted tile (R84). -/
def singleStep (t : Nat) (s : State) : Out :=
  let w := NMap.get 0 (s.tile t).mem.code (s.tile t).core.pc
  let i := ((decodeInsn t w).bind insnOf).getD (insnIllegal w)
  noting t (issue true t i s)

/-! ### What the registers read -/

def RunState.code : RunState → Nat
  | .halted => 0 | .running => 1 | .stalled => 2 | .atBell => 3 | .faulted => 4 | .emptyCut => 6

/-- A page wait reads as input presence or output space, a wait for the norm tap as a full queue (R85, R117, R361).
(DEDUCED, log 17) -/
def StallKind.code : StallKind → Nat
  | .none => 0 | .input => 1 | .output => 2 | .queueFull => 3 | .pending => 4 | .ring => 5 | .fence => 6
  | .pageRead => 1 | .pageWrite => 2 | .normTap => 3

/-- TILE_RUN_STATUS (R85). -/
def Tile.runStatus (c : Tile) : Nat :=
  let kind := if c.core.run == .stalled then c.core.stallKind.code else 0
  fieldAt c.core.run.code 29 + fieldAt kind 26
    + fieldAt (if kind = 1 || kind = 2 || kind = 5 then c.core.stallRing.toNat else 0) 21 + c.core.pc % 8192

/-- TILE_FAULT_STATUS (R86). -/
def FaultRecord.word (f : FaultRecord) : Nat :=
  fieldAt (b2n f.valid) 31 + fieldAt (b2n f.hardware) 30 + fieldAt f.code.toNat 16 + f.pc.toNat

/-- ENGINE_QUEUE_STATUS (R87). -/
def Tile.queueStatus (c : Tile) : Nat :=
  fieldAt c.rc.out.length 22 + fieldAt c.rn.queue.length 18 + fieldAt c.sd.queue.length 12 + fieldAt c.mv.queue.length 5
    + min 16 c.mx.queue.length

/-- MOVER_SLOT_STATUS (R270). -/
def Tile.slotStatus (c : Tile) : Nat :=
  let runs := (List.range mvSlots).map c.mvRun
  let bits (f : MvRun → Bool) : Nat :=
    ((runs.zip (List.range mvSlots)).map fun p => fieldAt (b2n (p.1.any f)) p.2).foldl (· + ·) 0
  let held := match c.mv.queue.head? with
    | some i => (Desc.parse i.desc).barrier && runs.any Option.isSome
    | none => false
  fieldAt (b2n !c.pages.fills.isEmpty) 9 + fieldAt (bits (·.waiting)) 5 + fieldAt (bits fun _ => true) 1 + b2n held

/-- MATRIX_CONFIG (R180). -/
def State.matrixConfig (s : State) (c : Tile) : Nat :=
  fieldAt (b2n c.mx.slab) 10 + fieldAt (leAt (s.image.map (·.profile) |>.getD [0, 2]) 1 1) 8 + arrays

/-- MATRIX_STAGE_STATUS (R181); an MSLB holds the feed and the loader (R148). A count above its field reads as the field's
largest value. (DEDUCED, log 28) -/
def Tile.stageStatus (c : Tile) : Nat :=
  let valid := ((List.range 8).map fun k => fieldAt (b2n (NMap.get none c.mx.slots k).isSome) k).foldl (· + ·) 0
  fieldAt (min 511 c.mx.lastCount) 15 + fieldAt valid 7 + fieldAt (b2n c.mx.drain.isSome) 2 + fieldAt (b2n c.mx.feed.isSome) 1
    + b2n (c.mx.loader.isSome || c.mx.feed.any (·.op == .mslb))

/-- ECC_STATUS (R136). -/
def TileMem.eccStatus (m : TileMem) : Nat :=
  fieldAt (b2n m.ue) 31 + fieldAt (b2n m.ce) 30 + fieldAt (b2n m.ueCode) 29 + fieldAt m.ueConsumer.toNat 26

/-- The accesses that wait for a page of tile u, by accessor: write, accessor, page (R117, R138). -/
def State.pageWaits (s : State) (u : Nat) : List (Bool × Nat × Nat) :=
  let c := s.tile u
  let core := if c.core.run == .stalled && (c.core.stallKind == .pageRead || c.core.stallKind == .pageWrite) then
      c.core.pageWait.toList.map fun w => (w.1, w.2.1.toNat, w.2.2.toNat) else []
  let loader := c.mx.loader.toList.filterMap fun i =>
    if i.op == .mepi then (match c.touch i.p 128 with | .wait _ p => some (false, 1, p) | _ => none) else none
  let sends := c.sd.queue.filterMap fun i => i.pageWait.map fun p => (false, 2, p)
  let runs := s.tiles.flatMap fun p => (List.range mvSlots).filterMap fun k =>
    ((p.2.mvRun k).bind (·.pageWait)).bind fun w => if w.1 = u then some (w.2.1, 3, w.2.2) else none
  let reach := c.rc.inbox.filterMap fun k => ((s.tile k.1).reach? k.2).bind fun i => (s.reachOffset u i).bind fun o =>
    match c.touch o i.op.size with | .wait _ p => some (i.op.isWrite, 4, p) | _ => none
  (core ++ loader ++ sends ++ (c.mv.startWait.toList.map fun p => (false, 3, p)) ++ runs ++ reach).filter
    fun w => c.pageAwaited w.2.2

/-- PAGE_WAIT_STATUS: the first of the waits (R138). (DESIGN CHOICE, log 23) -/
def State.waitWord (s : State) (u : Nat) : Nat :=
  match s.pageWaits u with
  | w :: _ => fieldAt 1 31 + fieldAt (b2n w.1) 30 + fieldAt w.2.1 27 + w.2.2
  | [] => 0

/-- A page-table entry as its 64 bits (R116). -/
def PageEntry.word (e : PageEntry) : Nat :=
  fieldAt e.home.toNat 35 + fieldAt e.frame.toNat 26 + fieldAt e.state.toNat 23 + fieldAt (b2n e.dirty) 22
    + fieldAt (b2n e.writeBack) 21 + fieldAt (b2n e.homeValid) 20

/-- PAGE_ATTR_n (R133). -/
def Tile.attrWord (c : Tile) (n : Nat) : Nat :=
  ((List.range 16).map fun i => fieldAt (c.pageAttr (16 * n + i)).toNat (2 * i)).foldl (· + ·) 0

/-- The 32-bit half of a 64-bit word that an offset selects. -/
def halfOf (w off : Nat) : Nat := if natBit off 2 then w / 2 ^ 32 else w % 2 ^ 32

def ringAt (c : Tile) (n : Nat) : Ring := c.ring (BitVec.ofNat 5 n)

/-- A register of the tile window (R84 to R88, R133, R179, R247, R270). -/
def State.tileReg (s : State) (t off : Nat) : Nat :=
  let c := s.tile t
  let m := c.mem
  if off = 0x000 then b2n c.core.halt + fieldAt (b2n c.core.codeWindow) 1
  else if off = 0x004 then c.runStatus
  else if off = 0x008 then c.mv.done.toNat
  else if off = 0x00C then c.mv.failOffset.toNat
  else if off = 0x010 then c.core.fault.word
  else if off = 0x014 then c.core.fault.insn.toNat % 2 ^ 32
  else if off = 0x018 then c.core.fault.insn.toNat / 2 ^ 32
  else if off = 0x01C then c.core.fault.addr.toNat % 2 ^ 32
  else if off = 0x020 then c.core.fault.addr.toNat / 2 ^ 32
  else if off = 0x024 then c.slotStatus
  else if off = 0x028 then firstFailWord c.mv.firstFail
  else if off = 0x02C then c.mv.failCount.toNat
  else if off = 0x030 then c.queueStatus
  else if off = 0x034 then c.core.stallCount.toNat
  else if off = 0x038 then c.core.codePage.toNat
  else if off = 0x03C then c.mv.waitCycles.toNat
  else if off = 0x040 then s.matrixConfig c
  else if off = 0x044 then c.mx.sat.toNat
  else if off = 0x048 then c.mx.nan.toNat
  else if off = 0x04C then c.mx.feedBusy.toNat
  else if off = 0x050 then c.mx.feedBubble.toNat
  else if off = 0x054 then c.mx.heldWait.toNat
  else if off = 0x058 then c.stageStatus
  else if off < 0x100 then 0
  else if off < 0x300 then bitsAt (ringAt c ((off - 0x100) / 16)).pack.toNat (32 * (off / 4 % 4)) 32
  else if off < 0x380 then
    let x := ringAt c ((off - 0x300) / 4)
    fieldAt (x.claimed % 65536) 16 + x.reserved % 65536
  else if off = 0x380 then m.stallStatus.toNat
  else if off = 0x384 then ((List.range 32).map fun n => fieldAt (b2n (ringAt c n).raised) n).foldl (· + ·) 0
  else if off = 0x388 then m.collision.toNat
  else if off = 0x38C then m.conflict.toNat
  else if off = 0x390 then m.eccStatus
  else if off = 0x394 then m.ueAddr.toNat
  else if off = 0x398 then m.ceCount.toNat
  else if off = 0x39C then m.inject.toNat
  else if off = 0x3A0 then s.waitWord t
  else if off = 0x3C0 then fieldAt (b2n c.mx.forceDense) 8 + c.mx.threshold.toNat
  else if off = 0x3C4 then c.slabs.sparse.toNat
  else if off = 0x3C8 then c.slabs.dense.toNat
  else if off = 0x3CC then c.slabs.empty.toNat
  else if off = 0x3D0 then c.slabs.loads.toNat
  else if off = 0x3D4 then c.slabs.groupsSkipped.toNat
  else if off = 0x3D8 then c.core.emptyCutCycles.toNat
  else if off < 0x400 then 0
  else if off < 0x480 then c.attrWord ((off - 0x400) / 4)
  else if off < 0x500 then 0
  else if off < 0x700 then halfOf (c.pageEntry ((off - 0x500) / 8)).word off
  else if off < 0x800 then 0
  else if c.core.codeWindow then
    halfOf (NMap.get 0 m.code (256 * c.core.codePage.toNat + (off - 0x800) / 8)).toNat off
  else 0

/-- A read of the tile window (R380). A code-store word read through the code window is checked like any read of it (R127, R128,
R137); the spec gives no value for one that is uncorrectable, and names no consumer for such a read.
(DESIGN CHOICE, log 22) -/
def State.windowRead (s : State) (t off : Nat) : Nat × State :=
  let c := s.tile t
  if 0x800 ≤ off && c.core.codeWindow then
    let r := c.mem.checkWords true 5 (256 * c.core.codePage.toNat + (off - 0x800) / 8) 1
    let s := s.setTile t { c with mem := r.1 }
    if r.2 then (s.tileReg t off, s) else (halfOf s.free.1.toNat off, s.free.2)
  else (s.tileReg t off, s)

/-! ### Expert writes (R84, R88, R133, R137, R248, R381, R384) -/

/-- A logical tile is in service for its window (R381), and accepts accesses: its initialiser has finished (R131). -/
def State.inService (s : State) (t : Nat) : Bool :=
  decide (t < (if s.pw.fieldBench.isSome then 256 else tileCount)) && !s.isolated t && (s.row (s.rowOf t)).spare != 4
    && (s.tile t).mem.ready

/-- The commands during which expert writes to the tiles are dropped (R384); LOAD_IMAGE is one step of the block. -/
def State.dropsExpert (s : State) : Bool := s.inEval || s.res.restore.isSome || s.res.retire.isSome

def State.countTileErr (s : State) : State :=
  { s with host := { s.host with tileErrs := BitVec.ofNat 32 (satInc 32 s.host.tileErrs.toNat 1) } }
def State.countDropped (s : State) : State :=
  { s with host := { s.host with dropped := BitVec.ofNat 32 (satInc 32 s.host.dropped.toNat 1) } }

/-- The S-core under a new halt bit (R84): it stops before its next issue, or goes on where it stands. -/
def Tile.setHalt (c : Tile) (h : Bool) : Tile :=
  let c := { c with core := { c.core with halt := h } }
  match c.core.run with
  | .running => if h then { c with core := { c.core with run := .halted } } else c
  | .stalled =>
    if h then
      let c' := c.leaveStall c
      { c' with core := { c'.core with run := .halted, stallKind := .none, stallRing := 0 } }
    else c
  | .halted => if h then c else { c with core := { c.core with run := .running } }
  | _ => c

/-- Clears the fault registers; the S-core that stood at the fault is halted (R84, R86). -/
def Tile.clearFault (c : Tile) : Tile :=
  let c := { c with core := { c.core with fault := .empty } }
  if c.core.run == .faulted then { c with core := { c.core with run := .halted, halt := true } } else c

/-- TILE_RUN_CONTROL (R84). (DESIGN CHOICE, log 18) -/
def runControl (t w : Nat) (s : State) : Out :=
  let s := s.modTile t fun c =>
    let c := if natBit w 3 then c.clearFault else c
    let c := { c with core := { c.core with codeWindow := natBit w 1 } }
    c.setHalt (natBit w 0)
  if natBit w 2 && (s.tile t).core.halt then singleStep t s else .next s

/-- A code-store word, through the window, with halt 1 (R84, R88). (DESIGN CHOICE, log 19) -/
def State.writeCode (s : State) (t index : Nat) (w : Word64) : State :=
  let c := s.tile t
  if c.core.codeWindow && c.core.halt then
    let s := s.setTile t { c with mem := { c.mem with
      code := NMap.set 0 c.mem.code (256 * c.core.codePage.toNat + index) w
      eccCode := NMap.drop c.mem.eccCode (256 * c.core.codePage.toNat + index) } }
    { s with expertCode := true }
  else s

/-- Word k of RING_DESC_r: ignored while the ring is claimed or reserved, or while halt is 0; a descriptor that is not well
formed reads valid 0 (R104, R105, R133). -/
def Tile.writeRingDesc (c : Tile) (r k : Nat) (w : Nat) : Tile :=
  let x := ringAt c r
  if !c.core.halt || x.claimed ≠ 0 || x.reserved ≠ 0 then c
  else
    let old := x.pack.toNat
    let new := old - fieldAt (bitsAt old (32 * k) 32) (32 * k) + fieldAt (w % 2 ^ 32) (32 * k)
    let y := Ring.unpack (BitVec.ofNat 128 new)
    let y := { y with valid := y.wellFormed c.pageAttr && y.valid, waiting := x.waiting, timer := x.timer, raised := x.raised
                      sources := x.sources, multi := x.multi }
    c.setRing (BitVec.ofNat 5 r) y

/-- ECC_INJECT: the named word's data bits flip, then arm reads 0, at once (R137); arm has no effect with bits 0 or 3, and reads 0
then too. (DESIGN CHOICE, log 22) -/
def TileMem.injectError (m : TileMem) (w : Nat) : TileMem :=
  let word := bitsAt w 3 18
  let flips : BitVec 2 := match bitsAt w 28 2 with | 1 => 1 | 2 => 3 | _ => 0
  let named := if natBit w 30 then word % 8192 else word
  let m := { m with inject := BitVec.ofNat 32 (fieldAt (bitsAt w 28 3) 28 + fieldAt named 3) }
  if !natBit w 31 || flips = 0 then m
  else if natBit w 30 then
    { m with eccCode := NMap.set 0 m.eccCode (word % 8192) (NMap.get 0 m.eccCode (word % 8192) ^^^ flips) }
  else { m with eccData := NMap.set 0 m.eccData word (NMap.get 0 m.eccData word ^^^ flips) }

/-- PAGE_ATTR_n: a page given 3 keeps its attribute (R133). -/
def Tile.writeAttrs (c : Tile) (n w : Nat) : Tile :=
  { c with pages := { c.pages with
    attr := (List.range 16).foldl (fun m i =>
      if bitsAt w (2 * i) 2 = 3 then m else NMap.set 0 m (16 * n + i) (BitVec.ofNat 2 (bitsAt w (2 * i) 2))) c.pages.attr } }

/-- Half of PAGE_TABLE_n; the dirty bit is read-only (R116, R133). -/
def Tile.writeEntry (c : Tile) (off w : Nat) : Tile :=
  let n := (off - 0x500) / 8
  let old := (c.pageEntry n).word
  let v := if natBit off 2 then old % 2 ^ 32 + fieldAt w 32 else old / 2 ^ 32 * 2 ^ 32 + w
  c.setEntry n { home := BitVec.ofNat 29 (bitsAt v 35 29), frame := BitVec.ofNat 9 (bitsAt v 26 9)
                 state := BitVec.ofNat 3 (bitsAt v 23 3), dirty := (c.pageEntry n).dirty, writeBack := natBit v 21
                 homeValid := natBit v 20 }

/-- A register write at a tile in service. ECC_STATUS.ue is cleared alone: the record's other fields stay (R136).
(DESIGN CHOICE, log 22) -/
def tileWrite (t off w : Nat) (s : State) : Out :=
  let c := s.tile t
  let halted (f : Tile → Tile) : Out := .next (if c.core.halt then s.setTile t (f c) else s)
  let always (f : Tile → Tile) : Out := .next (s.setTile t (f c))
  if off = 0x000 then runControl t w s
  else if off = 0x028 then
    always fun c => if natBit w 31 then { c with mv := { c.mv with firstFail := c.mv.firstFail.clear, failOffset := 0 } } else c
  else if off = 0x038 then always fun c => { c with core := { c.core with codePage := BitVec.ofNat 5 w } }
  else if 0x100 ≤ off && off < 0x300 then always fun c => c.writeRingDesc ((off - 0x100) / 16) (off / 4 % 4) w
  else if off = 0x380 then always fun c =>
    if natBit w 31 then { c with mem := { c.mem with stallStatus := c.mem.stallStatus &&& 0x7FFF_FFFF } } else c
  else if off = 0x390 then
    always fun c => { c with mem := { c.mem with ue := c.mem.ue && !natBit w 31, ce := c.mem.ce && !natBit w 30 } }
  else if off = 0x39C then halted fun c => { c with mem := c.mem.injectError w }
  else if off = 0x3C0 then
    halted fun c => { c with mx := { c.mx with
      forceDense := natBit w 8, threshold := if bitsAt w 0 4 = 0 then c.mx.threshold else BitVec.ofNat 4 w } }
  else if 0x400 ≤ off && off < 0x480 then halted fun c => c.writeAttrs ((off - 0x400) / 4) w
  else if 0x500 ≤ off && off < 0x700 then halted fun c => c.writeEntry off w
  else if 0x800 ≤ off then
    let index := (off - 0x800) / 8
    let old := (NMap.get 0 c.mem.code (256 * c.core.codePage.toNat + index)).toNat
    let v := if natBit off 2 then old % 2 ^ 32 + fieldAt w 32 else old / 2 ^ 32 * 2 ^ 32 + w
    .next (s.writeCode t index (BitVec.ofNat 64 v))
  else .next s

/-- A write through the window of tile t: dropped while firmware rewrites the tiles, refused when the tile is not in service
(R381, R384). -/
def windowWrite (t : Nat) (f : State → Out) (s : State) : Out :=
  if s.dropsExpert then .next s.countDropped
  else if !s.inService t then .next s.countTileErr
  else f s

/-- A row that writes a register of a tile window, once BAR0 decodes it. -/
def expertTile (t : Nat) (f : State → Out) (s : State) : Out :=
  if tileCount ≤ t then .fault .noSuchUnit else if !s.pw.diagReady then .next s else windowWrite t f s

def execHaltWrite (t : Nat) (value : Word32) (s : State) : Out := expertTile t (runControl t value.toNat) s

/-- SINGLE_STEP: a write of TILE_RUN_CONTROL with single_step 1 that leaves the RW bits as they are. -/
def execSingleStep (t : Nat) (s : State) : Out :=
  expertTile t (fun s => if (s.tile t).core.halt then singleStep t s else .next s) s

/-- CLEAR_FAULT: a write of TILE_RUN_CONTROL with clear_fault 1 that leaves the RW bits as they are. -/
def execClearFault (t : Nat) (s : State) : Out := expertTile t (fun s => .next (s.modTile t Tile.clearFault)) s

def execCodeWindowWrite (t index : Nat) (value : Word64) (s : State) : Out :=
  if 256 ≤ index then .fault .noSuchUnit else expertTile t (fun s => .next (s.writeCode t index value)) s

def execRingDescWrite (t r k : Nat) (value : Word32) (s : State) : Out :=
  if 32 ≤ r || 4 ≤ k then .fault .noSuchUnit else expertTile t (tileWrite t (0x100 + 16 * r + 4 * k) value.toNat) s

def execEccInjectArm (t : Nat) (value : Word32) (s : State) : Out := expertTile t (tileWrite t 0x39C value.toNat) s

end Sys2Proof.Machine
end

