-- ==== Sys2Proof/Machine/Upkeep.lean ====
section
/-! DEFINITION. The background work of a tile and the seeds and scales (R112, R127 to R131, R136, R212, R213, R317, R327, R330,
R331, R333, R360 to R362, R576). -/
namespace Sys2Proof.Machine

/-! ### The norm window (R361, R362) -/

/-- A post that the window accepts. -/
def State.acceptPost (s : State) (p : NormSlot) : State :=
  let k := 3 * p.layer.toNat + p.quantity.toNat
  { s with train := { s.train with
    norm := NMap.set 0 s.train.norm k (NMap.get 0 s.train.norm k + p.sum), normTouch := NMap.set false s.train.normTouch k true
    normBad := NMap.set false s.train.normBad k (NMap.get false s.train.normBad k || p.nonfinite) } }

/-- The tile waits at its final bell, where the tap posts every open slot (R361). -/
def State.atFinal (s : State) (t : Nat) : Bool :=
  (s.groupsOf t).any fun g => let m := (s.tile t).member g; m.phase == .final && m.arrived

/-- NORM_POST: the post longest in flight, or at the final bell the slot opened longest ago. (DEDUCED, log 63) -/
def normPost (s : State) (t : Nat) : State :=
  let n := (s.tile t).nt
  match n.flight with
  | p :: rest => (s.modTile t fun c => { c with nt := { c.nt with flight := rest } }).acceptPost p
  | [] =>
    match n.slots with
    | p :: rest =>
      if s.atFinal t then (s.modTile t fun c => { c with nt := { c.nt with slots := rest } }).acceptPost p else s
    | [] => s

def execNormPost (t : Nat) (s : State) : Out := engineStep t normPost s

/-! ### Ring stalls (R112, R135) -/

/-- RING_STALL_STATUS of a stall (R135). -/
def stallWord (r : Nat) (w : Bool × BitVec 2) : Nat :=
  fieldAt 1 31 + fieldAt (b2n w.1) 30 + fieldAt (r % 32) 25 + fieldAt w.2.toNat 23

/-- RING_STALL: the timer has reached its threshold (R104, R112). Of several waiters the one that has waited longest is shown
(R135). (DESIGN CHOICE, log 23) -/
def ringStall (s : State) (t r : Nat) : State :=
  let c := s.tile t
  let x := ringAt c r
  match x.waiting.head? with
  | none => s
  | some w =>
    if x.raised || x.stallThreshold = 0 || x.timer < 256 * x.stallThreshold.toNat then s
    else
      let c := c.setRing (BitVec.ofNat 5 r) { x with raised := true }
      let word : Word32 := BitVec.ofNat 32 (stallWord r w)
      let c := if c.mem.stallStatus.getLsbD 31 then c else { c with mem := { c.mem with stallStatus := word } }
      (s.setTile t c).raise 0 t (leBytes 4 word.toNat)

def execRingStall (t r : Nat) (s : State) : Out :=
  if tileCount ≤ t || 32 ≤ r then .fault .noSuchUnit else .next (ringStall s t r)

/-! ### Check bits (R127, R129) -/

/-- A corrected word is written back, unless a second error has joined it. -/
def TileMem.writeBack (m : TileMem) : TileMem :=
  match m.wbQueue with
  | [] => m
  | (code, w) :: rest =>
    let flips := if code then m.eccCode else m.eccData
    let flips := if isDouble (NMap.get 0 flips w) then flips else NMap.drop flips w
    if code then { m with wbQueue := rest, eccCode := flips } else { m with wbQueue := rest, eccData := flips }

/-- Rows that the scrubber takes in turn: those of the data memory, then the words of the code store (R97, R99, R129). -/
def dataRows : Nat := 32768
def scrubRows : Nat := dataRows + 8192

def TileMem.scrub (m : TileMem) : TileMem :=
  let p := m.scrubPos
  let r := if p < dataRows then m.checkWords false 6 (8 * p) 8 else m.checkWords true 6 (p - dataRows) 1
  { r.1 with scrubPos := (p + 1) % scrubRows }

/-- A step of the memory of a tile whose domain is on. -/
def onMemory (t : Nat) (f : TileMem → TileMem) (s : State) : Out :=
  if tileCount ≤ t then .fault .noSuchUnit
  else if s.gated t || !(s.tile t).mem.ready then .next s
  else .next (s.modTile t fun c => { c with mem := f c.mem })

def execEccCorrectionWriteback (t : Nat) (s : State) : Out := onMemory t TileMem.writeBack s
def execScrubRow (t : Nat) (s : State) : Out := onMemory t TileMem.scrub s

/-- MEMORY_INIT_DONE: the tile accepts accesses (R131). -/
def execMemoryInitDone (t : Nat) (s : State) : Out :=
  onTile t (fun _ c => { c with mem := { c.mem with ready := true } }) s

/-! ### Seeds (R317, R327, R330, R331, R333) -/

/-- A SET_SEEDS that is under way completes once the key is derived and no arming is left (R330). -/
def State.seedsDone (s : State) : State :=
  if s.randomBusy then s
  else
    match s.host.held.find? fun h => h.op == 0x09 && h.phase == HeldPhase.running with
    | some h => s.complete h.n .ok 0 0 false
    | none => s

/-- A new keyed seed: its key is not valid until it has been derived (R330). -/
def State.setKeyed (s : State) (seed : Word64) : State :=
  { s with random := { s.random with keyedSeed := seed, keyBusy := true, keyValid := false } }

/-- A new free seed; with a free-mode image loaded, every tile is armed again, a gated one once it is on (R327, R333). -/
def State.setFree (s : State) (seed : Word64) : State :=
  let s := { s with random := { s.random with freeSeed := seed, freeArmed := false } }
  match s.image with
  | some i =>
    if s.freeMode then
      (List.range i.tiles).foldl
        (fun s t => s.modTile t fun c => { c with rn := { c.rn with arming := true } }) s
    else s
  | none => s

/-- KEY_DERIVED (R317, R330). -/
def execKeyDerived (s : State) : Out :=
  if s.random.keyBusy then
    .next { s with random := { s.random with
      key := deriveKey s.random.keyedSeed, keyBusy := false, keyValid := true } }.seedsDone
  else .next s

/-- LANE_ARMING_DONE: the lanes hold the seeded state, and waiting draws may proceed (R327). -/
def execLaneArmingDone (t : Nat) (s : State) : Out :=
  if tileCount ≤ t then .fault .noSuchUnit
  else if !(s.tile t).rn.arming then .next s
  else
    let c := (s.tile t).arm s.random.freeSeed t
    .next (s.setTile t { c with rn := { c.rn with arming := false } }).checkArmed.seedsDone

/-- SET_SEEDS: between steps (R330, R405). -/
def execSetSeeds (n : Nat) (s : State) : Out :=
  startHeld 0x09 n (fun s h =>
    let mask := h.field 0x18 1
    let s := s.setRunning n
    let s := if natBit mask 0 then s.setKeyed (BitVec.ofNat 64 (h.field 8 8)) else s
    (if natBit mask 1 then s.setFree (BitVec.ofNat 64 (h.field 0x10 8)) else s).seedsDone) s

/-- No STEP, RUN or EVAL runs, and firmware does not rewrite the tiles (R212, R333, R367, R384). -/
def expertIdle (f : State → State) (s : State) : State :=
  if s.dropsExpert then s.countDropped else if s.step.isSome then s else f s

/-- SEED_KEYED_HI (R333). -/
def State.writeSeedKeyedHi (s : State) (w : Word32) : State := s.setKeyed (w ++ s.random.keyedSeed.setWidth 32)
/-- SEED_FREE_HI (R333). -/
def State.writeSeedFreeHi (s : State) (w : Word32) : State := s.setFree (w ++ s.random.freeSeed.setWidth 32)

def execSeedKeyedWrite (value : Word32) (s : State) : Out :=
  if s.pw.diagReady then .next (expertIdle (fun s => s.writeSeedKeyedHi value) s) else .next s
def execSeedFreeWrite (value : Word32) (s : State) : Out :=
  if s.pw.diagReady then .next (expertIdle (fun s => s.writeSeedFreeHi value) s) else .next s

/-! ### Scales (R212, R213, R576) -/

/-- Word k of an entry as an expert write stores it: the entry's bytes with that word replaced (R576). -/
def State.writeScaleWord (s : State) (n k : Nat) (w : Word32) : State :=
  let e := s.scaleEntry n
  s.setScaleEntry n (if k = 2 then e else e.store (patch e.bytes (4 * k) (leBytes 4 w.toNat)))

def execScaleEntryWrite (n k : Nat) (value : Word32) (s : State) : Out :=
  if 8192 ≤ n || 32 ≤ k then .fault .noSuchUnit
  else if !s.pw.diagReady then .next s
  else .next (expertIdle (fun s => s.writeScaleWord n k value) s)

/-- Bytes of a SET_SCALES record (R400). -/
def scaleRecord : Nat := 136

/-- Applies the records, and the loss scale when the mask asks for it (R213, R576). -/
def State.applyScales (s : State) (n : Nat) (c : Held) (rs : List (List Byte)) : State :=
  let s := rs.foldl (fun s r => s.setScaleEntry (leAt r 0 2) ((s.scaleEntry (leAt r 0 2)).store (r.drop 8))) s
  let s := if natBit (c.field 0x12 1) 0 then s.setLossScale (c.field 0x13 1) (c.field 0x14 4) else s
  s.complete n .ok 0 rs.length false

/-- Faults of record i: an entry number out of range, and a byte that R400 gives as zero and is not (R398). -/
def recordFaults (i : Nat) (r : List Byte) : List (Nat × Bool) :=
  (scaleRecord * i, decide (8191 < leAt r 0 2)) :: (rangeFrom 2 6).map fun o => (scaleRecord * i + o, leAt r o 1 ≠ 0)

/-- SET_SCALES: every record is checked before any is applied (R400, R403, R576). (DESIGN CHOICE, log 39) -/
def setScales (s : State) (n : Nat) (h : HostReply) (c : Held) : State :=
  let count := c.field 0x10 2
  let addr := c.field 8 8
  match s.hostAnswer h with
  | .fail e => if count = 0 then s.applyScales n c [] else (s.hostFailed e).complete n .hostError addr 0 false
  | .ok =>
    let rs := (List.range count).map fun i => s.getHost (addr + scaleRecord * i) scaleRecord
    match firstFault ((rs.zip (List.range count)).flatMap fun r => recordFaults r.2 r.1) with
    | some o => s.complete n .badPacket (o % 65536) 0 false
    | none => s.applyScales n c rs

def execSetScales (n : Nat) (h : HostReply) (s : State) : Out := startHeld 0x0A n (fun s c => setScales s n h c) s

end Sys2Proof.Machine
end

