-- ==== Sys2Proof/Machine/Regs.lean ====
section
/-! DEFINITION. What every register of BAR0 reads (R26, R27, R212 to R215, R305 to R312, R333, R367 to R370, R376 to R379, R388,
R411, R441 to R443, R464, R495 to R497, R511 to R513, R528 to R532, R551 to R553). -/
namespace Sys2Proof.Machine

/-! ### Device control and queues (R377 to R379, R382, R388, R389) -/

/-- Power level as DEVICE_STATUS and POWER_CONTROL encode it (R378, R531). -/
def PowerLevel.code : PowerLevel → Nat
  | .noon => 0 | .evening => 1 | .nightHold => 2 | .midnight => 3

/-- DEVICE_STATUS (R378). -/
def State.deviceStatus (s : State) : Nat :=
  let level := ((List.range 6).map fun b => (s.bench b).level.code).foldl max 0
  let loaded := s.image.isSome && s.runnable && s.res.state != RecoveryState.restoreRequired
  fieldAt (b2n s.pw.ready) 31 + fieldAt (b2n s.pw.diagReady) 30 + fieldAt s.pw.service.toNat 28
    + fieldAt (b2n (s.pw.standing == .hold)) 27 + fieldAt (s.pw.stage % 8) 24 + fieldAt s.pw.bootSel.toNat 20
    + fieldAt (b2n s.res.protect) 19 + fieldAt (b2n loaded) 18 + fieldAt level 16

def lo32 (w : Word64) : Nat := w.toNat % 2 ^ 32
def hi32 (w : Word64) : Nat := w.toNat / 2 ^ 32

def State.deviceReg (s : State) (o : Nat) : Nat :=
  let h := s.host
  if o = 0x000 then fieldAt 0x5A01 16 + Config.siliconRevision.toNat
  else if o = 0x004 then s.deviceStatus
  else if o = 0x010 then h.event.toNat
  else if o = 0x014 then fieldAt (b2n h.evIrq) 31 + fieldAt h.evVector.toNat 24 + h.evEnable.toNat
  else if o = 0x020 then lo32 h.bar2Base
  else if o = 0x024 then hi32 h.bar2Base
  else if o = 0x030 then h.tileErrs.toNat
  else if o = 0x034 then h.dropped.toNat
  else if 0x100 ≤ o && o < 0x140 then (NMap.get 0xE000_0000 h.bcast ((o - 0x100) / 4)).toNat
  else 0

/-- QUEUE_CONFIG (R389). -/
def Queue.config (x : Queue) : Nat :=
  fieldAt (b2n x.enable) 31 + fieldAt x.priority.toNat 29 + fieldAt x.vector.toNat 22 + fieldAt (b2n x.irqEnable) 21
    + x.lastEntry.toNat

def State.queueReg (s : State) (o : Nat) : Nat :=
  let q := o / 64
  let x := s.queue q
  match o % 64 with
  | 0x00 => lo32 x.sqBase
  | 0x04 => hi32 x.sqBase
  | 0x08 => lo32 x.cqBase
  | 0x0C => hi32 x.cqBase
  | 0x10 => x.config
  | 0x14 => s.queueStatus q
  | 0x18 => x.sqHead
  | 0x1C => x.cqTail + fieldAt (b2n x.phase) 31
  | 0x20 => x.nextSeq.toNat
  | _ => 0

/-! ### Repair, haul, random, training, scale (R26, R27, R212 to R215, R305 to R312, R333, R367 to R370) -/

/-- DIE_GEOMETRY (R26). -/
def State.dieGeometry (s : State) : Nat :=
  let spares := ((List.range 96).filter fun k => (s.row k).spare == 0).length
  fieldAt 6 28 + fieldAt 48 22 + fieldAt 32 16 + fieldAt 17 11 + fieldAt arrays 8 + spares

def State.repairReg (s : State) (o : Nat) : Nat :=
  if o = 0 then s.dieGeometry
  else if 0x100 ≤ o && o < 0x280 then (s.row ((o - 0x100) / 4)).word
  else 0

/-- BELL_GROUP_STATUS_g (R308). -/
def State.groupStatus (s : State) (g : Nat) : Nat :=
  let G := s.group g
  let ext := (s.selfEntry.map fun e => e.extended.getLsbD g).getD false
  if G.loaded then
    fieldAt 1 31 + fieldAt (b2n ext) 30 + fieldAt G.phase.code 28 + fieldAt (b2n (spansSeam G.members)) 27
      + fieldAt (s.readyMembers g).length 16 + G.index % 65536
  else fieldAt G.phase.code 28 + G.index % 65536

/-- HAUL_TILE_BELL_n.state: the tile's standing over all its groups gs (R309). It waits when its core is at the bell of any of
them, and is past its final bell when that has fired for every one. (DEDUCED, log 125) -/
def Tile.bellState (c : Tile) (gs : List Nat) : Nat :=
  let ms := gs.map c.member
  if !ms.any (·.inStep) then 0
  else if ms.any (·.excused) then 4
  else if ms.all (·.phase == .done) then 5
  else if ms.any (·.arrived) then 2
  else if ms.any (·.rolled) then 3
  else 1

/-- HAUL_TILE_BELL_n (R309). -/
def Tile.bellWord (c : Tile) (gs : List Nat) : Nat :=
  fieldAt (c.bellState gs) 29 + fieldAt c.sd.sendGroup.toNat 26 + (c.member c.sd.sendGroup.toNat).index % 65536

/-- HAUL_TILE_MARKERS_n (R310). -/
def Tile.markerWord (c : Tile) : Nat :=
  let m := c.member c.sd.sendGroup.toNat
  fieldAt (NMap.get 0 m.expect m.index % 65536) 16 + min 65535 (NMap.get 0 m.markers m.index)

/-- HAUL_TILE_SENDS_n and HAUL_TILE_FAIL_n (R311, R312). -/
def Sd.sendWord (d : Sd) : Nat := fieldAt d.issued.toNat 16 + fieldAt d.queue.length 8 + d.excess.toNat
def Sd.failWord (d : Sd) : Nat := haulFailWord d.fail

def State.haulTileReg (s : State) (t k : Nat) : Nat :=
  let c := s.tile t
  match k with
  | 0 => c.bellWord (s.groupsOf t)
  | 1 => c.markerWord
  | 2 => c.sd.sendWord
  | _ => c.sd.failWord

def State.groupReg (s : State) (g o : Nat) : Nat :=
  let G := s.group g
  match o with
  | 0x00 => s.groupStatus g
  | 0x04 => G.fires.toNat
  | 0x08 => G.latency.toNat
  | _ => if 0x20 ≤ o then (G.payload.getD ((o - 0x20) / 4) 0).toNat else 0

def State.haulReg (s : State) (o : Nat) : Nat :=
  if o = 0 then fieldAt (b2n s.bell.rollingAllowed) 17 + fieldAt (b2n s.bell.timeoutEnable) 16 + s.bell.timeoutMs.toNat
  else if o = 4 then
    let r := s.bell.record
    timeoutWord r.valid r.value.1.toNat r.value.2.1.toNat r.value.2.2.1 r.value.2.2.2.toNat
  else if 0x100 ≤ o && o < 0x300 then s.groupReg ((o - 0x100) / 0x40) (o % 0x40)
  else if 0x1000 ≤ o && o < 0x1000 + 16 * tileCount then s.haulTileReg ((o - 0x1000) / 16) (o / 4 % 4)
  else 0

/-- RANDOM_CONTROL (R333). -/
def State.randomControl (s : State) : Nat :=
  fieldAt (b2n s.randomBusy) 31 + fieldAt (b2n s.random.keyValid) 30 + fieldAt (b2n s.random.freeArmed) 1 + b2n s.freeMode

def State.randomReg (s : State) (o : Nat) : Nat :=
  let r := s.random
  if o = 0 then s.randomControl
  else if o = 0x08 then lo32 r.keyedSeed
  else if o = 0x0C then hi32 r.keyedSeed
  else if o = 0x10 then lo32 r.freeSeed
  else if o = 0x14 then hi32 r.freeSeed
  else if 0x20 ≤ o && o < 0x40 then (r.key.getD ((o - 0x20) / 4) 0).toNat
  else if 0x1000 ≤ o && o < 0x1000 + 4 * tileCount then (s.tile ((o - 0x1000) / 4)).rn.drainWait.toNat
  else 0

def State.trainReg (s : State) (o : Nat) : Nat :=
  let t := s.train
  if o = 0x00 then
    fieldAt (b2n t.enable) 31 + fieldAt (b2n t.readBank) 30 + fieldAt (b2n t.advanced) 29
      + (if t.advanced then 0 else fieldAt t.holdReason.toNat 27)
  else if o = 0x08 then lo32 t.u
  else if o = 0x0C then hi32 t.u
  else if o = 0x10 then lo32 t.bankA
  else if o = 0x14 then hi32 t.bankA
  else if o = 0x18 then lo32 t.bankB
  else if o = 0x1C then hi32 t.bankB
  else if o = 0x20 then lo32 t.bankLen
  else if o = 0x24 then hi32 t.bankLen
  else if o = 0x28 then t.holdNs.toNat
  else if o = 0x40 then fieldAt (b2n t.ledgerEnable) 31 + fieldAt t.ledgerLog2 26 + t.ledgerGroup.toNat
  else if o = 0x48 then lo32 t.ledgerBase
  else if o = 0x4C then hi32 t.ledgerBase
  else if o = 0x50 then t.ledgerWrite.toNat
  else if o = 0x54 then t.ledgerRead.toNat
  else if o = 0x58 then t.ledgerLost.toNat
  else if o = 0x80 then fieldAt (b2n t.normEnable) 31 + t.normLayers
  else if o = 0x84 then
    fieldAt (b2n t.normWritten) 31 + fieldAt (b2n t.normNonfinite) 30 + fieldAt (b2n t.normOverflow) 29 + t.normTouched
  else if o = 0x88 then lo32 t.normBase
  else if o = 0x8C then hi32 t.normBase
  else if 0x1000 ≤ o && o < 0x1000 + 4 * tileCount then (s.tile ((o - 0x1000) / 4)).nt.wait.toNat
  else 0

def State.scaleReg (s : State) (o : Nat) : Nat :=
  let c := s.scale
  if o = 0 then fieldAt c.clean 12 % 2 ^ 32 + c.k
  else if o = 4 then
    fieldAt (b2n c.lastOverflow) 31 + fieldAt (b2n c.atMin) 30 + fieldAt (b2n c.atMax) 29 + c.skipped
  else if o = 8 then fieldAt (b2n c.busy) 31 + fieldAt (b2n c.done) 30 + c.entriesPosted
  else if o = 0xC then c.drops.toNat
  else if 0x20 ≤ o && o < 0x40 then leAt s.profile (o - 0x20) 4
  else if 0x100000 ≤ o then leAt (s.scaleEntry ((o - 0x100000) / 128)).bytes (o % 128) 4
  else 0

/-! ### Links (R411, R441 to R443) -/

def PortState.code : PortState → Nat
  | .disabled => 0 | .training => 1 | .up => 2 | .down => 3 | .failed => 4 | .blockReset => 5

/-- The 64 bytes of a partner-table entry (R411). -/
def Partner.bytes (p : Partner) (i : Nat) : List Byte :=
  fit 0 64 (leBytes 2 i ++ leBytes 1 p.state ++ leBytes 1 p.path ++ leBytes 1 p.port ++ leBytes 1 p.hops ++ leBytes 1 p.rank
    ++ [p.feedGroup, p.flags, p.extended] ++ leBytes 2 p.udpPort ++ leBytes 4 0 ++ leBytes 8 p.identity.toNat
    ++ leBytes 16 p.ip.toNat ++ leBytes 4 p.rateMbps ++ leBytes 4 p.retransmits)

/-- HR_PORT_STATUS_p (R442). -/
def State.roadStatus (s : State) (p : Nat) : Nat :=
  fieldAt (s.road p).state.code 29 + fieldAt (s.road p).lanes.toNat 27
    + (s.upPartners.filter fun q => q.2.path == 0 && q.2.port == p).length

/-- DOMAIN_STATUS (R443). -/
def State.domainStatus (s : State) : Nat :=
  match s.selfEntry with
  | some e =>
    fieldAt 1 31 + fieldAt (b2n s.domainComplete) 30 + fieldAt e.extended.toNat 16
      + fieldAt ((s.domainPeers.length + 1) % 256) 8 + e.rank % 256
  | none => 0

def State.ethReg (s : State) (e o : Nat) : Nat :=
  let x := s.ethPort e
  match o with
  | 0x00 => fieldAt x.state 30 + fieldAt x.mode.toNat 28
  | 0x04 => fieldAt (b2n x.enable) 31 + fieldAt x.vlan.toNat 16 + fieldAt x.pcp.toNat 13 + fieldAt (b2n x.pfcEnable) 12
  | 0x08 => (Config.mac e).toNat % 2 ^ 32
  | 0x0C => (Config.mac e).toNat / 2 ^ 32
  | 0x10 => x.nextHop.toNat % 2 ^ 32
  | 0x14 => x.nextHop.toNat / 2 ^ 32
  | 0x18 => x.ipv4.toNat
  | _ => if 0x20 ≤ o && o < 0x30 then bitsAt x.ipv6.toNat (8 * (o - 0x20)) 32 else 0

def State.linkReg (s : State) (o : Nat) : Nat :=
  let l := s.link
  if o = 0x00 then lo32 Config.identity
  else if o = 0x04 then hi32 Config.identity
  else if o = 0x08 then l.feedGroup.toNat
  else if o = 0x0C then s.domainStatus
  else if o = 0x10 then fieldAt l.pfcPriority.toNat 16 + l.udpPort.toNat
  else if o = 0x14 then l.select.toNat
  else if 0x40 ≤ o && o < 0x60 then s.roadStatus ((o - 0x40) / 4)
  else if 0x60 ≤ o && o < 0x80 then (s.road ((o - 0x60) / 4)).retryCount.toNat
  else if 0x80 ≤ o && o < 0xC0 then
    leAt ((s.partner l.select.toNat).bytes l.select.toNat) (o - 0x80) 4
  else if 0x100 ≤ o && o < 0x200 then s.ethReg ((o - 0x100) / 0x40) (o % 0x40)
  else if 0x200 ≤ o && o < 0x210 then (s.ethPort ((o - 0x200) / 4)).drops.toNat
  else if o = 0x300 then l.discarded.toNat
  else if o = 0x304 then l.fwdErrors.toNat
  else if o = 0x308 then l.drops.toNat
  else 0

/-! ### Main memory (R464) -/

def GroupState.code : GroupState → Nat
  | .off => 0 | .training => 1 | .service => 2 | .selfRefresh => 3 | .blockReset => 4 | .failed => 5

/-- Bit mask of failed channels from channel `lo`. -/
def State.chanFailBits (s : State) (lo n : Nat) : Nat :=
  ((List.range n).map fun j => fieldAt (b2n (s.mm.chanFail.contains (lo + j))) j).foldl (· + ·) 0

def State.memReg (s : State) (o : Nat) : Nat :=
  let m := s.mm
  let mode (x : MemMode) : Nat := b2n x.pools + fieldAt (b2n x.unchecked) 1 + fieldAt (b2n x.rate) 2
  if o = 0x00 then fieldAt (mode m.next) 4 + mode m.cur
  else if o = 0x04 then
    fieldAt (b2n m.trained) 31 + fieldAt (b2n m.filling) 30
      + fieldAt (if m.trained then 128 - m.chanFail.length else 0) 12 + m.usableGib
  else if 0x10 ≤ o && o < 0x20 then s.chanFailBits (8 * (o - 0x10)) 32
  else if o = 0x20 then ueLogWord m.ueLog
  else if o = 0x24 then m.ueAddr % 2 ^ 32
  else if o = 0x28 then m.ueAddr / 2 ^ 32
  else if o = 0x30 then m.retryOk.toNat
  else if o = 0x34 then m.ueCount.toNat
  else if o = 0x38 then m.linkCe.toNat
  else if 0x100 ≤ o && o < 0x180 then
    let p := (o - 0x100) / 4
    fieldAt (s.memGroup p).state.code 29 + fieldAt (s.memGroup p).refreshRate.toNat 25 + s.chanFailBits (4 * p) 4
  else 0

/-! ### Resilience (R495 to R497) -/

def RecoveryState.code : RecoveryState → Nat
  | .normal => 0 | .repairHold => 1 | .replay => 2 | .restoreRequired => 3 | .peerHold => 4

/-- RECOVERY_STATE (R497). (DEDUCED, log 104) -/
def State.recoveryState (s : State) : Nat :=
  let r := s.res
  let queued := r.failures.length - b2n r.filling
  fieldAt r.state.code 29 + fieldAt (b2n r.forced) 28 + fieldAt (b2n s.unshadowed) 27 + fieldAt (min queued 255) 16
    + fieldAt r.attempt.toNat 12 + r.tile.toNat

def State.resReg (s : State) (o : Nat) : Nat :=
  let r := s.res
  if o = 0x00 then
    fieldAt (b2n r.protect) 31 + fieldAt r.partner.toNat 16 + fieldAt r.path.toNat 14 + r.interval.toNat
  else if o = 0x04 then s.recoveryState
  else if o = 0x08 then s.drainStatus
  else if o = 0x0C then r.skipped.toNat
  else if o = 0x10 then lo32 r.recoveryBase
  else if o = 0x14 then hi32 r.recoveryBase
  else if o = 0x18 then r.inputRing.toNat
  else if o = 0x20 then lo32 r.shadowBase
  else if o = 0x24 then hi32 r.shadowBase
  else if o = 0x28 then r.shadowLength.toNat
  else if o = 0x30 then lo32 r.homeBase
  else if o = 0x34 then hi32 r.homeBase
  else if o = 0x38 then r.homeLength.toNat
  else if o = 0x40 then lo32 r.foreignBase
  else if o = 0x44 then hi32 r.foreignBase
  else if o = 0x48 then r.foreignConfig.toNat
  else if o = 0x50 then lo32 r.logIndex
  else if o = 0x54 then hi32 r.logIndex
  else if o = 0x58 then lo32 r.lastU
  else if o = 0x5C then hi32 r.lastU
  else if 0x100 ≤ o && o < 0x140 then
    match s.owner ((o - 0x100) / 4) with
    | some w => fieldAt 1 31 + fieldAt (b2n w.newest) 30 + fieldAt (b2n w.complete) 29 + w.partner.toNat
    | none => 0
  else 0

/-! ### Power and reset, with the retained memory (R511 to R513, R528 to R532) -/

def ResetKind.code : ResetKind → Nat
  | .powerOn => 0 | .supply => 1 | .thermal => 2 | .perstN => 3 | .hotReset => 4 | .flr => 5 | .watchdog => 6 | .command => 7
  | .debug => 8

/-- RESET_CAUSE (R529). -/
def Power.resetCause (p : Power) : Nat :=
  fieldAt (b2n p.retainedValid) 31 + fieldAt (b2n p.causeOnly) 30 + fieldAt p.kind.code 26 + fieldAt (b2n p.optionDefault) 25
    + fieldAt p.detail.toNat 16 + fieldAt p.causeStage.toNat 13 + fieldAt (p.resetsInWindow % 32) 8

/-- BENCH_CLOCK_b (R532). -/
def State.benchClock (s : State) (b : Nat) : Nat :=
  let k := s.bench b
  let gated := k.level.isGated
  fieldAt (if gated then 3 else (s.effective b).toNat) 30 + fieldAt (if gated then 3 else k.requested.toNat) 28
    + fieldAt k.twilight.toNat 26 + fieldAt k.cap.toNat 24 + fieldAt k.thermal.toNat 22 + fieldAt (k.junction % 256) 12

/-- POWER_STATUS (R531). -/
def State.powerStatus (s : State) : Nat :=
  let any (f : BenchClock → BitVec 2) : Nat := b2n ((List.range 6).any fun b => f (s.bench b) != 0)
  fieldAt (s.pw.inputW % 4096) 20 + fieldAt (b2n s.pw.unreachable) 19 + fieldAt (any (·.cap)) 18 + fieldAt (any (·.thermal)) 17
    + fieldAt (any (·.twilight)) 16 + s.pw.cap % 4096

/-- A twilight entry and a reset-cause entry (R512). -/
def TwilightEntry.bytes (e : TwilightEntry) : List Byte :=
  fit 0 32 (leBytes 8 e.time ++ leBytes 1 e.rail ++ leBytes 1 (b2n e.recovered + fieldAt (b2n e.capLowered) 1) ++ leBytes 2 0
    ++ leBytes 4 e.duration ++ leBytes 2 e.lowest)
def CauseEntry.bytes (e : CauseEntry) : List Byte :=
  fit 0 32 (leBytes 8 e.time ++ leBytes 1 e.kind.code ++ leBytes 1 e.detail ++ leBytes 1 e.stage ++ leBytes 1 0 ++ leBytes 4 e.step)

/-- A journal entry (R513). -/
def Journal.bytes (j : Journal) : List Byte :=
  fit 0 64 j.packet ++ leBytes 1 j.queue ++ leBytes 1 (if j.unwritten then 2 else 1) ++ List.replicate 30 0
    ++ fit 0 32 (if j.unwritten then j.reply else [])

/-- An entry of a table of optional records of 32 bytes. -/
def optBytes {α : Type} (f : α → List Byte) : Option α → List Byte
  | some x => f x
  | none => List.replicate 32 0

/-- "YZ1RETN1". -/
def retainedMagic : List Byte := [0x59, 0x5A, 0x31, 0x52, 0x45, 0x54, 0x4E, 0x31]

/-- The retained memory from an 8-byte boundary (R511); under Cause-only only the reset history (R509). -/
def State.retained8 (s : State) (a : Nat) : List Byte :=
  let p := s.pw
  let full (bs : List Byte) : List Byte := if p.causeOnly then List.replicate 8 0 else bs
  let part (bs : List Byte) (o : Nat) : List Byte := fit 0 8 (bs.drop o)
  if a = 0 then full retainedMagic
  else if a = 0x10 then full (leBytes 8 s.res.logIndex.toNat)
  else if a = 0x18 then full (leBytes 2 p.causeNext ++ leBytes 2 p.twiNext ++ leBytes 4 0)
  else if 0x20 ≤ a && a < 0xA0 then leBytes 8 (p.history.getD ((a - 0x20) / 8) 0)
  else if 0x100 ≤ a && a < 0x500 then
    full (part (optBytes CauseEntry.bytes (NMap.get none p.causeLog ((a - 0x100) / 32))) (a % 32))
  else if 0x800 ≤ a && a < 0x2800 then
    full (part (optBytes TwilightEntry.bytes (NMap.get none p.twiLog ((a - 0x800) / 32))) (a % 32))
  else if 0x4000 ≤ a && a < 0xC000 then
    full (match s.host.journal.find? fun j => j.1 == (a - 0x4000) / 128 with
      | some j => part j.2.bytes (a % 128)
      | none => List.replicate 8 0)
  else List.replicate 8 0

def State.powerReg (s : State) (o : Nat) : Nat :=
  let p := s.pw
  if o = 0x000 then p.resetCause
  else if o = 0x010 then fieldAt p.ctlState.toNat 29 + fieldAt p.ctlDivision.toNat 27 + p.ctlMask.toNat
  else if o = 0x014 then p.cap % 4096
  else if o = 0x018 then s.powerStatus
  else if 0x020 ≤ o && o < 0x038 then s.benchClock ((o - 0x020) / 4)
  else if o = 0x038 then p.twiCount.toNat
  else if 0x040 ≤ o && o < 0x080 then (NMap.get 0 p.bkp ((o - 0x040) / 4)).toNat
  else if o = 0x100 then
    fieldAt (b2n (p.blockResets.any (·.running))) 30 + fieldAt p.blkKind.toNat 27 + p.blkIndex.toNat
  else if o = 0x200 then b2n p.retPage
  else if 0x8000 ≤ o then
    let a := o - 0x8000 + (if p.retPage then 0x8000 else 0)
    leAt (s.retained8 (a / 8 * 8)) (a % 8) 4
  else 0

/-! ### Security (R551 to R553) -/

/-- SEC_STATUS (R552). -/
def Security.status (x : Security) : Nat :=
  fieldAt (b2n x.bootBank) 31 + fieldAt (b2n x.fallback) 30 + fieldAt (b2n x.recovery) 29 + fieldAt (b2n x.rollbackChecked) 28
    + fieldAt x.debugScope.toNat 25 + fieldAt (x.securityVersion % 128) 18 + fieldAt (x.counter % 128) 11
    + fieldAt (b2n x.aValid) 10 + fieldAt (b2n x.bValid) 9

def State.secReg (s : State) (o : Nat) : Nat :=
  let x := s.sec
  if o = 0 then x.status
  else if o = 4 then x.fwVersion.toNat
  else if 0x100 ≤ o && o < 0x1E0 then leAt (s.slot ((o - 0x100) / 32)) (o % 32) 4
  else if 0x200 ≤ o && o < 0x240 then bitsAt x.attestKey.toNat (8 * (o - 0x200)) 32
  else if o = 0x400 then
    fieldAt x.recStatus.toNat 26 + fieldAt (b2n x.recTarget) 25 + x.recReceived.length % 2 ^ 23
  else 0

/-! ### BAR0 as a whole (R376, R381, R382) -/

/-- A block of BAR0: base, size, and what its offsets read. -/
structure Block where
  base : Nat
  size : Nat
  read : State → Nat → Nat

/-- The blocks of R376 below the tile windows; the doorbells are write-only. -/
def bar0Blocks : List Block :=
  [⟨0x0, 0x1000, State.deviceReg⟩, ⟨0x1000, 0x1000, State.queueReg⟩, ⟨0x10_0000, 0x1000, State.repairReg⟩,
   ⟨0x11_0000, 0x8000, State.haulReg⟩, ⟨0x12_0000, 0x4000, State.randomReg⟩, ⟨0x13_0000, 0x4000, State.trainReg⟩,
   ⟨0x14_0000, 0x1_0000, State.powerReg⟩, ⟨0x15_0000, 0x1_0000, State.linkReg⟩, ⟨0x16_0000, 0x1_0000, State.memReg⟩,
   ⟨0x17_0000, 0x1_0000, State.resReg⟩, ⟨0x18_0000, 0x1_0000, State.secReg⟩, ⟨0x20_0000, 0x20_0000, State.scaleReg⟩]

def tileWindows : Nat := 0x100_0000
def bcastWindows : Nat := 0x200_0000

/-! ### What the host reads (R371 to R376, R540) -/

/-- The doorbell page (R376). -/
def doorbellBase : Nat := 0x2000

/-- BAR0 decodes an offset for reading: everything from step 3 of R373 on, before that the three blocks named there, and in
recovery over PCIe the device control block and the security block (R374, R540). (DEDUCED, log 72) -/
def State.readable (s : State) (o : Nat) : Bool :=
  s.pw.diagReady || decide (o < doorbellBase + 0x1000)
    || (s.pw.standing == .recovery && decide (0x18_0000 ≤ o) && decide (o < 0x19_0000))

/-- A read that the function does not serve (R374, R376). -/
def State.unsupported (s : State) : Reply × State := (.unsupported, s.logAer .unsupported)

/-- Configuration requests complete normally (R373, R540). -/
def State.configOpen (s : State) : Bool := s.pw.diagReady || s.pw.standing == .recovery

/-- Bit of an error in the AER uncorrectable status register; the receiver error is bit 0 of the correctable one.
(PRESUMED, log 8) -/
def AerError.bit : AerError → Nat
  | .poisoned => 12 | .timeout => 14 | .completerAbort => 15 | .unsupported => 20 | .receiver => 0

def State.configWord (s : State) (r : ConfigReg) : Nat :=
  let p := s.host.pcie
  let errs (l : List AerError) : Nat := ((l.filter p.aer.contains).map fun e => fieldAt 1 e.bit).foldl (· + ·) 0
  match r with
  | .identity => fieldAt 0x5A01 16 + Config.vendorId.toNat
  | .classCode => fieldAt 0x12_0000 8
  | .command => fieldAt (b2n p.busMaster) 2
  | .deviceControl => fieldAt p.maxPayload.toNat 5 + fieldAt p.maxRead.toNat 12
  | .linkControl => fieldAt (b2n p.aspmL1) 1
  | .aerUncorrectable => errs [.poisoned, .timeout, .completerAbort, .unsupported]
  | .aerCorrectable => errs [.receiver]
  | .bar2Size => fieldAt (s.host.bar2Log2 - 20) 8

/-- A configuration read; Request Retry Status before step 3 of R373. (PRESUMED, log 8) -/
def State.configRead (s : State) (r : ConfigReg) : Reply :=
  if s.configOpen then .data (leBytes 4 (s.configWord r)) else .retry

/-- A 32-bit word of BAR4: the MSI-X table and the PBA (R375). (PRESUMED, log 8) -/
def State.bar4Word (s : State) (o : Nat) : Nat :=
  let e := s.msix (o / 16)
  if o < 16 * vectorCount then
    (match o % 16 with
    | 0 => lo32 e.addr
    | 4 => hi32 e.addr
    | 8 => e.data.toNat
    | _ => b2n !e.unmasked)
  else if 0x8000 ≤ o && o < 0x8010 then
    ((List.range 32).map fun b => fieldAt (b2n (s.host.pba.contains (8 * (o - 0x8000) + b))) b).foldl (· + ·) 0
  else 0

/-- An aligned 32-bit read of BAR0: the word, and the state after it (R376, R381, R382). (DEDUCED, log 72) -/
def State.readReg (s : State) (o : Nat) : Nat × State :=
  if tileWindows ≤ o && o < tileWindows + 0x1000 * tileCount then
    let t := (o - tileWindows) / 0x1000
    if s.inService t then s.windowRead t (o % 0x1000) else (2 ^ 32 - 1, s.countTileErr)
  else
    match bar0Blocks.find? fun b => decide (b.base ≤ o) && decide (o < b.base + b.size) with
    | some b => (b.read s (o - b.base) % 2 ^ 32, s)
    | none => (0, s)

/-- A read of n bytes of BAR0 by the host: aligned 32 bits, or aligned 64 bits as two reads, low word first; any other access
is an Unsupported Request (R374, R376). -/
def State.bar0Read (s : State) (o n : Nat) : Reply × State :=
  if !s.readable o then s.unsupported
  else if n = 4 && o % 4 = 0 then
    let x := s.readReg o
    (.data (leBytes 4 x.1), x.2)
  else if n = 8 && o % 8 = 0 then
    let x := s.readReg o
    let y := x.2.readReg (o + 4)
    (.data (leBytes 4 x.1 ++ leBytes 4 y.1), y.2)
  else s.unsupported

end Sys2Proof.Machine
end

