-- ==== Sys2Proof/Machine/LinkRx.lean ====
section
/-! DEFINITION. The receiving side of haul roads and Ethernet ports, pairing and feed notices (R413, R414, R417, R419 to R432,
R434 to R441, R484, R561). -/
namespace Sys2Proof.Machine

def msNs : Nat := 10 ^ 6
def usNs : Nat := 1000

/-! ### Entries and ports that fail (R422, R423, R438) -/

/-- Sends of a tile to one of these partners that nothing has answered fail with LINK_FAILED (R302, R422). -/
def Tile.failSends (ks : List Nat) (c : Tile) : Tile :=
  { c with sd := { c.sd with queue := c.sd.queue.map fun i =>
      match i.remote with
      | some (k, _) => if i.running && ks.contains k then i.answerAll (some 3) else i
      | none => i } }

/-- The drain that ships to one of these partners ends (R468). -/
def State.dropDrain (s : State) (ks : List Nat) : State :=
  match s.res.drain with
  | some d => if d.shipping && ks.contains d.partner then s.stopDrain d .notReady 0 0 else s
  | none => s

/-- What is on its way to these partners is lost: sends, contexts and a drain. (DEDUCED, log 76) -/
def State.cutOff (s : State) (ks : List Nat) : State :=
  State.dropDrain { s with
    tiles := s.tiles.map fun p => (p.1, p.2.failSends ks)
    link := { s.link with ctx := ks.foldl (fun m k => NMap.drop m k) s.link.ctx } } ks

/-- Entries in state up on a port; roads are ports 0 to 7 (R411). -/
def State.entriesOn (s : State) (port : Nat) : List Nat := (s.upPartners.filter fun p => p.2.port == port).map (·.1)

/-- Entries go to failed (R422). -/
def State.failEntries (s : State) (ks : List Nat) : State :=
  (ks.foldl (fun s k => s.setPartner k { s.partner k with state := 3 }) s).cutOff ks

/-- Packets of other devices that a port carries on their second hop, sent or waiting (R425). -/
def Road.forwarded (r : Road) : List LinkPacket :=
  (r.replay.filter fun f => f.vc == 3).flatMap (·.packets) ++ (r.waiting.filter fun p => p.1 == 3).map (·.2)

/-- A port fails: nothing that it holds is sent any more, its entries fail, and the devices whose packets it forwarded hear of
it (R422, R423, R425). -/
def State.failPort (s : State) (port : Nat) : State :=
  if port < roadCount then
    let lost := (s.road port).forwarded
    let s := (s.setRoad port { s.road port with replay := [], waiting := [] }).failEntries (s.entriesOn port)
    lost.foldl (fun s k => s.answerInbound (PktHeader.parse k.header) (some 3)) s
  else s.failEntries (s.entriesOn port)

/-! ### Pairing (R413, R414, R484) -/

/-- Handshake unit: the sender, the device it is for, the sender's feed group, hops so far, and whether it answers.
(DESIGN CHOICE, log 77) -/
def handshakeUnit (identity target : Word64) (feed : BitVec 9) (hops : Nat) (answer : Bool) : List Byte :=
  leBytes 8 identity.toNat ++ leBytes 8 target.toNat ++ leBytes 2 feed.toNat ++ leBytes 1 hops ++ leBytes 1 (b2n answer)

/-- A control packet for a road's neighbour, whatever its rank. -/
def State.sendHandshake (s : State) (p : Nat) (unit : List Byte) : State :=
  s.sendOnRoad p 1 ⟨(PktHeader.mk 1 255 s.ownRank 0 4 1 false 0 0 0).pack, [fit 0 64 unit]⟩

/-- A handshake for a device behind an Ethernet port, outside every context. (DESIGN CHOICE, log 77) -/
def State.sendHandshakeTo (s : State) (e : Nat) (a : NetAddr) (unit : List Byte) : State :=
  let k : LinkPacket := ⟨(PktHeader.mk 1 255 s.ownRank 0 4 1 false 0 0 0).pack, [fit 0 64 unit]⟩
  s.emit e (some (s.frameTo e a (EthCtx.init.payload 1 [k])))

/-- Payload rate of an Ethernet port in Mb/s (R434). -/
def EthPort.rateMbps (e : EthPort) : Nat := 800000 / 2 ^ e.mode.toNat

/-- The direct haul-road entry with an identity (R413). -/
def State.directRoadTo (s : State) (identity : Word64) : Option (Nat × Partner) :=
  s.upPartners.find? fun p => p.2.path == 0 && p.2.hops == 1 && p.2.identity == identity

/-- Feed groups that count as shared: both valid and equal, or one not valid (R484). -/
def sharedFeed (a b : BitVec 9) : Bool := !a.getLsbD 8 || !b.getLsbD 8 || a == b

/-- The pairing under way ends with an empty entry. -/
def State.dropPairing (s : State) (pr : Pairing) (st : CmdStatus) (detail : Nat) : State :=
  let s := s.setPartner pr.index Partner.init
  State.complete { s with link := { s.link with pairing := none, ctx := NMap.drop s.link.ctx pr.index } } pr.n st detail 0 false

/-- The answer to the handshake under way: step 3 of R413, with the feed-group rule (R484); after 100 ms there is none. -/
def State.finishPairing (s : State) (pr : Pairing) (feed : BitVec 9) (hops : Nat) : State :=
  let shared := sharedFeed pr.feed feed
  let group := feed.toNat % 256
  if pr.since + 100 * msNs ≤ s.now then s.dropPairing pr .notReady 0
  else if shared && !pr.allowShared then s.dropPairing pr .partnerSharesFeed group
  else
    let p := s.partner pr.index
    let e := s.ethPort (p.port - 8)
    let s := s.setPartner pr.index { p with
      state := 2, hops := if p.path = 0 then hops else 1, feedGroup := BitVec.ofNat 8 group
      flags := if shared then 3 else 0, rateMbps := if p.path = 1 then e.rateMbps else 0 }
    State.complete { s with link := { s.link with pairing := none } } pr.n .ok 0 group false

/-- A handshake arrives on a port: answered when it is for this device, otherwise relayed once (R413). `source` is where it came
from on an Ethernet port, which is where its answer goes. -/
def handshakeReceive (s : State) (p : Nat) (answer : Bool) (identity target : Word64) (feed : BitVec 9) (hops : Nat)
    (source : NetAddr) : State :=
  let relay (s : State) : State :=
    match s.directRoadTo target with
    | some q => s.sendHandshake q.2.port (handshakeUnit identity target feed 2 answer)
    | none => s
  if target = Config.identity then
    if answer then
      match s.link.pairing with
      | some pr =>
        if (s.partner pr.index).identity = identity && (s.partner pr.index).port = p then s.finishPairing pr feed (min 2 hops) else s
      | none => s
    else
      let unit := handshakeUnit Config.identity identity s.link.feedGroup hops true
      if p < roadCount then s.sendHandshake p unit
      else if s.ethUp (p - 8) then s.sendHandshakeTo (p - 8) source unit
      else s
  else if p < roadCount && (hops = 1 || answer) then relay s
  else s

/-- Ranks of the table, below 255 (R413). -/
def State.rankTaken (s : State) (rank : Nat) : Bool :=
  rank < 255 && s.link.partners.any fun p => p.2.state != 0 && p.2.rank == rank

/-- A port of a bench that field mode does not serve (R492). -/
def State.portGated (s : State) (port : Nat) : Bool :=
  match s.pw.fieldBench with
  | some b => (if port < roadCount then roadBench port else ethBench (port - 8)) != b
  | none => false

/-- PAIR (R413, R423, R492). (DEDUCED, log 78) -/
def State.startPair (s : State) (n : Nat) (h : Held) : State :=
  let i := h.field 8 2
  let identity := BitVec.ofNat 64 (h.field 0x10 8)
  let own := identity = Config.identity
  let port := h.field 0x0B 1
  let rank := h.field 0x0C 1
  if (s.partner i).state ≠ 0 then s.complete n .badPacket 8 0 false
  else if s.rankTaken rank then s.complete n .badPacket 0x0C 0 false
  else if own then
    if s.selfEntry.isSome then s.complete n .badPacket 0x10 0 false
    else
      let s := s.setPartner i { Partner.init with
        state := 2, path := 2, rank := rank, extended := BitVec.ofNat 8 port, identity := identity
        feedGroup := s.link.feedGroup.setWidth 8 }
      s.complete n .ok 0 (s.link.feedGroup.toNat % 256) false
  else if (h.field 0x0A 1 = 0 && s.pw.bootSel = 8) || s.portGated port then s.complete n .notReady 0 0 false
  else
    let s := s.setPartner i { Partner.init with
      state := 1, path := h.field 0x0A 1, port := port, rank := rank, identity := identity
      ip := BitVec.ofNat 128 (h.field 0x18 16), udpPort := h.field 0x28 2 }
    let s := { s with link := { s.link with pairing := some ⟨n, i, h.flag 4, s.now, s.link.feedGroup⟩, ctx := NMap.drop s.link.ctx i } }
    let s := s.setRunning n
    let unit := handshakeUnit Config.identity identity s.link.feedGroup 1 false
    if h.field 0x0A 1 = 1 then (if s.ethUp (port - 8) then s.sendHandshakeTo (port - 8) (s.addressOf i) unit else s)
    else if (s.road port).state == .up then s.sendHandshake port unit
    else s

def execPair (n : Nat) (s : State) : Out :=
  if s.step.isSome || s.link.pairing.isSome then .next s else startHeld 0x07 n (fun s h => s.startPair n h) s

/-- PAIR_ANSWER_TIMEOUT: no answer within 100 ms (R413). -/
def execPairAnswerTimeout (s : State) : Out :=
  match s.link.pairing with
  | some pr => if s.now < pr.since + 100 * msNs then .next s else .next (s.dropPairing pr .notReady 0)
  | none => .next s

/-- The entry becomes empty (R414, R441). -/
def State.emptyEntry (s : State) (i : Nat) : State := (s.setPartner i Partner.init).cutOff [i]

/-- UNPAIR: the entry becomes empty, and that of the drain partner takes replay protection with it (R414, R468). -/
def State.unpair (s : State) (i : Nat) : State :=
  let s := s.emptyEntry i
  if s.res.partner.toNat = i then { s with res := { s.res with protect := false } } else s

def execUnpair (n : Nat) (s : State) : Out :=
  if s.step.isSome then .next s
  else startHeld 0x08 n (fun s h => (s.unpair (h.field 8 2)).complete n .ok 0 0 false) s

def execPairingHandshakeReceive (p : Nat) (answer : Bool) (identity target : Word64) (feed : BitVec 9)
    (via : HandshakeVia) (s : State) : Out :=
  if 12 ≤ p then .fault .noSuchUnit else .next (handshakeReceive s p answer identity target feed via.hops via.source)

/-! ### The expert path (R441) -/

/-- An entry from the 64 bytes of R411. -/
def Partner.parse (bs : List Byte) : Partner :=
  let f := leAt bs
  { state := f 2 1, path := f 3 1, port := f 4 1, hops := f 5 1, rank := f 6 1, feedGroup := BitVec.ofNat 8 (f 7 1)
    flags := BitVec.ofNat 8 (f 8 1), extended := BitVec.ofNat 8 (f 9 1), udpPort := f 0x0A 2
    identity := BitVec.ofNat 64 (f 0x10 8), ip := BitVec.ofNat 128 (f 0x18 16), rateMbps := f 0x28 4, retransmits := f 0x2C 4 }

/-- PARTNER_COMMIT: the PARTNER_DATA words written since the selection replace those of the entry. (DEDUCED, log 81) -/
def partnerCommit (s : State) : State :=
  let i := s.link.select.toNat
  let old := s.partner i
  let bytes := s.link.staged.foldl (fun bs w => patch bs (4 * w.1) (leBytes 4 w.2.toNat)) (old.bytes i)
  let p := Partner.parse bytes
  let s := s.setPartner i p
  let s := { s with link := { s.link with staged := [] } }
  if p.state = old.state && p.path = old.path && p.port = old.port && p.identity = old.identity then s else s.cutOff [i]

def execPartnerCommit (s : State) : Out := .next (if s.pw.diagReady then partnerCommit s else s)
def execPartnerEmpty (s : State) : Out := .next (if s.pw.diagReady then s.emptyEntry s.link.select.toNat else s)

/-! ### Feed notices (R432) -/

/-- The unit of a notice: identity, feed group, kind, device time. -/
def feedUnit (identity : Word64) (feed : Byte) (time : Nat) (recovered : Bool) : List Byte :=
  leBytes 8 identity.toNat ++ [feed] ++ leBytes 1 (b2n recovered) ++ leBytes 6 0 ++ leBytes 8 time

/-- Firmware tells every partner in state up. -/
def State.sendNotices (s : State) (recovered : Bool) : State :=
  s.upPartners.foldl (fun s p =>
    s.sendControl p.1 3 0 (feedUnit Config.identity (s.link.feedGroup.setWidth 8) s.now recovered)) s

/-- FEED_WARNING_RECEIVE. -/
def feedWarning (s : State) (identity : Word64) (feed : Byte) (time : Word64) (recovered : Bool) : State :=
  match s.upPartners.find? fun p => p.2.identity == identity with
  | some (i, p) =>
    (s.setPartner i { p with flags := p.flags ||| 4 }).raise 5 i (feedUnit identity feed time.toNat recovered)
  | none => s.dropFrame

def execFeedWarningReceive (identity : Word64) (feed : Byte) (time : Word64) (recovered : Bool) (s : State) : Out :=
  .next (feedWarning s identity feed time recovered)

/-! ### Packets that a port brings in (R414, R419, R420, R425, R427) -/

/-- An acknowledgement or error response reaches the device that issued the send (R419, R427, R428). -/
def State.takeAnswer (s : State) (fails : Bool) (unit : List Byte) : State :=
  let t := leAt unit 0 2
  let seq := leAt unit 2 2
  let code := if fails then some (BitVec.ofNat 3 (leAt unit 4 1)) else none
  if tileCount ≤ t then s
  else s.modTile t fun c => { c with sd := { c.sd with queue := c.sd.queue.map fun i =>
    if i.running && i.remote.isSome && i.seq.toNat == seq then i.answerAll code else i } }

/-- A VC1 message for this device (R419, R429, R432, R483). -/
def State.takeControl (s : State) (port kind : Nat) (unit : List Byte) (source : NetAddr) : State :=
  match kind with
  | 0 => s.takeAnswer false unit
  | 1 => s.takeAnswer true unit
  | 2 => if leAt unit 1 1 / 16 % 4 = 3 then repairFrameReceive s unit else bellFrameReceive s unit
  | 3 => feedWarning s (BitVec.ofNat 64 (leAt unit 0 8)) (BitVec.ofNat 8 (leAt unit 8 1)) (BitVec.ofNat 64 (leAt unit 16 8))
      (natBit (leAt unit 9 1) 0)
  | 4 => handshakeReceive s port (natBit (leAt unit 19 1) 0) (BitVec.ofNat 64 (leAt unit 0 8)) (BitVec.ofNat 64 (leAt unit 8 8))
      (BitVec.ofNat 9 (leAt unit 16 2)) (leAt unit 18 1) source
  | _ => s

/-- The entry in state up that a packet's sender has on a kind of path. -/
def State.senderEntry (s : State) (port rank : Nat) : Option Nat :=
  (s.upPartners.find? fun p => p.2.rank == rank && p.2.path == (if port < roadCount then 0 else 1)
    && (rank != 255 || p.2.port == port)).map (·.1)

/-- A packet goes on over the own direct entry for its rank; without one the source of a haul
packet hears of it (R425). -/
def State.forwardPacket (s : State) (vc : Nat) (h : PktHeader) (k : LinkPacket) : State :=
  match s.directRoad h.destRank with
  | some q => s.sendOnRoad q.2.port vc { k with header := ({ h with vc := vc }).pack }
  | none =>
    let s := { s with link := { s.link with fwdErrors := BitVec.ofNat 32 (satInc 32 s.link.fwdErrors.toNat 1) } }
    if vc = 1 then s else s.answerInbound h (some 3)

/-- What a packet is that stays in its receive buffer until its units have landed: a haul packet for this device. -/
def State.keepsPacket (s : State) (vc : Nat) (k : LinkPacket) : Bool :=
  (vc == 0 || vc == 3) && (PktHeader.parse k.header).destRank == s.ownRank

/-- Takes one packet off a port. A haul packet for this device waits for its ring; `last` says that its flit's buffer goes
with it. (DEDUCED, log 83) -/
def State.takePacket (s : State) (port vc : Nat) (last : Bool) (source : NetAddr) (k : LinkPacket) : State :=
  let h := PktHeader.parse k.header
  let mine := h.destRank == s.ownRank || h.destRank == 255
  if vc = 1 then
    if h.destRing != 4 && (s.senderEntry port h.srcRank).isNone then s.dropFrame
    else if mine then s.takeControl port h.destRing (k.units.headD []) source
    else if port < roadCount then s.forwardPacket 1 h k
    else s.dropFrame
  else if vc = 2 then (if (s.senderEntry port h.srcRank).isNone then s.dropFrame else s)
  else if (s.senderEntry port h.srcRank).isNone then s.dropFrame
  else if s.keepsPacket vc k then
    let s := { s with link := { s.link with inbound :=
      s.link.inbound ++ [Inbound.mk port vc k 0 last (s.senderEntry port h.srcRank)] } }
    if port < roadCount then s
    else s.setEth (port - 8) ((s.ethPort (port - 8)).fillTo ((s.ethPort (port - 8)).rxFill + slotBytes k))
  else if vc = 0 && port < roadCount then s.forwardPacket 3 h k
  else s.dropFrame

/-- Takes a list of packets; a buffer goes with the last of them that stays. -/
def takePackets (port vc : Nat) (all : Bool) : List LinkPacket → State → State
  | [], s => s
  | k :: ks, s => takePackets port vc all ks (s.takePacket port vc (all || !(ks.any (s.keepsPacket vc))) ⟨0, 0⟩ k)

/-! ### Link flits (R417, R420 to R422) -/

/-- Packet of slot i of a flit. -/
def flitSlot (f : List Byte) (i : Nat) : LinkPacket :=
  let o := 8 + 264 * i
  let h := BitVec.ofNat 64 (leAt f o 8)
  ⟨h, (List.range (PktHeader.parse h).units).map fun u => (f.drop (o + 8 + 64 * u)).take 64⟩

/-- Flits up to ack_seq leave the replay buffer (R421). -/
def dropAcked (ack : Nat) (l : List SentFlit) : List SentFlit :=
  if l.any fun x => x.seq == ack then (l.dropWhile fun x => x.seq != ack).drop 1 else l

/-- What a good flit's header tells the sender: the acknowledgement, a retry, credits (R420, R421). -/
def Road.takeHeader (r : Road) (now w : Nat) : Road :=
  let replay := dropAcked (bitsAt w 40 12) r.replay
  let moved := replay.length != r.replay.length
  let retry := natBit w 39
  let vc := bitsAt w 34 2
  { r with
    replay := replay
    retries := (if moved then 0 else r.retries) + b2n retry
    retryCount := if retry then r.retryCount + BitVec.ofNat 32 replay.length else r.retryCount
    credits := NMap.set 0 r.credits vc (NMap.get 0 r.credits vc + bitsAt w 26 8)
    lastValid := now }

/-- The channel of a flit: that of its first packet. -/
def flitVc (ps : List LinkPacket) : Nat := ((ps.head?).map fun k => (PktHeader.parse k.header).vc).getD 0

/-- LINK_FLIT_RECEIVE. A flit without slots carries no packet and takes no sequence number. (DEDUCED, log 75) -/
def flitReceive (s : State) (p : Nat) (f : List Byte) : State :=
  let r := s.road p
  if !(r.state == .up) || !s.link.srefclk || f.length ≠ flitBytes then s
  else if (crc32 (f.take 0x218)).toNat ≠ leAt f 0x218 4 then (s.setRoad p { r with retrying := true }).replyRoad p true
  else
    let w := leAt f 0 8
    let slots := min 2 (bitsAt w 24 2)
    if slots ≠ 0 && bitsAt w 52 12 ≠ r.rxSeq then s.setRoad p { r with lastValid := s.now }
    else
      let r := r.takeHeader s.now w
      if slots = 0 then (s.setRoad p r).replyRoad p (natBit w 39)
      else
        let ps := (List.range slots).map (flitSlot f)
        let vc := flitVc ps
        let kept := ps.any (s.keepsPacket vc)
        let r := { r with rxSeq := (r.rxSeq + 1) % 4096, retrying := false
                          owed := if kept then r.owed else NMap.set 0 r.owed vc (NMap.get 0 r.owed vc + 1) }
        (takePackets p vc false ps (s.setRoad p r)).replyRoad p true

/-- A command that names a haul road. -/
def onRoad (p : Nat) (f : State → State) (s : State) : Out := if roadCount ≤ p then .fault .noSuchUnit else .next (f s)

def execLinkFlitReceive (p : Nat) (flit : List Byte) (s : State) : Out := onRoad p (fun s => flitReceive s p flit) s

/-- The port goes down and retrains (R422). -/
def State.roadDown (s : State) (p : Nat) : State :=
  s.setRoad p { s.road p with state := .down, lanes := 0, downSince := s.now }

/-- LINK_RETRY_LIMIT (R422). -/
def execLinkRetryLimit (p : Nat) (s : State) : Out :=
  onRoad p (fun s => if (s.road p).state == .up && 8 ≤ (s.road p).retries then s.roadDown p else s) s

/-- LINK_SILENCE_TIMEOUT (R422). -/
def execLinkSilenceTimeout (p : Nat) (s : State) : Out :=
  onRoad p (fun s => if (s.road p).state == .up && (s.road p).lastValid + 100 * usNs ≤ s.now then s.roadDown p else s) s

/-- A port that has trained starts afresh, or goes on with its replay buffer when it was down (R416, R422). -/
def Road.trained (r : Road) (now : Nat) (lanes : BitVec 2) : Road :=
  match r.state with
  | .down => { r with state := .up, lanes := lanes, retries := 0, retrying := false, lastValid := now }
  | _ => { Road.init with state := .up, lanes := lanes, credits := fullCredits, retryCount := r.retryCount, lastValid := now }

/-- LINK_RETRAINED: within 10 ms, on all lanes or on one half (R416, R422). -/
def linkRetrained (s : State) (p : Nat) (lanes : BitVec 2) : State :=
  let r := s.road p
  let may := match r.state with | .down => decide (s.now < r.downSince + 10 * msNs) | .training => true | _ => false
  if may && lanes ≠ 0 && s.link.srefclk then (s.setRoad p (r.trained s.now lanes)).pumpRoad p else s

def execLinkRetrained (p : Nat) (lanes : BitVec 2) (s : State) : Out := onRoad p (fun s => linkRetrained s p lanes) s

/-- LINK_FAILED: not back within 10 ms (R422). -/
def linkFailed (s : State) (p : Nat) : State :=
  let r := s.road p
  let late := decide (r.downSince + 10 * msNs ≤ s.now)
  match r.state with
  | .down => if late then (s.setRoad p { r with state := .failed }).failPort p else s
  | .disabled => if late && !s.link.srefclk then s.failPort p else s
  | _ => s

def execLinkFailed (p : Nat) (s : State) : Out := onRoad p (fun s => linkFailed s p) s

/-! ### Datagrams (R414, R437 to R440) -/

/-- The packets of a datagram's slots; the fuel is their number. -/
def parseSlots : Nat → List Byte → List LinkPacket
  | 0, _ => []
  | n + 1, bs =>
    let h := BitVec.ofNat 64 (leAt bs 0 8)
    let u := (PktHeader.parse h).units
    if bs.length < 8 + 64 * u then []
    else ⟨h, (List.range u).map fun i => (bs.drop (8 + 64 * i)).take 64⟩ :: parseSlots n (bs.drop (8 + 64 * u))

/-- Distance from a to b in sequence numbers. -/
def psnGap (a b : Nat) : Nat := (b + 2 ^ 24 - a) % 2 ^ 24

/-- Acknowledgement and sack of a datagram (R437, R438). -/
def EthCtx.takeAck (c : EthCtx) (ack sack : Nat) : EthCtx :=
  let left := c.unacked.filter fun d => !decide (psnGap d.psn ack < 2 ^ 23)
  let marked := left.map fun d =>
    let g := psnGap ack d.psn
    if 1 ≤ g && g ≤ 32 && natBit sack (g - 1) then { d with sacked := true } else d
  { c with unacked := marked, timeouts := if left.length = c.unacked.length then c.timeouts else 0 }

/-- Each acknowledgement with ece cuts the rate to 7/8, at most once per 50 µs and not below 1 Gb/s (R440). -/
def State.takeEce (s : State) (i : Nat) : State :=
  let c := s.ethCtx i
  let p := s.partner i
  let soon := match c.lastCut with | some t => decide (s.now < t + 50 * usNs) | none => false
  if soon then s.setCtx i { c with rateSince := s.now }
  else (s.setPartner i { p with rateMbps := max 1000 (p.rateMbps * 7 / 8) }).setCtx i { c with lastCut := some s.now, rateSince := s.now }

/-- Delivers datagrams in order as long as the next one is there; the fuel is the number kept early (R438). -/
def deliverInOrder (port i : Nat) : Nat → State → State
  | 0, s => s
  | n + 1, s =>
    let c := s.ethCtx i
    let next := (c.rxPsn + 1) % 2 ^ 24
    match c.early.find? fun d => d.psn == next with
    | some d =>
      let s := s.setCtx i { c with rxPsn := next, early := c.early.filter fun x => x.psn != next }
      deliverInOrder port i n (d.packets.foldl (fun s k => s.takePacket port (PktHeader.parse k.header).vc true (s.addressOf i) k) s)
    | none => s

/-- A datagram that only acknowledges leaves a context (R437, R438). -/
def State.sendAck (s : State) (i : Nat) : State :=
  let c := s.ethCtx i
  let e := s.portOf i
  (s.setCtx i { c with sinceAck := 0, ece := false, acksSent := c.acksSent + 1 }).emit e
    (some (s.frameTo e (s.addressOf i) (c.payload 3 [])))

/-- A datagram that carries slots (R438). -/
def State.takeData (s : State) (port i psn kind : Nat) (ps : List LinkPacket) : State :=
  let c := s.ethCtx i
  let g := psnGap c.rxPsn psn
  let c := { c with ackFrom := if c.sinceAck = 0 then s.now else c.ackFrom, sinceAck := c.sinceAck + 1 }
  let new := 1 ≤ g && g ≤ windowSize && !(c.early.any fun d => d.psn == psn)
  let c := if new then { c with early := c.early ++ [Datagram.mk psn kind ps s.now false none] } else c
  let s := deliverInOrder port i c.early.length (s.setCtx i c)
  if 8 ≤ (s.ethCtx i).sinceAck then s.sendAck i else s

/-- A frame that is not for the port is dropped and counted (R435). -/
def State.dropEth (s : State) (e : Nat) : State := s.setEth e { s.ethPort e with drops := (s.ethPort e).drops + 1 }

/-- A frame is transport for the port's address and the device's UDP port (R435, R437). (DEDUCED, log 84) -/
def State.forPort (s : State) (e : Nat) (f : EthFrame) : Bool :=
  let x := s.ethPort e
  f.destMac == Config.mac e && ((f.tag.map (·.1)).getD 0) == x.vlan && (f.dest == mapped x.ipv4 || f.dest == x.ipv6)
    && (f.udp.map (·.2)) == some s.link.udpPort && decide (frameBytes f ≤ 9216)
    && decide (32 ≤ f.payload.length) && leAt f.payload 0 1 == 1

/-- DATAGRAM_RECEIVE. (DEDUCED, log 79) -/
def datagramReceive (s : State) (e : Nat) (f : EthFrame) : State :=
  let d := f.payload
  if !s.ethUp e then s
  else if !s.forPort e f then s.dropEth e
  else
    let ps := parseSlots (leAt d 2 2) (d.drop 32)
    let greets := ps.filter fun k => (PktHeader.parse k.header).vc == 1 && (PktHeader.parse k.header).destRing == 4
    if !greets.isEmpty then
      -- a pairing handshake may come from a device that has no entry yet, and stands outside every context (R413)
      greets.foldl (fun s k => s.takePacket (8 + e) 1 true ⟨f.src, (f.udp.map (·.1)).getD 0⟩ k) s
    else
    match s.link.partners.find? fun p => (p.2.state == 2 || p.2.state == 1) && p.2.path == 1 && p.2.port == 8 + e
        && p.2.identity.toNat == leAt d 0x10 8 with
    | none => s.dropFrame
    | some (i, _) =>
      let c := s.ethCtx i
      let s := s.setCtx i ({ c with ece := c.ece || f.ecn == 3 }.takeAck (leAt d 8 4 % 2 ^ 24) (leAt d 12 4))
      let s := if natBit (leAt d 8 4) 31 then s.takeEce i else s
      let s := if leAt d 1 1 = 3 then s
        else s.takeData (8 + e) i (leAt d 4 4 % 2 ^ 24) (leAt d 1 1) ps
      s.pumpCtx i

/-- A command that names an Ethernet port. -/
def onEth (e : Nat) (f : State → State) (s : State) : Out := if ethCount ≤ e then .fault .noSuchUnit else .next (f s)
/-- A command that names a partner-table entry. -/
def onPartner (i : Nat) (f : State → State) (s : State) : Out := if 4096 ≤ i then .fault .noSuchUnit else .next (f s)

/-- A frame at its arrival: a switch on its way may have marked it CE (R440). -/
def arrived (ce : Bool) (f : EthFrame) : EthFrame := { f with ecn := if ce then 3 else f.ecn }

def execDatagramReceive (e : Nat) (ce : Bool) (frame : EthFrame) (s : State) : Out :=
  onEth e (fun s => datagramReceive s e (arrived ce frame)) s

/-- RETRANSMIT_TIMEOUT: 100 µs, doubled with each timeout of the oldest datagram in a row; at the eighth the context fails
(R438). (DEDUCED, log 80) -/
def retransmit (s : State) (i psn : Nat) : State :=
  let c := s.ethCtx i
  match c.unacked.find? fun d => d.psn == psn with
  | some d =>
    if d.sacked || s.now < d.sentAt + 100 * usNs * 2 ^ c.timeouts then s
    else
      let oldest := (c.unacked.find? fun x => !x.sacked).any fun x => x.psn == psn
      let n := c.timeouts + b2n oldest
      let p := s.partner i
      let s := s.setPartner i { p with retransmits := satInc 32 p.retransmits 1 }
      let s := s.setCtx i { c with
        timeouts := n, unacked := c.unacked.map fun x => if x.psn = psn then { x with sentAt := s.now } else x }
      if 8 ≤ n then s.failEntries [i] else s.emit (s.portOf i) d.frame
  | none => s

def execRetransmitTimeout (partner psn : Nat) (s : State) : Out := onPartner partner (fun s => retransmit s partner psn) s

/-- ACK_TIMER: 10 µs after the first datagram that nothing has acknowledged (R438). -/
def execAckTimer (partner : Nat) (s : State) : Out :=
  onPartner partner (fun s =>
    let c := s.ethCtx partner
    if c.sinceAck ≠ 0 && c.ackFrom + 10 * usNs ≤ s.now then s.sendAck partner else s) s

/-- RATE_TIMER: 50 µs without ece (R440). -/
def execRateTimer (partner : Nat) (s : State) : Out :=
  onPartner partner (fun s =>
    let c := s.ethCtx partner
    let p := s.partner partner
    if p.state = 2 && p.path = 1 && c.rateSince + 50 * usNs ≤ s.now then
      (s.setPartner partner { p with rateMbps := min (s.ethPort (p.port - 8)).rateMbps (p.rateMbps + 5000) }).setCtx partner
        { c with rateSince := s.now }
    else s) s

/-- Runs the senders of every context of a port. -/
def State.pumpEth (s : State) (e : Nat) : State := (s.entriesOn (8 + e)).foldl State.pumpCtx s

/-- PAUSE_FRAME_RECEIVE: quanta of 512 bit times; none lets the priority go on (R436). -/
def pauseFrame (s : State) (e priority : Nat) (quanta : BitVec 16) : State :=
  let x := s.ethPort e
  if !s.ethUp e || !x.pfcEnable || priority ≠ s.link.pfcPriority.toNat then s
  else if quanta = 0 then (s.setEth e { x with paused := 0 }).pumpEth e
  else s.setEth e { x with paused := s.now + ceilDiv (quanta.toNat * 512 * 1000) x.rateMbps }

def execPauseFrameReceive (e priority : Nat) (quanta : BitVec 16) (s : State) : Out :=
  onEth e (fun s => pauseFrame s e priority quanta) s

/-- A pause that has run out ends. -/
def State.pauseOver (s : State) (e : Nat) : State :=
  let x := s.ethPort e
  if x.paused ≠ 0 && x.paused ≤ s.now then (s.setEth e { x with paused := 0 }).pumpEth e else s

/-- The entries of a port that Midnight switched off and that has not returned within 10 ms go to failed (R519). -/
def State.awaitOver (s : State) (e : Nat) : State :=
  let x := s.ethPort e
  match x.awaited with
  | some t => if t + 10 * msNs ≤ s.now then (s.setEth e { x with awaited := none }).failPort (8 + e) else s
  | none => s

/-- One full-clock cycle, and what then comes due: probes that were all answered (R292), pauses that have run out (R436), ports
that have not returned (R519). -/
def State.passCycle (s : State) : State :=
  let s := (List.range 8).foldl State.probesAnswered s.tickOnce
  (List.range ethCount).foldl State.awaitOver ((List.range ethCount).foldl State.pauseOver s)

/-- ARP_ND_REQUEST: answered for the port's own address, otherwise dropped (R435). -/
def arpNd (s : State) (e : Nat) (v6 : Bool) (address : BitVec 128) : State :=
  let x := s.ethPort e
  if !s.ethUp e then s
  else if (if v6 then address = x.ipv6 else address.setWidth 32 = x.ipv4) then s.setEth e { x with answers := x.answers + 1 }
  else s.dropEth e

def execArpNdRequest (e : Nat) (v6 : Bool) (address : BitVec 128) (s : State) : Out := onEth e (fun s => arpNd s e v6 address) s

/-! ### Ports that come and go (R434, R561) -/

/-- A port under block reset (R423). -/
def State.portInReset (s : State) (port : Nat) : Bool := s.pw.blockResets.any fun b => b.running && b.kind == 3 && b.index == port

/-- The controller groups are in self-refresh: device-scope Midnight, with every port off (R514, R518). -/
def State.deviceAsleep (s : State) : Bool := s.mm.groups.any fun p => p.2.state == .selfRefresh

/-- ETHERNET_LINK_CHANGE. -/
def ethernetLink (s : State) (e : Nat) (up : Bool) (mode : BitVec 2) : State :=
  let x := s.ethPort e
  if up then
    if x.enable && s.link.srefclk && !s.portGated (8 + e) && !s.portInReset (8 + e) && !s.deviceAsleep && mode ≠ 3 then
      (s.setEth e { x with state := 2, mode := mode, awaited := none }).pumpEth e
    else s
  else s.setEth e { x with state := 0 }

def execEthernetLinkChange (e : Nat) (up : Bool) (mode : BitVec 2) (s : State) : Out := onEth e (fun s => ethernetLink s e up mode) s

/-- SREFCLK_CHANGE: without the clock every port reads disabled; with it the ports train again (R561). (DEDUCED, log 82) -/
def srefclkChange (s : State) (present : Bool) : State :=
  if present = s.link.srefclk then s
  else if present then
    let on (s : State) (p : Nat) : State :=
      let r := s.road p
      if r.state != .disabled || s.pw.bootSel = 8 || s.portGated p || s.deviceAsleep then s
      else s.setRoad p { r with state := if (s.entriesOn p).isEmpty then .training else .down }
    let s := (List.range roadCount).foldl on { s with link := { s.link with srefclk := true } }
    (List.range ethCount).foldl (fun s e =>
      let x := s.ethPort e
      let trains := x.enable && !s.portGated (8 + e) && !s.portInReset (8 + e) && !s.deviceAsleep
      s.setEth e { x with state := if trains then 1 else 0 }) s
  else
    let off (s : State) (p : Nat) : State :=
      let r := s.road p
      if r.state == .blockReset then s
      else s.setRoad p { r with
        state := .disabled, lanes := 0, downSince := if r.state == .down then r.downSince else s.now }
    let s := (List.range roadCount).foldl off { s with link := { s.link with srefclk := false } }
    (List.range ethCount).foldl (fun s e => s.setEth e { s.ethPort e with state := 0 }) s

def execSrefclkChange (present : Bool) (s : State) : Out := .next (srefclkChange s present)

end Sys2Proof.Machine
end

