-- ==== Sys2Proof/Machine/MainRows.lean ====
section
/-! DEFINITION. Line accesses at the memory controllers, refresh, scrub and retraining (R447, R450 to R459), and the main-memory
aperture (R374, R385, R461). -/
namespace Sys2Proof.Machine

def channelCount : Nat := 128

/-- MAIN_MEMORY_ACCESS: one line read for a consumer, whose own command takes the answer, or the part of one line that `bytes`
covers written; a partial write merges (R447, R452, R454). -/
def lineAccess (s : State) (a : Nat) (bytes : Option (List Byte)) (consumer : BitVec 4) (c : LineCheck) : State :=
  if !s.inMain a 1 || s.memIsolated a then s
  else
    let l := a / 64
    let s := s.fetchChecks a 1 false
    match bytes with
    | none =>
      let r := s.serveLine consumer l c
      if consumer.toNat < 7 then
        { r.1 with mm := { r.1.mm with served := NMap.put r.1.mm.served (16 * l + consumer.toNat) r.2 } }
      else r.1
    | some bs =>
      let bs := bs.take (64 - a % 64)
      if bs.length = 64 then s.writePiece a bs
      else
        match s.serveLine 6 l c with
        | (s, some d) => s.writePiece (64 * l) (patch d (a % 64) bs)
        | (s, none) => s

/-- (DEDUCED, log 86) -/
def execMainMemoryAccess (addr : Nat) (bytes : Option (List Byte)) (consumer : BitVec 4) (check : LineCheck) (s : State) : Out :=
  .next (lineAccess s addr bytes consumer check)

/-- A command that names a channel. -/
def onChannel (c : Nat) (f : State → State) (s : State) : Out := if channelCount ≤ c then .fault .noSuchUnit else .next (f s)

/-- The channel's group is in service, and the channel trained. -/
def State.channelUp (s : State) (c : Nat) : Bool := (s.memGroup (c / 4)).state == .service && !s.mm.chanFail.contains c

/-- DRAM_REFRESH: one refresh of a bank, at the rate that MR4 of the package's hottest die gives; no content changes (R445, R457,
R464). (DESIGN CHOICE, log 91) -/
def execDramRefresh (cycle : RefreshCycle) (s : State) : Out :=
  onChannel cycle.channel (fun s =>
    if s.channelUp cycle.channel then
      let k := 64 * cycle.channel + cycle.bank % 64
      { s with mm := { s.mm with
        refreshes := NMap.set 0 s.mm.refreshes k (NMap.get 0 s.mm.refreshes k + 1)
        groups := NMap.set MemGroup.init s.mm.groups (cycle.channel / 4)
          { s.memGroup (cycle.channel / 4) with refreshRate := cycle.rate } } }
    else s) s

/-- PATROL_SCRUB: one data line, in checked mode (R456). -/
def patrolScrub (s : State) (a : Nat) (c : LineCheck) : State :=
  if s.mm.cur.unchecked || !s.inMain a 1 || s.memIsolated a then s
  else
    let s := ((s.fetchChecks a 1 false).serveLine 7 (a / 64) c).1
    { s with mm := { s.mm with scrubPos := NMap.set 0 s.mm.scrubPos (s.channel a).1 (a / 64) } }

def execPatrolScrub (addr : Nat) (check : LineCheck) (s : State) : Out := .next (patrolScrub s addr check)

/-- CHANNEL_RETRAIN: results are unchanged (R459). -/
def execChannelRetrain (channel : Nat) (s : State) : Out :=
  onChannel channel (fun s =>
    if s.channelUp channel then { s with mm := { s.mm with retrained := NMap.set 0 s.mm.retrained channel s.now } } else s) s

/-! ### BAR2 (R374, R385, R461) -/

def State.bar2Size (s : State) : Nat := 2 ^ s.host.bar2Log2

/-- What an access through the aperture reaches: none before diagnostics, in D3hot, and past the aperture's end. -/
def State.bar2Addr (s : State) (o n : Nat) : Option Nat :=
  if s.pw.diagReady && !s.host.d3hot && o + n ≤ s.bar2Size then some (s.host.bar2Base.toNat + o) else none

/-- (DESIGN CHOICE, log 9) -/
def State.setReply (s : State) (r : Reply) : State := { s with host := { s.host with reply := r } }

/-- BAR2_READ. (DEDUCED, log 90) -/
def bar2Read (s : State) (o n : Nat) : State :=
  match s.bar2Addr o n with
  | none => (s.logAer .unsupported).setReply .unsupported
  | some a =>
    match s.mainRead 3 a n with
    | (s, .ok bs) => s.setReply (.data bs)
    | (s, .uncorrectable _) => (s.logAer .completerAbort).setReply .abort
    | (s, _) => (s.logAer .unsupported).setReply .unsupported

def execBar2Read (offset length : Nat) (s : State) : Out := .next (bar2Read s offset length)

/-- A write that is dropped, logged as an AER non-fatal error (R385, R454). (DEDUCED, log 90) -/
def State.aerDrop (s : State) : State :=
  { s with host := { s.host with aerDrops := s.host.aerDrops + 1 } }.logAer .unsupported

/-- BAR2_WRITE. -/
def bar2Write (s : State) (o : Nat) (bs : List Byte) : State :=
  match s.bar2Addr o bs.length with
  | none => s.aerDrop
  | some a =>
    match s.mainWrite a bs with
    | (s, .ok _) => s
    | (s, _) => s.aerDrop

def execBar2Write (offset : Nat) (bytes : List Byte) (s : State) : Out := .next (bar2Write s offset bytes)

end Sys2Proof.Machine
end

