-- ==== Sys2Proof/Machine/Secure.lean ====
section
/-! DEFINITION. Firmware images, banks, measurements and the attestation key (R534 to R538, R541 to R545). -/
namespace Sys2Proof.Machine

/-! ### Firmware images (R535, R536) -/

/-- "YZ1FWIM1". -/
def fwMagic : List Byte := [0x59, 0x5A, 0x31, 0x46, 0x57, 0x49, 0x4D, 0x31]
def sigBytes : Nat := 29792
def bankBytes : Nat := 2 ^ 23

/-- body_length of an image, and the length of the image that has it. -/
def fwBody (b : List Byte) : Nat := leAt b 0x18 8
def fwLength (body : Nat) : Nat := 256 + body + sigBytes

/-- body_length as R535 admits it. -/
def fwBodyOk (body : Nat) : Bool := body % 64 = 0 && 64 ≤ body && body ≤ 7 * 2 ^ 20

/-- SHAKE256 of a public key, first 64 bytes. -/
def keyHashOf (pk : List Byte) : List Byte := shake256 pk 64
def keyHash : List Byte := leBytes 64 Config.keyHash.toNat

/-- Header fields that break R535 or R536, with their offsets. -/
def fwFaults (counter : Nat) (b : List Byte) : List (Nat × Bool) :=
  let f := leAt b
  [(0x000, b.take 8 ≠ fwMagic), (0x008, f 8 2 ≠ 1), (0x00A, f 0x0A 2 ≠ 0), (0x00C, 64 < f 0x0C 4 || f 0x0C 4 < counter),
   (0x014, f 0x14 4 ≠ 0), (0x018, !fwBodyOk (fwBody b)), (0x020, keyHashOf ((b.drop 0x20).take 64) ≠ keyHash),
   (0x060, f 0x60 160 ≠ 0)]

/-- The signature of an image verifies (R535). -/
def fwSigned (b : List Byte) : Bool :=
  let n := 256 + fwBody b
  Config.slhVerify256s ((b.drop 0x20).take 64) (b.take n) ((b.drop n).take sigBytes)

/-- A bank holds a valid image (R536). -/
def bankValid (counter : Nat) (b : List Byte) : Bool := (firstFault (fwFaults counter b)).isNone && fwSigned b

def Security.bank (x : Security) (south : Bool) : List Byte := if south then x.bankB else x.bankA
def Security.setBank (x : Security) (south : Bool) (b : List Byte) : Security :=
  if south then { x with bankB := b } else { x with bankA := b }

/-- The check of both banks after a D6 and after an update: the counter rises to the lower of their security versions (R538). -/
def Security.rollbackCheck (x : Security) : Security :=
  let a := bankValid x.counter x.bankA
  let b := bankValid x.counter x.bankB
  let v := min (leAt x.bankA 0x0C 4) (leAt x.bankB 0x0C 4)
  { x with aValid := a, bValid := b, rollbackChecked := true, counter := if a && b then max x.counter v else x.counter }

/-! ### Measurements and the key (R541 to R543) -/

/-- "YZ1-ATK". -/
def atkTag : List Byte := [0x59, 0x5A, 0x31, 0x2D, 0x41, 0x54, 0x4B]

/-- SK.seed, SK.prf and PK.seed (R543). -/
def atkSeeds : List Byte := shake256 (leBytes 32 Config.deviceSecret.toNat ++ atkTag) 96

/-- Slot 3: key hash, counter, identity and grade (R541). (DEDUCED, log 116) -/
def fuseMeasure (counter : Nat) : List Byte :=
  shake32 (keyHash ++ leBytes 8 counter ++ leBytes 8 Config.identity.toNat ++ [gradeByte])

/-- Firmware boots from a bank: what D3 sets (R537, R541 to R543, R549 to R552). -/
def Security.boot (x : Security) (south fallback recovery : Bool) : Security :=
  let b := x.bank south
  let slots := [(0, shake32 Config.bootRom), (1, shake32 (b.take (fwLength (fwBody b)))), (3, fuseMeasure x.counter), (4, List.replicate 32 0),
    (5, List.replicate 32 0), (6, List.replicate 32 0)]
  { x with
    bootBank := south, fallback := fallback, recovery := recovery, debugScope := 0, unlocked := false
    securityVersion := leAt b 0x0C 4, fwVersion := BitVec.ofNat 32 (leAt b 0x10 4), challenge := none, rejected := 0
    attestKey := Config.slhPublic256f atkSeeds
    slots := slots.foldl (fun (m : NMap (List Byte)) p => NMap.set (List.replicate 32 0) m p.1 p.2) x.slots }

/-- The course of D3: the bank that boots, and whether it was the second one tried (R537). -/
def Security.selectBank (x : Security) (south : Bool) : Option (Bool × Bool) :=
  if bankValid x.counter (x.bank south) then some (south, false)
  else if bankValid x.counter (x.bank !south) then some (!south, true)
  else none

/-! ### Reports (R545) -/

/-- "YZ1ATTR1". -/
def attrMagic : List Byte := [0x59, 0x5A, 0x31, 0x41, 0x54, 0x54, 0x52, 0x31]
def reportBytes : Nat := 80240

/-- The body of a report at this moment. -/
def State.reportBody (s : State) (nonce : List Byte) : List Byte :=
  let x := s.sec
  let flags := b2n x.fallback + fieldAt (b2n x.unlocked) 1 + fieldAt (b2n x.recovery) 2 + fieldAt (b2n s.pw.optionDefault) 3
    + fieldAt (b2n s.image.isSome) 4
  fit 0 512 (attrMagic ++ leBytes 2 1 ++ leBytes 2 flags ++ leBytes 4 reportBytes ++ leBytes 8 Config.identity.toNat
    ++ leBytes 8 s.now ++ fit 0 32 nonce ++ leBytes 4 x.fwVersion.toNat ++ leBytes 4 x.securityVersion ++ leBytes 4 x.counter
    ++ leBytes 1 (b2n x.bootBank) ++ [gradeByte] ++ leBytes 1 s.pw.bootSel.toNat ++ leBytes 1 x.debugScope.toNat
    ++ fit 0 16 ((s.image.map (·.layoutId)).getD []) ++ fit 0 32 s.profile ++ (List.range 7).flatMap (fun k => fit 0 32 (s.slot k))
    ++ leBytes 64 x.attestKey.toNat)

/-- "YZ1ENDR1". -/
def endrMagic : List Byte := [0x59, 0x5A, 0x31, 0x45, 0x4E, 0x44, 0x52, 0x31]

/-- The 29,872 bytes of the endorsement: magic, identity, attestation public key, Ferluent's signature (R544). -/
def endorsement : List Byte :=
  endrMagic ++ leBytes 8 Config.identity.toNat ++ leBytes 64 (Config.slhPublic256f atkSeeds).toNat ++ fit 0 sigBytes Config.endorsementSig

/-- Body, signature and endorsement (R544 to R546). -/
def fullReport (body : List Byte) : List Byte :=
  body ++ fit 0 49856 (Config.slhSign256f atkSeeds body) ++ endorsement

end Sys2Proof.Machine
end

