-- ==== Sys2Proof/Machine/Reset.lean ====
section
/-! DEFINITION. Resets at or above command level: their scope in state (R395, R498 to R500, R503, R504, R509, R510, R512, R513,
R521, R526 to R529, R542, R556). -/
namespace Sys2Proof.Machine

/-! ### Kinds and levels (R498, R499, R503) -/

/-- Levels of R499 from block, 0, up to power, 4. -/
def ResetKind.level : ResetKind → Nat
  | .powerOn | .supply | .thermal => 4
  | .perstN | .hotReset => 3
  | .flr => 2
  | .watchdog | .command | .debug => 1

/-- Where dawn starts (R498). -/
def ResetKind.startStage : ResetKind → Nat
  | .powerOn | .supply | .thermal | .perstN | .hotReset => 0
  | .flr | .command => 4
  | .watchdog | .debug => 3

/-- One reset: kind, RESET_CAUSE.detail, resident pages kept?, the always-on rail fell (R510)?, reset history cleared first? -/
structure ResetEvent where
  kind : ResetKind
  detail : Byte
  keep : Bool
  aonLost : Bool
  clearHistory : Bool
deriving DecidableEq, Repr

/-- A dawn sequence is under way: at a stage, or held at its start. -/
def Power.dawning (p : Power) : Bool :=
  match p.standing with
  | .ended | .hold => false
  | _ => true

/-- Where dawn starts after a reset (R503). (DEDUCED, log 106) -/
def Power.nextStage (p : Power) (k : ResetKind) : Nat :=
  if k.level = 4 || !p.dawning then k.startStage
  else if p.stage ≤ 2 then p.stage
  else min k.startStage p.stage

/-- What holds the device after a reset, if anything (R498, R526, R562). -/
def Power.nextStanding (p : Power) (k : ResetKind) : Standing :=
  match k with
  | .thermal => .hot
  | .perstN => if p.standing == .hot then .hot else .inReset
  | _ => if p.standing == .hot then .hot else if p.perst then .inReset else .dawn

/-- Dawn stage under way when a reset arrives, or 7 after D6 (R512, R529). -/
def Power.stageCode (p : Power) : Nat := if p.standing == .ended && p.stage = 6 then 7 else p.stage

/-! ### Blocks -/

/-- Main memory is lost: every power-level reset, and the PERST_N that ends D3cold (R458, R527). (DEDUCED, log 107) -/
def State.losesMemory (s : State) (r : ResetEvent) : Bool := r.kind.level = 4 || s.pw.d3cold

/-- A tile after a reset that clears tile memory; resident pages and their map stay when they are kept (R131, R132, R527). -/
def Tile.afterReset (keep : Bool) (c : Tile) : Tile :=
  if keep then
    let attr := c.pages.attr.filter fun p => p.2 == 1
    let kept (p : Nat) : Bool := attr.any fun q => q.1 == p
    { Tile.init with
      mem := { TileMem.init with
        data := c.mem.data.filter fun b => kept (b.1 / 4096), eccData := c.mem.eccData.filter fun w => kept (w.1 / 512) }
      pages := { Pages.init with attr := attr } }
  else .init

/-- Tiles under their device numbers (R17, R492). -/
def State.deviceTiles (s : State) : NMap Tile :=
  match s.pw.fieldBench with
  | some b => s.tiles.map fun p => (fieldTile b p.1, p.2)
  | none => s.tiles

/-- Main memory after a reset (R458, R464, R527): contents lost, or kept where the whole device has them. -/
def State.resetMem (s : State) (r : ResetEvent) : MainMem :=
  let m := s.mm
  let base := match s.pw.fieldBench with
    | some b => poolBaseGib m.cur.unchecked b * 2 ^ 30
    | none => 0
  let lost := s.losesMemory r
  { MainMem.init with
    bytes := if lost then [] else m.bytes.map fun p => (p.1 + base, p.2)
    checks := if lost then [] else m.checks.map fun p => (p.1 + base / 64, p.2)
    cur := m.cur, next := m.next }

/-- Commands of a queue that were fetched and have no written completion, by sequence number. -/
def State.lostSeqs (s : State) (q : Nat) : List Nat :=
  (s.host.held.filter (·.queue == q)).map (·.field 4 4)
    ++ (s.host.done.filter fun d => d.queue == q && d.slot.isSome).map (·.seq)

/-- What a queue reports when it is next enabled (R395, R509, R510). -/
def State.lostAfter (s : State) (r : ResetEvent) (q : Nat) : LostReport :=
  let old := (s.queue q).lost
  match s.lostSeqs q with
  | [] => if r.aonLost && old != .none then .unknown else old
  | n :: ns =>
    if r.aonLost then .unknown
    else if s.pw.causeOnly then
      let lo := ns.foldl min n
      let hi := ns.foldl max n
      match old with
      | .range a b => .range (min a lo) (max b hi)
      | .unknown => .unknown
      | _ => .range lo hi
    else .each

/-- The retained memory is cleared: it did not survive, or the profile keeps only the cause (R509, R510). -/
def State.clearsRetained (s : State) (r : ResetEvent) : Bool := r.aonLost || s.pw.causeOnly

/-- The host interface after a reset (R375, R395, R527). -/
def State.resetHost (s : State) (r : ResetEvent) : HostIf :=
  let h := s.host
  let conf := decide (2 ≤ r.kind.level)
  { HostIf.init with
    queues := h.queues.foldl (fun m p => NMap.set Queue.init m p.1 { Queue.init with lost := s.lostAfter r p.1 }) []
    journal := if s.clearsRetained r then [] else h.journal
    nextStart := h.nextStart, mem := h.mem, sent := h.sent
    bar2Log2 := if conf then 36 else h.bar2Log2
    msix := if conf then [] else h.msix, pba := if conf then [] else h.pba, pcie := if conf then .init else h.pcie
    d3hot := if conf then false else h.d3hot, aerDrops := if conf then 0 else h.aerDrops }

/-- A road whose partner table stays: it trains again in D4 and goes on where it was (R422, R527). -/
def Road.held (r : Road) : Road := { r with state := .disabled, lanes := 0, retryCount := 0, retries := 0, retrying := false }

/-- The link block after a reset (R423, R527). -/
def State.resetLink (s : State) (r : ResetEvent) : Link :=
  let l := s.link
  let feed := if r.aonLost then 0 else l.feedGroup
  if 3 ≤ r.kind.level then { Link.init with feedGroup := feed, srefclk := l.srefclk }
  else
    { Link.init with
      partners := l.partners.filter fun p => p.2.state != 1
      feedGroup := feed, srefclk := l.srefclk, udpPort := l.udpPort, pfcPriority := l.pfcPriority
      roads := l.roads.map fun p => (p.1, p.2.held)
      eth := l.eth.map fun p => (p.1, { p.2 with
        state := 0, mode := 0, drops := 0, paused := 0, rxFill := 0, pausing := false, answers := 0, awaited := none })
      ctx := l.ctx }

/-- Power was lost: a flash write under way is not completed (R490). -/
def ResetEvent.powerLost (r : ResetEvent) : Bool := r.kind == .powerOn || (r.kind == .supply && r.detail == 0)

/-- The resilience block after a reset (R473, R490, R495, R527). The bases come back from the option block in D2 where the
matrix says so. -/
def State.resetRes (s : State) (r : ResetEvent) : Resilience :=
  let x := s.res
  let lost := s.losesMemory r
  let bases : Resilience :=
    if 3 ≤ r.kind.level then .init
    else { Resilience.init with
      recoveryBase := x.recoveryBase, inputRing := x.inputRing, shadowBase := x.shadowBase, shadowLength := x.shadowLength
      homeBase := x.homeBase, homeLength := x.homeLength, foreignBase := x.foreignBase, foreignConfig := x.foreignConfig }
  { bases with
    logIndex := if s.clearsRetained r then 0 else x.logIndex
    owners := if lost then [] else x.owners
    rows := x.rows, lost := x.lost, flash := x.flash, flashBusy := x.flashBusy && !r.powerLost }

/-! ### The power block and its records (R504, R509 to R512, R527 to R529) -/

/-- Recent resets that firmware keeps, and the window of R504 in ns. -/
def historyDepth : Nat := 16
def holdWindow : Nat := 10 ^ 10

/-- Thermal division of a junction temperature that is not falling (R526). -/
def thermalOf (celsius : Nat) : BitVec 2 := if 108 ≤ celsius then 2 else if 100 ≤ celsius then 1 else 0

/-- A bench's clock after a reset: Noon, with the divisions that its rail and its sensors force (R522, R526, R527). -/
def BenchClock.afterReset (power : Bool) (k : BenchClock) : BenchClock :=
  { BenchClock.init with thermal := thermalOf k.junction, twilight := if power then 0 else k.twilight }

/-- Device time of a reset: the time base restarts when the always-on rail fell (R527). -/
def State.resetTime (s : State) (r : ResetEvent) : Nat := if r.aonLost then 0 else s.now

/-- The reset history with this reset in it (R504). -/
def State.newHistory (s : State) (r : ResetEvent) : List Nat :=
  let old := if r.aonLost || r.clearHistory then [] else s.pw.history
  let l := old ++ [s.resetTime r]
  l.drop (l.length - historyDepth)

def State.resetPower (s : State) (r : ResetEvent) : Power :=
  let p := s.pw
  let t := s.resetTime r
  let power := decide (r.kind.level = 4)
  let clear := s.clearsRetained r
  let hist := s.newHistory r
  let entry : CauseEntry :=
    { time := t, kind := r.kind, detail := r.detail.toNat, stage := p.stageCode
      step := match s.step with | some x => x.stepNo.toNat % 2 ^ 32 | none => 2 ^ 32 - 1 }
  let next := if clear then 0 else p.causeNext
  let logs : NMap (Option CauseEntry) := if clear then [] else p.causeLog
  let benches : NMap BenchClock := p.benches.foldl (fun m b => NMap.set BenchClock.init m b.1 (b.2.afterReset power)) []
  { Power.init with
    standing := p.nextStanding r.kind, stage := p.nextStage r.kind, bootSel := p.bootSel
    kind := r.kind, retainedValid := !r.aonLost, optionDefault := p.optionDefault, detail := r.detail
    causeStage := BitVec.ofNat 3 p.stageCode
    resetsInWindow := (hist.filter fun h => decide (t ≤ h + holdWindow)).length, history := hist
    causeOnly := p.causeOnly
    bkp := if clear then [] else p.bkp
    causeLog := if p.causeOnly then [] else NMap.put logs next (some entry)
    causeNext := if p.causeOnly then 0 else (next + 1) % 32
    twiLog := if clear then [] else p.twiLog, twiNext := if clear then 0 else p.twiNext
    cap := if 3 ≤ r.kind.level then 3000 else p.cap
    benches := benches
    openTwilight := if power then [] else p.openTwilight
    v48 := p.v48, aux := p.aux, perst := p.perst, d3cold := p.d3cold
    fillDue := p.fillDue || s.losesMemory r
    rebuildLog := p.rebuildLog || r.aonLost || p.causeOnly || p.d3cold }

/-- The root of trust at a reset: a write or a report under way ends; a reset that starts at D4 zeroes slots 4 and 5 (R539,
R542); one that runs D3 locks the TAP (R549, R550). -/
def Security.afterReset (x : Security) (runsD3 : Bool) : Security :=
  let x := if runsD3 then { x with debugScope := 0, unlocked := false, challenge := none, rejected := 0 } else x
  { x with
    aValid := false, bValid := false, recTarget := false, rollbackChecked := false, write := none, recStatus := 0
    recWindow := [], recReceived := [], signing := []
    slots := NMap.drop (NMap.drop x.slots 4) 5 }

/-! ### The reset -/

/-- Field mode is due whatever the rest of dawn finds: BOOT_SEL 9, or a row that is exhausted (R491, R493). -/
def State.fieldDue (s : State) : Bool := s.pw.bootSel = 9 || s.res.rows.any fun p => p.2.spare == 4

/-- The modes that the next D4 takes (R458, R462, R492). (DEDUCED, log 85) -/
def State.nextMode (s : State) : MemMode := { s.mm.next with pools := s.mm.next.pools || s.fieldDue }

/-- Main memory is filled with zeros when it takes these modes (R458, R462). -/
def State.fillsFor (s : State) (m : MemMode) : Bool :=
  s.pw.fillDue || m.pools != s.mm.cur.pools || m.unchecked != s.mm.cur.unchecked

/-- D4 is entered: firmware has started, diagnostics are ready, and the channels train (R373, R458, R501). -/
def State.enterD4 (s : State) : State :=
  { s with
    pw := { s.pw with standing := .dawn, stage := 4, diagReady := true, service := 1 }
    mm := { s.mm with
      trained := false, filling := s.fillsFor s.nextMode
      groups := (List.range 32).foldl (fun m p => NMap.set MemGroup.init m p { MemGroup.init with state := .training }) [] } }

/-- The state after a reset at or above command level (R498, R527), before dawn goes on. -/
def State.afterReset (s : State) (r : ResetEvent) : State :=
  { s with
    clock := if r.aonLost then ⟨0, 0, []⟩ else { s.clock with benchCycles := [] }
    tiles := if r.keep then s.deviceTiles.map fun p => (p.1, p.2.afterReset true) else []
    bell := .init, step := none, image := none, runnable := false, unshadowed := false, expertCode := false, lastDone := none
    scale := .init, random := .init, train := .init, seqWindow := []
    mm := s.resetMem r, host := s.resetHost r, link := s.resetLink r, res := s.resetRes r, pw := s.resetPower r
    sec := s.sec.afterReset (decide (s.pw.nextStage r.kind ≤ 3)), mod := if r.aonLost then .init else s.mod }

/-- A reset at or above command level (R498, R527); one that starts at D4 has firmware running at once. (DEDUCED, log 105) -/
def State.resetDevice (s : State) (r : ResetEvent) : State :=
  let s := s.afterReset r
  if s.pw.standing == .dawn && s.pw.stage = 4 then s.enterD4 else s

def ResetEvent.plain (k : ResetKind) : ResetEvent := ⟨k, 0, false, false, false⟩
def ResetEvent.command (keep : Bool) : ResetEvent := ⟨.command, if keep then 1 else 0, keep, false, true⟩

/-! ### The rows (R407, R498, R500, R504, R521, R526, R530, R556) -/

/-- RESET_DEVICE: at once, whatever else runs; the queue is told of it after the reset (R407). -/
def execResetDevice (n : Nat) (s : State) : Out :=
  startHeld 0x11 n (fun s h => s.resetDevice (.command (h.flag 2))) s

/-- DEVICE_RESET: a write of RESET_CONTROL with device_reset (R530). -/
def execDeviceReset (value : Word32) (s : State) : Out :=
  .next (if s.pw.diagReady && value.getLsbD 31 then s.resetDevice (.command (value.getLsbD 30)) else s)

/-- POWER_ON_RESET: an input rises from absent; only the first of the two resets (R556). -/
def execPowerOnReset (v48 : Bool) (s : State) : Out :=
  let other := if v48 then s.pw.aux else s.pw.v48
  let s' : State := { s with pw := { s.pw with v48 := s.pw.v48 || v48, aux := s.pw.aux || !v48 } }
  .next (if other then s' else
    let s := s'.resetDevice ⟨.powerOn, 0, false, true, false⟩
    { s with pw := { s.pw with v48 := v48, aux := !v48, d3cold := false } })

/-- Code of a rail (R512). -/
def railCode : Rail → Nat
  | .input => 0
  | .core b => 1 + b

/-- The open twilight entry of a rail is no event: the supply reset is logged instead (R522). -/
def State.dropTwilight (s : State) (rail : Nat) : State :=
  match s.pw.openTwilight.find? fun o => o.1 == rail with
  | some o => { s with pw := { s.pw with
      openTwilight := s.pw.openTwilight.filter (·.1 != rail), twiLog := NMap.set none s.pw.twiLog o.2 none
      twiNext := if s.pw.twiNext = (o.2 + 1) % 256 then o.2 else s.pw.twiNext } }
  | none => s

/-- SUPPLY_RESET: the input below 38 V, or a core rail below −10 % (R521). Without the input AUX_3V3 feeds the always-on domain,
which falls where AUX_3V3 does not stand (R39, R510); in D3hot it records the entry into D3cold (R458). -/
def supplyReset (s : State) (rail : Rail) (auxStands : Bool) : State :=
  let input := railCode rail = 0
  let lost := input && !auxStands
  let cold := input && s.host.d3hot && auxStands
  let s := (s.dropTwilight (railCode rail)).resetDevice ⟨.supply, BitVec.ofNat 8 (railCode rail), false, lost, false⟩
  { s with pw := { s.pw with
    v48 := s.pw.v48 && !input, aux := if input then auxStands else s.pw.aux, d3cold := (s.pw.d3cold || cold) && !lost } }

def execSupplyReset (rail : Rail) (auxStands : Bool) (s : State) : Out :=
  match rail with
  | .core b => if 6 ≤ b then .fault .noSuchUnit else .next (supplyReset s rail auxStands)
  | .input => .next (supplyReset s rail auxStands)

/-- THERMAL_RESET (R526). -/
def execThermalReset (bench : Nat) (s : State) : Out :=
  if 6 ≤ bench then .fault .noSuchUnit else .next (s.resetDevice ⟨.thermal, BitVec.ofNat 8 bench, false, false, false⟩)

/-- THERMAL_COOLED: dawn starts at D0, once PERST_N is released (R526). -/
def execThermalCooled (s : State) : Out :=
  if s.pw.standing == .hot then
    .next { s with pw := { s.pw with
      standing := if s.pw.perst then .inReset else .dawn, stage := 0
      benches := s.pw.benches.foldl (fun (m : NMap BenchClock) b => NMap.set BenchClock.init m b.1 { b.2 with thermal := 0 }) [] } }
  else .next s

/-- PERST_N_ASSERT: held for 1 µs (R373, R498). -/
def execPerstNAssert (s : State) : Out :=
  if s.pw.perst then .next s
  else
    let s := s.resetDevice (.plain .perstN)
    .next { s with pw := { s.pw with perst := true } }

/-- PERST_N_RELEASE: dawn starts (R373, R498). -/
def execPerstNRelease (s : State) : Out :=
  if s.pw.perst then
    .next { s with pw := { s.pw with perst := false, standing := if s.pw.standing == .inReset then .dawn else s.pw.standing } }
  else .next s

/-- HOT_RESET, at its end (R498). -/
def execHotReset (s : State) : Out := .next (s.resetDevice (.plain .hotReset))
def execFlr (s : State) : Out := .next (s.resetDevice (.plain .flr))

/-- WATCHDOG_RESET acts as a command reset with keep_resident 1 (R500). -/
def execWatchdogReset (s : State) : Out := .next (s.resetDevice ⟨.watchdog, 0, true, false, false⟩)

/-- DEBUG_RESET: over JTAG unlocked with scope bit 2 (R498, R500, R549). -/
def execDebugReset (s : State) : Out := .next (if s.sec.debugScope.getLsbD 2 then s.resetDevice (.plain .debug) else s)

end Sys2Proof.Machine
end

