-- ==== Sys2Proof/Machine/Dawn.lean ====
section
/-! DEFINITION. The dawn sequence (R22, R331, R373, R423, R435, R458, R462, R473, R490 to R493, R501, R502, R504, R505, R537,
R538, R541). -/
namespace Sys2Proof.Machine

/-! ### D2: fuses and the option block (R501, R502, R505, R541) -/

/-- An Ethernet port as ETH_CONTROL and its addresses say (R435, R441). -/
def EthPort.configured (w : Word32) (hop : BitVec 48) (v4 : Word32) (v6 : BitVec 128) : EthPort :=
  { EthPort.init with
    enable := w.getLsbD 31, vlan := w.extractLsb' 16 12, pcp := w.extractLsb' 13 3, pfcEnable := w.getLsbD 12
    nextHop := hop, ipv4 := v4, ipv6 := v6 }

def optionEth (e : Nat) : EthPort :=
  EthPort.configured (Config.optEthControl e) (Config.optNextHop e) (Config.optIpv4 e) (Config.optIpv6 e)

/-- Settings of the option block, where its CRC-32 holds (R502, R527). -/
def State.loadOptions (s : State) : State :=
  let mode : MemMode := ⟨Config.optPools, Config.optUnchecked, Config.optRate⟩
  { s with
    link := { s.link with
      udpPort := Config.optTransport.extractLsb' 0 16, pfcPriority := Config.optTransport.extractLsb' 16 3
      eth := (List.range ethCount).foldl (fun m e => NMap.set EthPort.init m e (optionEth e)) [] }
    res := { s.res with
      recoveryBase := Config.optRecoveryBase, inputRing := Config.optInputRing, shadowBase := Config.optShadowBase
      shadowLength := Config.optShadowLength, homeBase := Config.optHomeBase, homeLength := Config.optHomeLength
      foreignBase := Config.optForeignBase, foreignConfig := Config.optForeignConfig }
    mm := { s.mm with next := if s.pw.fillDue then mode else s.mm.next }
    pw := { s.pw with causeOnly := Config.optCauseOnly, optionDefault := false } }

/-- Their defaults, where it does not (R502). -/
def State.loadDefaults (s : State) : State :=
  let r := s.res
  let i := Resilience.init
  { s with
    link := { s.link with udpPort := Link.init.udpPort, pfcPriority := Link.init.pfcPriority, eth := [] }
    res := { r with
      recoveryBase := i.recoveryBase, inputRing := i.inputRing, shadowBase := i.shadowBase, shadowLength := i.shadowLength
      homeBase := i.homeBase, homeLength := i.homeLength, foreignBase := i.foreignBase, foreignConfig := i.foreignConfig }
    mm := { s.mm with next := if s.pw.fillDue then ⟨false, false, false⟩ else s.mm.next }
    pw := { s.pw with causeOnly := false, optionDefault := true } }

/-- Under Cause-only nothing but the reset history stays in the retained memory (R509). -/
def State.keepCause (s : State) : State :=
  if s.pw.causeOnly then
    { s with
      pw := { s.pw with bkp := [], causeLog := [], causeNext := 0, twiLog := [], twiNext := 0, rebuildLog := true }
      host := { s.host with journal := [] }
      res := { s.res with logIndex := 0 } }
  else s

/-- D2. The contents of an option block whose CRC-32 fails are not stated: their measurement is free. (DEDUCED, log 108) -/
def State.dawnD2 (s : State) (optionOk : Bool) : State :=
  let s := (if optionOk then s.loadOptions else s.loadDefaults).keepCause
  let m := if optionOk then (shake32 Config.optBytes, s) else s.freeBytes 4
  let s := (m.2.setSlot 2 m.1).setSlot 3 (fuseMeasure m.2.sec.counter)
  if s.pw.bootSel = 0 then { s with pw := { s.pw with standing := .ended, stage := 2 } }
  else { s with pw := { s.pw with stage := 3 } }

/-! ### D3: the boot ROM (R505, R537, R540) -/

/-- Firmware boots and D4 begins: diagnostics are ready (R373). -/
def State.bootFrom (s : State) (south fallback recovery : Bool) : State :=
  { s with sec := s.sec.boot south fallback recovery }.enterD4

/-- The ROM waits for an image, over the sideband or over PCIe (R537 step 4, R540). -/
def State.enterRecovery (s : State) (sideband fallback : Bool) : State :=
  { s with
    sec := { s.sec with fallback := fallback, recStatus := 1, recReceived := [], recWindow := [], recSideband := sideband }
    pw := { s.pw with standing := .recovery, stage := 3 } }

def State.dawnD3 (s : State) : State :=
  let k := s.pw.bootSel.toNat
  if k = 12 || k = 13 then s.enterRecovery (k == 12) false
  else
    match s.sec.selectBank (k == 14) with
    | some (b, fallback) => s.bootFrom b fallback false
    | none => s.enterRecovery false true

/-! ### D4: memory, ports, the log, recovery hold (R331, R423, R458, R462, R473, R504) -/

/-- A controller group once its channels have trained. -/
def trainedGroup (failed : List Nat) (p : Nat) : MemGroup :=
  { MemGroup.init with state := if (List.range 4).any fun c => failed.contains (4 * p + c) then .failed else .service }

/-- Main memory after D4. A channel that failed takes the device to pools; a new interleave or checked mode clears everything. -/
def State.trainMemory (s : State) (failed : List Nat) : State :=
  let failed := failed.filter (· < channelCount)
  let mode : MemMode := { s.nextMode with pools := s.nextMode.pools || !failed.isEmpty }
  let fill := s.fillsFor mode
  { s with
    mm := { s.mm with
      bytes := if fill then [] else s.mm.bytes, checks := if fill then [] else s.mm.checks, served := [], cache := []
      cur := mode, trained := true, filling := false, chanFail := failed
      usableGib := if mode.unchecked then 2048 else 1984
      groups := (List.range 32).foldl (fun m p => NMap.set MemGroup.init m p (trainedGroup failed p)) [] }
    pw := { s.pw with fillDue := false, d3cold := false } }

/-- A road after D4 (R416, R423, R527): up on all lanes, disabled, or still training, with the entries left on it failed. -/
def State.trainRoad (trained : List (Nat × BitVec 2)) (s : State) (p : Nat) : State :=
  let lanes := ((trained.find? fun x => x.1 == p).map (·.2)).getD 0
  if s.pw.bootSel = 8 || !s.link.srefclk then s.setRoad p { s.road p with state := .disabled }
  else if lanes ≠ 0 then
    s.setRoad p { s.road p with
      state := .up, lanes := lanes, lastValid := s.now
      credits := if (s.road p).credits.isEmpty then fullCredits else (s.road p).credits }
  else (s.setRoad p { s.road p with state := .training }).failPort p

/-- An Ethernet port after D4; a port that is not enabled stays down. -/
def State.trainEth (trained : List Nat) (s : State) (e : Nat) : State :=
  let x := s.ethPort e
  if x.enable && s.link.srefclk && trained.contains e then s.setEth e { x with state := 2 }
  else (s.setEth e { x with state := if x.enable then 1 else 0 }).failPort (8 + e)

/-- The entries of the step log as firmware reads them; one whose line is uncorrectable counts as not written (R454, R473).
(DEDUCED, log 108) -/
def State.logEntries (s : State) : State × List (List Byte) :=
  let base := s.res.recoveryBase.toNat
  if s.disturbed 5 base (2 ^ 20) then
    (List.range 4096).foldl (fun x k =>
      match x.1.mainRead 5 (base + 256 * k) 256 with
      | (s, .ok b) => (s, x.2 ++ [b])
      | (s, _) => (s, x.2)) (s, [])
  else (s, (List.range 4096).map fun k => s.mainBytes (base + 256 * k) 256)

/-- STEP_LOG_INDEX from the log: the highest index of an entry whose step is not all ones, plus one (R473). -/
def rebuiltIndex (entries : List (List Byte)) : Word64 :=
  match entries.filterMap fun e => if leAt e 0 8 = 2 ^ 64 - 1 then none else some (leAt e 0xD0 8) with
  | [] => 0
  | i :: is => BitVec.ofNat 64 (is.foldl max i + 1)

/-- The reset history is full and spans at most 10 s (R504). -/
def Power.holdsDawn (p : Power) : Bool :=
  p.history.length = historyDepth && (p.history.getLastD 0 ≤ p.history.headD 0 + holdWindow)

/-- A condition asserts ALERT_N (R567). -/
def State.alert (s : State) (condition : Nat) : State :=
  { s with mod := { s.mod with
    alert := true
    conditions := if s.mod.conditions.contains condition then s.mod.conditions else s.mod.conditions ++ [condition] } }

/-- BOOT_SEL values with which dawn ends after D4 (R505). -/
def Power.diagOnly (p : Power) : Bool := p.bootSel.toNat = 10 || p.bootSel.toNat < 8

def State.dawnD4 (s : State) (i : DawnInput) : State :=
  let s := s.trainMemory i.failedChannels
  let s := (List.range roadCount).foldl (State.trainRoad i.trainedRoads) s
  let s := (List.range ethCount).foldl (State.trainEth i.trainedEth) s
  let s := if s.pw.rebuildLog then
      let e := s.logEntries
      { e.1 with res := { e.1.res with logIndex := rebuiltIndex e.2 }, pw := { e.1.pw with rebuildLog := false } }
    else s
  let s := { s with random := { s.random with keyValid := true } }
  if s.pw.holdsDawn then
    State.alert ({ s with pw := { s.pw with standing := .hold } }.raise 9 0 []) 3
  else if s.pw.diagOnly then { s with pw := { s.pw with standing := .ended } }
  else { s with pw := { s.pw with stage := 5 } }

/-! ### D5: self-test and the spoil map (R20 to R23, R27, R490, R491) -/

/-- A gated spare that fails its self-test is retired (R22). -/
def retireSpare (s : State) (k : Nat) : State :=
  let r := s.row k
  if r.spare = 0 then
    { s.setRow k { r with spare := 2, cause := 2 } with res := { (s.setRow k { r with spare := 2, cause := 2 }).res with flashBusy := true } }
  else s

/-- A tile in service that fails its self-test: its row shifts and the spare's domain switches on, or the row is exhausted and
the tile is gated off (R22, R25, R131). -/
def retireTested (s : State) (t : Nat) : State :=
  let k := s.rowOf t
  let r := s.row k
  let r' : RowRepair :=
    if r.spare = 0 then { offset := BitVec.ofNat 4 (s.tx t % 16), shifted := true, spare := 1, cause := 2 }
    else { r with spare := 4, cause := 2 }
  let s := if r.spare = 0 then s.setTile t Tile.init else s.loseTile t
  let s := s.setRow k r'
  { s with res := { s.res with flashBusy := true, tile := BitVec.ofNat 11 t } }.raise 7 t (leBytes 4 r'.word)

def State.dawnD5 (s : State) (i : DawnInput) : State :=
  let s := { s with res := s.res.readFlash }
  let s := (i.failedSpares.filter (· < 96)).foldl retireSpare s
  let s := (i.failedTiles.filter (· < tileCount)).foldl retireTested s
  { s with pw := { s.pw with benchFailed := i.failedBenches.filter (· < 6), stage := 6 } }

/-! ### D6: service and readiness (R373, R491 to R493, R538) -/

def State.dawnD6 (s : State) : State :=
  let s := { s with sec := s.sec.rollbackCheck, pw := { s.pw with standing := .ended } }
  let s := if (List.range 6).all s.benchComplete && s.pw.bootSel ≠ 9 then
      { s with pw := { s.pw with service := 2, ready := true } }
    else s.fallService true
  if s.pw.ready then s.raise 10 0 [] else s

/-- DAWN_STAGE_COMPLETE (R501). -/
def dawnStageComplete (s : State) (i : DawnInput) : State :=
  if s.pw.standing != .dawn then s
  else
    match s.pw.stage with
    | 0 => { s with pw := { s.pw with v48 := true, stage := 1 } }
    | 1 => { s with pw := { s.pw with bootSel := BitVec.ofNat 4 (min 15 (i.millivolts / 100)), stage := 2 } }
    | 2 => s.dawnD2 i.optionOk
    | 3 => s.dawnD3
    | 4 => s.dawnD4 i
    | 5 => s.dawnD5 i
    | _ => s.dawnD6

def execDawnStageComplete (i : DawnInput) (s : State) : Out := .next (dawnStageComplete s i)

/-- Leaving recovery hold: the history is cleared and dawn goes on at D5 (R504). -/
def State.releaseHold (s : State) : State :=
  if s.pw.standing == .hold then
    let s := { s with pw := { s.pw with history := [] } }
    if s.pw.diagOnly then { s with pw := { s.pw with standing := .ended } }
    else { s with pw := { s.pw with standing := .dawn, stage := 5 } }
  else s

/-- RELEASE_HOLD. -/
def execReleaseHold (s : State) : Out := .next s.releaseHold

/-! ### Recovery images (R540) -/

def pieceBytes : Nat := 32768

/-- A piece taken from a source: the ROM takes what the image still lacks. -/
def State.takePiece (s : State) (piece : List Byte) : State :=
  let got := s.sec.recReceived
  let head := if got.isEmpty then piece else got
  let left := fwLength (fwBody head) - got.length
  { s with sec := { s.sec with recStatus := 1, recReceived := got ++ fit 0 (min pieceBytes left) piece } }

/-- RECOVERY_PIECE_READY: piece_ready written, over PCIe. -/
def execRecoveryPieceReady (s : State) : Out :=
  if s.pw.standing == .recovery && !s.sec.recSideband then .next (s.takePiece (NMap.getRun 0 s.sec.recWindow 0 pieceBytes))
  else .next s

/-- Why the received image fails, as RECOVERY_CONTROL.status; none when it is valid (R536, R553). -/
def Security.recFault (x : Security) : Option (BitVec 3) :=
  let b := x.recReceived
  if b.length < 256 || !fwBodyOk (fwBody b) || b.length ≠ fwLength (fwBody b) then some 5
  else if (firstFault (fwFaults x.counter b)).isSome then some 3
  else if !fwSigned b then some 4
  else none

/-- The image is complete: it is written into the target bank and verified there; one with a bad header or length is not
written, as in R539. (DEDUCED, log 114) -/
def State.finishRecovery (s : State) : State :=
  match s.sec.recFault with
  | some f =>
    let x := if f = 4 then s.sec.setBank s.sec.recTarget s.sec.recReceived else s.sec
    { s with sec := { x with recStatus := f, recReceived := [] } }
  | none =>
    let s := { s with sec := { s.sec.setBank s.sec.recTarget s.sec.recReceived with recStatus := 2 } }
    s.bootFrom s.sec.recTarget s.sec.fallback true

/-- RECOVERY_FINISH: finish written, over PCIe. -/
def execRecoveryFinish (s : State) : Out :=
  if s.pw.standing == .recovery && !s.sec.recSideband then .next s.finishRecovery else .next s

end Sys2Proof.Machine
end

