-- ==== Sys2Proof/Machine/PowerRows.lean ====
section
/-! DEFINITION. Power states, twilight, the cap, thermal division and block resets (R299, R301, R423, R460, R461, R506 to R508,
R514 to R526, R530 to R532). -/
namespace Sys2Proof.Machine

/-! ### Isolation during a step (R301) -/

/-- Members that have become isolated are excused; from then on their groups await no end markers. (DEDUCED, log 52) -/
def State.excuse (s : State) : State :=
  if s.step.isNone then s
  else
    (List.range 8).foldl (fun s g =>
      let G := s.group g
      let out := if G.loaded then G.members.filter fun t => s.isolated t && !((s.tile t).member g).excused else []
      if out.isEmpty then s
      else
        let s := out.foldl (fun s t => s.modTile t fun c => c.setMember g { c.member g with excused := true, met := true }) s
        let s := s.setGroup g { s.group g with waived := true }
        (s.group g).members.foldl State.noteMet s) s

/-! ### Divisions (R517, R524, R532) -/

def State.setBench (s : State) (b : Nat) (k : BenchClock) : State :=
  { s with pw := { s.pw with benches := NMap.set BenchClock.init s.pw.benches b k } }

/-- Changes the clocks of some benches; the supersteps under way are noted as divided (R358). -/
def State.modBenches (s : State) (bs : List Nat) (f : BenchClock → BenchClock) : State :=
  (bs.foldl (fun s b => s.setBench b (f (s.bench b))) s).noteAllDivided

def allBenches : List Nat := List.range 6

/-- Benches of a scope of SET_POWER: 0 device, 1 half, 2 bench (R400). -/
def scopeBenches (scope index : Nat) : List Nat :=
  match scope with
  | 0 => allBenches
  | 1 => allBenches.filter fun b => b2n (benchSouth b) == index
  | _ => [index]

/-- Requested division of SET_POWER's division byte. -/
def divisionOf (d : Nat) : BitVec 2 := if d = 4 then 2 else if d = 2 then 1 else 0

/-! ### Dusk and the way back (R514 to R520) -/

/-- Loaded image and bell groups end: every tile of a Midnight scope loses its memory (R519). -/
def State.unload (s : State) : State :=
  { s with
    image := none, runnable := false
    bell := { s.bell with groups := s.bell.groups.map fun p => (p.1, { p.2 with loaded := false, members := [] }) } }

/-- Peripheries, ports and controller groups go off; the DRAMs refresh themselves (R460, R518 step 3). -/
def State.deviceOff (s : State) : State :=
  let s := match s.res.drain with
    | some d => s.stopDrain d .notReady 0 0
    | none => s
  { s with
    mm := { s.mm with groups := s.mm.groups.map fun p =>
      (p.1, if p.2.state == .service then { p.2 with state := .selfRefresh } else p.2) }
    link := { s.link with
      roads := s.link.roads.map fun p =>
        (p.1, if p.2.state == .failed || p.2.state == .blockReset then p.2 else { p.2 with state := .disabled, lanes := 0 })
      eth := s.link.eth.map fun p => (p.1, { p.2 with state := 0, awaited := none }) } }

/-- The channels retrain, and the ports train as after R422 (R519). -/
def State.deviceOn (s : State) : State :=
  let s := { s with mm := { s.mm with groups := s.mm.groups.map fun p =>
    (p.1, if p.2.state == .selfRefresh then { p.2 with state := .service } else p.2) } }
  let on (s : State) (p : Nat) : State :=
    let r := s.road p
    if r.state != .disabled || s.pw.bootSel = 8 || !s.link.srefclk || s.portGated p then s
    else s.setRoad p { r with state := if (s.entriesOn p).isEmpty then .training else .down, downSince := s.now }
  let s := (List.range roadCount).foldl on s
  (List.range ethCount).foldl (fun s e =>
    let x := s.ethPort e
    if x.enable && s.link.srefclk && !s.portGated (8 + e) && !s.portInReset (8 + e) then
      s.setEth e { x with state := 1, awaited := if (s.entriesOn (8 + e)).isEmpty then none else some s.now }
    else s) s

/-- Benches of a scope whose domains are gated. -/
def State.gatedOf (s : State) (bs : List Nat) : List Nat := bs.filter fun b => (s.bench b).level.isGated

/-- The level and requested division of Noon or Evening. -/
def BenchClock.awake (k : BenchClock) (d : BitVec 2) : BenchClock :=
  { k with level := if d = 0 then .noon else .evening, requested := d }

/-- Some bench of a scope runs slower than asked, for the cap or for temperature (R516). -/
def State.cappedBelow (s : State) (bs : List Nat) (d : BitVec 2) : Bool :=
  bs.any fun b => d.ult (s.bench b).cap || d.ult (s.bench b).thermal

/-- SET_POWER ends, with the cap in force (R516). -/
def State.endPower (s : State) (n : Nat) (bs : List Nat) (d : BitVec 2) : State :=
  if s.cappedBelow bs d then s.complete n .powerCapped s.pw.cap s.pw.cap false else s.complete n .ok 0 s.pw.cap false

/-- Starts a transition of some benches. From Night-hold the tiles are quiet already, and the DRAMs go into self-refresh at once
(R460, R518 steps 2 and 3). -/
def State.startTransition (s : State) (n : Option Nat) (bs : List Nat) (l : PowerLevel) (device checked : Bool) : State :=
  let quiet := bs.all fun b => (s.bench b).level.isGated
  let s := if device && l == .midnight && quiet then s.deviceOff else s
  { s with pw := { s.pw with transition := some ⟨n, bs, l, device, checked⟩ } }.excuse

/-- A command of some classes runs, other than command n. -/
def State.runsClass (s : State) (n : Nat) (cs : List CmdClass) : Bool :=
  s.host.held.any fun h => h.n != n && h.phase == .running && (opSpec h.op).any fun sp => cs.contains sp.cls

/-- R515 permits the transition of a bench. (DEDUCED, log 109) -/
def PowerLevel.mayGo (a b : PowerLevel) : Bool :=
  match a, b with
  | _, .noon | _, .evening => true
  | .midnight, .nightHold => false
  | _, _ => true

/-- The level of some benches would leave one half gated and not the other (R299). (DEDUCED, log 109) -/
def State.leavesHalf (s : State) (bs : List Nat) (l : PowerLevel) : Bool :=
  let after (b : Nat) : Bool := if bs.contains b then l.isGated else (s.bench b).level.isGated
  let half (south : Bool) : Bool := allBenches.any fun b => benchSouth b == south && after b
  (bs.any fun b => (s.bench b).level.isGated != l.isGated) && half false != half true

/-- Refusals of R516; a group that spans the seam keeps a half from being gated alone (R299). -/
def State.refusesPower (s : State) (n : Nat) (bs : List Nat) (device : Bool) (l : PowerLevel) : Bool :=
  let spans := (List.range 8).any fun g => (s.group g).loaded && spansSeam (s.group g).members
  (spans && s.leavesHalf bs l)
    || (l.isGated && (s.runsClass n [.compute, .held] || s.step.isSome
      || (l == .midnight && device && (s.res.drain.isSome || s.runsClass n [.transfer]))))

def levelOf (state : Nat) : PowerLevel :=
  match state with | 0 => .noon | 1 => .evening | 2 => .nightHold | _ => .midnight

/-- SET_POWER once R398 has passed it (R515 to R519, R523). -/
def State.setPower (s : State) (n : Nat) (h : Held) : State :=
  let state := h.field 8 1
  let scope := h.field 0x0A 1
  let bs := scopeBenches scope (h.field 0x0B 1)
  let l := levelOf state
  let d := if state = 1 then divisionOf (h.field 9 1) else 0
  if bs.any fun b => !(s.bench b).level.mayGo l then s.complete n .badPacket 8 0 false
  else if s.refusesPower n bs (scope == 0) l then (s.raise 6 0 (leBytes 4 s.powerStatus)).complete n .notReady 0 0 false
  else
    let s := if h.field 0x0C 2 = 0 then s else { s with pw := { s.pw with cap := h.field 0x0C 2 } }
    if l.isGated then
      let off := l != .midnight || scope ≠ 0 || s.deviceAsleep
      if off && bs.all fun b => (s.bench b).level == l then s.complete n .ok 0 s.pw.cap false
      else (s.setRunning n).startTransition (some n) bs l (scope == 0) true
    else
      let s := s.modBenches bs fun k => if k.level.isGated then { k with requested := d } else k.awake d
      if (s.gatedOf bs).isEmpty then s.endPower n bs d
      else (s.setRunning n).startTransition (some n) bs l (scope == 0) true

/-- SET_POWER: one transition at a time. -/
def execSetPower (n : Nat) (s : State) : Out :=
  if s.pw.transition.isSome then .next s else startHeld 0x0F n (fun s h => s.setPower n h) s

/-- Every tile of some benches is halted with its engines idle (R518 step 2). -/
def State.quiet (s : State) (bs : List Nat) : Bool :=
  s.tiles.all fun p => !bs.contains (s.tb p.1) || (p.2.workDone && p.2.core.run != .running && p.2.core.run != .stalled)

/-- The memory of the tiles of some benches is lost (R514). -/
def State.loseTiles (s : State) (bs : List Nat) : State :=
  { s with tiles := s.tiles.filter fun p => !bs.contains (s.tb p.1) }

/-- Tiles that the device presents: all, or those of the bench that field mode serves (R492). -/
def State.tilesServed (s : State) : Nat := if s.pw.fieldBench.isSome then 256 else tileCount

/-- The tile domains of benches that leave Midnight switch on: each tile initialises its memory and arms its lanes (R131, R327,
R519). -/
def State.tilesOn (s : State) (bs : List Nat) : State :=
  let off := bs.filter fun b => (s.bench b).level == .midnight
  ((List.range s.tilesServed).filter fun t => off.contains (s.tb t)).foldl (fun s t => s.setTile t .switchedOn) s

/-- Dusk ends, or the way back to Noon or Evening does (R518, R519). -/
def State.endTransition (s : State) (x : Transition) : State :=
  let s := { s with pw := { s.pw with transition := none } }
  let s := match x.level with
    | .nightHold => s.modBenches x.benches fun k => { k with level := .nightHold, requested := 0 }
    | .midnight =>
      let s := (s.loseTiles x.benches).unload
      let s := s.modBenches x.benches fun k => { k with level := .midnight, requested := 0 }
      if x.device then s.deviceOff else s
    | .noon | .evening =>
      let s := (if s.deviceAsleep then s.deviceOn else s).tilesOn x.benches
      s.modBenches x.benches fun k => k.awake k.requested
  match x.n with
  | some n =>
    if x.level.isGated then s.complete n .ok 0 s.pw.cap false
    else s.endPower n x.benches (s.bench (x.benches.headD 0)).requested
  | none => s

/-- A transition under way ends before another begins. -/
def State.settleTransition (s : State) : State :=
  match s.pw.transition with
  | some x => s.endTransition x
  | none => s

/-- POWER_TRANSITION_COMPLETE: dusk waits for a running step and for quiet tiles. -/
def execPowerTransitionComplete (s : State) : Out :=
  match s.pw.transition with
  | some x =>
    if x.level.isGated && x.checked && (s.step.isSome || !s.quiet x.benches) then .next s else .next (s.endTransition x)
  | none => .next s

/-- D3HOT_WRITE: fetching stops, a running compute command completes, and dusk to Midnight follows (R520). -/
def execD3hotWrite (s : State) : Out :=
  if !s.pw.diagReady || s.host.d3hot then .next s
  else
    let s := { s with host := { s.host with d3hot := true } }.settleTransition
    .next (s.startTransition none allBenches .midnight true true)

/-- D0_WRITE: Midnight is left under R519. -/
def execD0Write (s : State) : Out :=
  if !s.host.d3hot then .next s
  else
    let s := { s with host := { s.host with d3hot := false } }
    let s := match s.pw.transition with
      | some x => if x.n.isSome then s.endTransition x else { s with pw := { s.pw with transition := none } }
      | none => s
    .next (if (s.gatedOf allBenches).isEmpty then s else s.startTransition none allBenches .noon true true)

/-- POWER_CONTROL_APPLY: as written, without checks; Night-hold and Midnight only with the masks of a half or of the device
(R531). -/
def powerControl (s : State) (w : Word32) : State :=
  let l := levelOf (w.extractLsb' 29 2).toNat
  let d : BitVec 2 := if w.extractLsb' 27 2 = 3 then 2 else w.extractLsb' 27 2
  let mask := (w.extractLsb' 0 6).toNat
  let bs := setBits mask 6 0
  let s := { s with pw := { s.pw with ctlState := w.extractLsb' 29 2, ctlDivision := d, ctlMask := w.extractLsb' 0 6 } }
  if !w.getLsbD 31 then s
  else if l.isGated then
    if mask = 7 || mask = 0x38 || mask = 0x3F then
      let bs := bs.filter fun b => (s.bench b).level.mayGo l
      if bs.isEmpty || s.pw.transition.isSome then s else s.startTransition none bs l (mask == 0x3F) false
    else s
  else
    let d := if l == .noon then 0 else d
    let s := s.modBenches bs fun k => if k.level.isGated then { k with requested := d } else k.awake d
    if (s.gatedOf bs).isEmpty || s.pw.transition.isSome then s else s.startTransition none (s.gatedOf bs) l (mask == 0x3F) false

def execPowerControlApply (value : Word32) (s : State) : Out := .next (if s.pw.diagReady then powerControl s value else s)

/-! ### Twilight (R521 to R523) -/

/-- Benches that a rail's warning divides (R521). -/
def railBenches (rail : Nat) : List Nat := if rail = 0 then allBenches else [rail - 1]

/-- The rails with an open episode divide their benches (R522). -/
def State.applyTwilight (s : State) : State :=
  let divided := s.pw.openTwilight.flatMap fun o => railBenches o.1
  (allBenches.foldl (fun s b => s.setBench b { s.bench b with twilight := if divided.contains b then 1 else 0 }) s).noteAllDivided

/-- Starts of the events that R523 counts. -/
def twilightDepth : Nat := 8

/-- A cap less 10 %, in whole watts, not below 1,200 (R523). -/
def loweredCap (cap : Nat) : Nat := max 1200 (cap * 9 / 10)

/-- The ninth event within 1 s lowers the cap (R523); whether it did. -/
def State.countTwilight (s : State) : State × Bool :=
  let l := s.pw.twiTimes
  if l.length = twilightDepth && s.now ≤ l.headD 0 + 10 ^ 9 then
    let s := { s with pw := { s.pw with cap := loweredCap s.pw.cap, twiTimes := [] } }
    (s.raise 6 0 (leBytes 4 s.powerStatus), true)
  else
    let l := l ++ [s.now]
    ({ s with pw := { s.pw with twiTimes := l.drop (l.length - twilightDepth) } }, false)

/-- TWILIGHT_START: the benches divide, an entry opens, and notices go out for the input (R432, R522). -/
def twilightStart (s : State) (rail millivolts : Nat) : State :=
  if s.pw.openTwilight.any fun o => o.1 == rail then s
  else
    let r := s.countTwilight
    let s := r.1
    let k := s.pw.twiNext
    let e : TwilightEntry := ⟨s.now, rail, false, r.2, 0, millivolts⟩
    let s := { s with pw := { s.pw with
      openTwilight := s.pw.openTwilight ++ [(rail, k)]
      twiLog := if s.pw.causeOnly then s.pw.twiLog else NMap.put s.pw.twiLog k (some e)
      twiNext := if s.pw.causeOnly then k else (k + 1) % 256 } }
    let s := s.applyTwilight.alert 1
    if rail = 0 then s.sendNotices false else s

def execTwilightStart (rail : Rail) (millivolts : Nat) (s : State) : Out :=
  if 7 ≤ railCode rail then .fault .noSuchUnit else .next (twilightStart s (railCode rail) millivolts)

/-- TWILIGHT_RELEASE: 20 µs above warning; the entry closes and the episode is an event (R522). -/
def twilightRelease (s : State) (rail lowest : Nat) : State :=
  match s.pw.openTwilight.find? fun o => o.1 == rail with
  | none => s
  | some o =>
    let log := match NMap.get none s.pw.twiLog o.2 with
      | some e => NMap.put s.pw.twiLog o.2 (some { e with
          recovered := true, duration := min (s.now - e.time - 20 * usNs) (2 ^ 32 - 1), lowest := min e.lowest lowest })
      | none => s.pw.twiLog
    let s := { s with pw := { s.pw with
      openTwilight := s.pw.openTwilight.filter (·.1 != rail), twiLog := log
      twiCount := BitVec.ofNat 32 (satInc 32 s.pw.twiCount.toNat 1) } }
    let s := s.applyTwilight
    let s := s.raise 4 rail (match NMap.get none s.pw.twiLog o.2 with
      | some e => e.bytes.take 20
      | none => leBytes 4 s.pw.twiCount.toNat)
    if rail = 0 then s.sendNotices true else s

def execTwilightRelease (rail : Rail) (lowest : Nat) (s : State) : Out :=
  if 7 ≤ railCode rail then .fault .noSuchUnit else .next (twilightRelease s (railCode rail) lowest)

/-! ### Cap and temperature (R525, R526) -/

/-- One step slower. -/
def slower (d : BitVec 2) : BitVec 2 := if d = 0 then 1 else 2
/-- One step faster. -/
def faster (d : BitVec 2) : BitVec 2 := if d = 2 then 1 else 0

/-- POWER_SAMPLE: the 1 ms average, the bench that draws most, and whether the average has stayed below 95 % of the cap for
10 ms. Which bench speeds up is not stated: a free value picks it among those that the cap slows (R525).
(DEDUCED, log 110) -/
def powerSample (s : State) (average drawsMost : Nat) (below10ms : Bool) : State :=
  let exceeds := decide (s.pw.cap < average)
  let slow := allBenches.all fun b => s.effective b == 2
  let s := { s with pw := { s.pw with inputW := average, unreachable := exceeds && slow } }
  if exceeds then
    let soon := match s.pw.lastSlow with | some t => decide (s.now < t + msNs) | none => false
    if soon || (s.bench drawsMost).cap = 2 then s
    else
      let s := { s with pw := { s.pw with lastSlow := some s.now } }
      s.modBenches [drawsMost] fun k => { k with cap := slower k.cap }
  else if below10ms && 100 * average < 95 * s.pw.cap then
    let slowed := allBenches.filter fun b => (s.bench b).cap != 0
    if slowed.isEmpty then s
    else
      let f := s.free
      f.2.modBenches [slowed.getD (f.1.toNat % slowed.length) 0] fun k => { k with cap := faster k.cap }
  else s

def execPowerSample (average hottest : Nat) (below10ms : Bool) (s : State) : Out :=
  if 6 ≤ hottest then .fault .noSuchUnit else .next (powerSample s average hottest below10ms)

/-- THERMAL_THRESHOLD: 100 or 108 °C (R526, R567). -/
def thermalThreshold (s : State) (b celsius : Nat) : State :=
  let s := s.modBenches [b] fun k =>
    { k with junction := celsius, thermal := if k.thermal.ult (thermalOf celsius) then thermalOf celsius else k.thermal }
  if (s.bench b).thermal = 0 then s else s.alert 2

def execThermalThreshold (bench celsius : Nat) (s : State) : Out :=
  if 6 ≤ bench then .fault .noSuchUnit else .next (thermalThreshold s bench celsius)

/-- THERMAL_SPEEDUP: after 10 ms below 97 °C (R526). -/
def execThermalSpeedup (bench celsius : Nat) (s : State) : Out :=
  if 6 ≤ bench then .fault .noSuchUnit
  else if 97 ≤ celsius then .next s
  else .next (s.modBenches [bench] fun k => { k with junction := celsius, thermal := faster k.thermal })

/-! ### Block resets (R423, R461, R506 to R508, R530) -/

/-- Two blocks overlap: the same block, or blocks of tiles with a tile in common. -/
def State.overlaps (s : State) (k i k' i' : Nat) : Bool :=
  if 3 ≤ k || 3 ≤ k' then k == k' && i == i'
  else (List.range tileCount).any fun t => s.inBlock k i t && s.inBlock k' i' t

/-- Benches of a block; link ports and controller groups lie in one bench each. -/
def blockBench (s : State) (k i : Nat) : List Nat :=
  match k with
  | 0 => [s.tb i]
  | 1 => [i]
  | 2 => allBenches.filter fun b => b2n (benchSouth b) == i
  | 3 => [if i < roadCount then roadBench i else ethBench (i - 8)]
  | _ => allBenches.filter fun b => decide (firstChannel b ≤ 4 * i) && decide (4 * i < firstChannel b + benchChannels b)

/-- A block that RESET_BLOCK does not reset: a tile of an exhausted row, or a block that is gated (R506); at device-scope
Midnight ports and controller groups are off too (R514). -/
def State.blockGated (s : State) (k i : Nat) : Bool :=
  (k = 0 && (s.row (s.rowOf i)).spare == 4) || (3 ≤ k && s.deviceAsleep)
    || (blockBench s k i).any fun b =>
      (k < 3 && (s.bench b).level.isGated) || (match s.pw.fieldBench with | some f => f != b | none => false)

/-- The wrapper closes (R506 steps 1 and 2): members are excused, work of the block's tiles ends, a port or a group stops.
(DEDUCED, log 111) -/
def State.closeBlock (s : State) (k i : Nat) : State :=
  match k with
  | 3 =>
    if i < roadCount then (s.setRoad i { s.road i with state := .blockReset, lanes := 0 }).failPort i
    else (s.setEth (i - 8) { s.ethPort (i - 8) with state := 0 }).failPort i
  | 4 => { s with mm := { s.mm with
      groups := NMap.set MemGroup.init s.mm.groups i { s.memGroup i with state := .blockReset } } }
  | _ =>
    let hit := (s.tiles.map (·.1)).filter (s.inBlock k i)
    let loaded := match s.image with | some x => x.loaded.any (s.inBlock k i) | none => false
    let s := if loaded then { s with runnable := false } else s
    (hit.foldl State.endWork s).excuse

/-- A block reset starts, or waits for one that it overlaps (R508). -/
def State.startBlock (s : State) (n : Option Nat) (k i : Nat) : State :=
  let wait := s.pw.blockResets.any fun b => s.overlaps b.kind b.index k i
  let s := { s with pw := { s.pw with blockResets := s.pw.blockResets ++ [⟨k, i, n, !wait⟩] } }
  if wait then s else s.closeBlock k i

/-- RESET_BLOCK (R400, R506). -/
def State.resetBlock (s : State) (n : Nat) (h : Held) : State :=
  let k := h.field 8 1
  let i := h.field 0x0C 2
  if s.pw.fieldBench.isSome && k = 0 && 256 ≤ i then s.complete n .badPacket 0x0C 0 false
  else if s.blockGated k i then s.complete n .notReady 0 0 false
  else (s.setRunning n).startBlock (some n) k i

def execResetBlock (n : Nat) (s : State) : Out := startHeld 0x10 n (fun s h => s.resetBlock n h) s

/-- Blocks of each kind (R400). -/
def blockCount (k : Nat) : Nat := ([1536, 6, 2, 12, 32] : List Nat).getD k 0

/-- BLOCK_RESET_START: as written, without checks; a block that does not exist is not reset (R530). -/
def execBlockResetStart (value : Word32) (s : State) : Out :=
  let k := (value.extractLsb' 27 3).toNat
  let i := (value.extractLsb' 0 11).toNat
  if !s.pw.diagReady then .next s
  else
    let s := { s with pw := { s.pw with blkKind := value.extractLsb' 27 3, blkIndex := value.extractLsb' 0 11 } }
    .next (if value.getLsbD 31 && i < blockCount k then s.startBlock none k i else s)

/-- A tile after its block reset: all memory cleared, lanes re-armed, and its standing in the step's bells kept (R131, R327,
R507). -/
def Tile.afterBlock (c : Tile) : Tile :=
  { Tile.init with sd := { Sd.init with groups := c.sd.groups }, rn := { Rn.init with arming := true } }

/-- Steps 3 and 4 of R506. -/
def State.openBlock (s : State) (k i : Nat) : State :=
  match k with
  | 3 =>
    if i < roadCount then
      let off := s.pw.bootSel = 8 || !s.link.srefclk || s.deviceAsleep
      s.setRoad i { Road.init with state := if off then .disabled else .training }
    else
      let x := s.ethPort (i - 8)
      let state := if x.enable && s.link.srefclk && !s.deviceAsleep then 1 else 0
      s.setEth (i - 8) { x with state := state, paused := 0, rxFill := 0, pausing := false }
  | 4 =>
    let g := trainedGroup s.mm.chanFail i
    let g := if s.deviceAsleep then { g with state := .selfRefresh } else g
    { s with mm := { s.mm with groups := NMap.set MemGroup.init s.mm.groups i g, cache := [] } }
  | _ =>
    let hit := (List.range s.tilesServed).filter (s.inBlock k i)
    let s := hit.foldl (fun s t => s.modTile t Tile.afterBlock) s
    { s with res := { s.res with transient := s.res.transient.filter fun p => !s.inBlock k i p.1 } }

/-- The block resets that wait for nothing any more start. -/
def startWaiting : Nat → State → State
  | 0, s => s
  | n + 1, s =>
    let free (b : BlockReset) : Bool := !b.running
      && !((s.pw.blockResets.takeWhile fun c => c != b).any fun c => s.overlaps c.kind c.index b.kind b.index)
    match s.pw.blockResets.find? free with
    | some b =>
      let s := { s with pw := { s.pw with blockResets := s.pw.blockResets.map fun c => if c = b then { c with running := true } else c } }
      startWaiting n (s.closeBlock b.kind b.index)
    | none => s

/-- BLOCK_RESET_COMPLETE (R506, R508). -/
def blockResetComplete (s : State) (kind index : Nat) : State :=
  match s.pw.blockResets.find? fun b => b.running && b.kind == kind && b.index == index with
  | none => s
  | some b =>
    let s := s.openBlock kind index
    let s := { s with pw := { s.pw with blockResets := s.pw.blockResets.erase b } }
    let s := match b.n with
      | some n => s.complete n .ok 0 0 false
      | none => s
    startWaiting s.pw.blockResets.length s

def execBlockResetComplete (kind index : Nat) (s : State) : Out := .next (blockResetComplete s kind index)

end Sys2Proof.Machine
end

