-- ==== Sys2Proof/Machine/SecureRows.lean ====
section
/-! DEFINITION. Firmware update, attestation and debug unlock (R538, R539, R545 to R550). -/
namespace Sys2Proof.Machine

/-! ### UPDATE_FIRMWARE (R539) -/

/-- The bank that a bank byte names; 2 is the one that the running firmware did not boot from. -/
def Security.target (x : Security) (bank : Nat) : Bool :=
  match bank with | 0 => false | 1 => true | _ => !x.bootBank

/-- The write begins: the bank's header is erased first. -/
def State.startWrite (s : State) (n : Nat) (south : Bool) (image : List Byte) : State :=
  let s := s.setRunning n
  { s with sec := { s.sec.setBank south [] with write := some ⟨n, south, image⟩ } }

/-- The checks of R539 in their order. (DEDUCED, log 113) -/
def State.updateFirmware (s : State) (n : Nat) (host : HostReply) (h : Held) : State :=
  let len := h.field 0x10 8
  let south := s.sec.target (h.field 0x18 1)
  let otherBad := !bankValid s.sec.counter (s.sec.bank !south)
  if len < fwLength 64 || fwLength (7 * 2 ^ 20) < len || (len - fwLength 0) % 64 ≠ 0 then s.complete n .badPacket 0x18 0 false
  else
    match s.hostAnswer host with
    | .fail e =>
      if otherBad then s.complete n .notReady 0 0 false else (s.hostFailed e).complete n .hostError (h.field 8 8) 0 false
    | .ok =>
      let b := s.getHost (h.field 8 8) len
      if len ≠ fwLength (fwBody b) then s.complete n .badPacket 0x18 0 false
      else
        match firstFault (fwFaults s.sec.counter b) with
        | some o => s.complete n .badPacket o 0 false
        | none => if otherBad then s.complete n .notReady 0 0 false else s.startWrite n south b

/-- UPDATE_FIRMWARE: a second one waits for the first. -/
def execUpdateFirmware (n : Nat) (h : HostReply) (s : State) : Out :=
  if s.sec.write.isSome then .next s else startHeld 0x14 n (fun s c => s.updateFirmware n h c) s

/-- FIRMWARE_WRITE_COMPLETE: the bank is verified from flash, and both banks are checked after OK (R538, R539). -/
def firmwareWritten (s : State) (n : Nat) : State :=
  match s.sec.write with
  | some w =>
    if w.n ≠ n then s
    else
      let s := { s with sec := { s.sec.setBank w.bankB w.image with write := none } }
      if bankValid s.sec.counter w.image then
        { s with sec := s.sec.rollbackCheck }.complete n .ok 0 0 false
      else s.complete n .badPacket (0x100 + fwBody w.image) 0 false
  | none => s

def execFirmwareWriteComplete (n : Nat) (s : State) : Out := .next (firmwareWritten s n)

/-! ### Reports (R546 to R548) -/

/-- The head of the requests captures its body when its signing begins (R548). -/
def State.beginSigning (s : State) : State :=
  match s.sec.signing with
  | r :: rest =>
    if r.body.isSome then s
    else { s with sec := { s.sec with signing := { r with body := some (s.reportBody r.nonce) } :: rest } }
  | [] => s

def State.askReport (s : State) (r : SignRequest) : State :=
  { s with sec := { s.sec with signing := s.sec.signing ++ [r] } }.beginSigning

/-- ATTEST (R546). -/
def execAttest (n : Nat) (s : State) : Out :=
  startHeld 0x13 n (fun s h =>
    if h.field 0x30 4 < reportBytes then s.complete n .badPacket 0x30 0 false
    else (s.setRunning n).askReport ⟨some n, (h.packet.drop 8).take 32, h.field 0x28 8, none⟩) s

/-- Response of DOE Discovery to an index: vendor, type and next index of an entry (R547). (PRESUMED, log 8) -/
def doeDiscovery (index : Nat) : List Byte :=
  match index with
  | 0 => leBytes 2 1 ++ [0, 1]
  | 1 => leBytes 2 Config.vendorId.toNat ++ [1, 0]
  | _ => leBytes 2 0xFFFF ++ [0, 0]

/-- DOE_REQUEST: Ferluent's object type 1 asks for a report, a payload of another length getting a response of zero length;
Discovery lists that type, and any other object gets no response (R547). -/
def execDoeRequest (object : DoeObject) (s : State) : Out :=
  if !s.pw.diagReady then .next s
  else if object.vendor = 1 && object.kind = 0 then .next (s.setReply (.data (doeDiscovery (leAt object.payload 0 1))))
  else if object.vendor ≠ Config.vendorId || object.kind ≠ 1 then .next s
  else if object.payload.length ≠ 32 then .next (s.setReply (.data []))
  else .next (s.askReport ⟨none, object.payload, 0, none⟩)

/-- ATTEST_SIGN_DONE (R546 to R548). -/
def attestDone (s : State) (host : HostReply) : State :=
  match s.sec.signing with
  | [] => s
  | r :: rest =>
    let report := fullReport (r.body.getD [])
    let s := { s with sec := { s.sec with signing := rest } }
    let s := match r.n, s.hostAnswer host with
      | none, _ => s.setReply (.data report)
      | some n, .ok => (s.putHost r.buffer report).complete n .ok 0 reportBytes false
      | some n, .fail e => (s.hostFailed e).complete n .hostError r.buffer 0 false
    s.beginSigning

def execAttestSignDone (h : HostReply) (s : State) : Out := .next (attestDone s h)

/-! ### JTAG (R549, R550) -/

/-- Rejected responses after which UNLOCK issues no challenge (R550). -/
def unlockTries : Nat := 3
def challengeLife : Nat := 60 * 10 ^ 9

/-- The root of trust runs: D3 has passed since the last reset that runs it. -/
def State.rootReady (s : State) : Bool := s.pw.standing != .inReset && s.pw.standing != .hot && decide (3 ≤ s.pw.stage)

/-- UNLOCK_CHALLENGE_READ: the identity and 32 fresh bytes, or zeros after three rejections. -/
def unlockChallenge (s : State) (entropy : BitVec 256) : State :=
  if !s.rootReady then s
  else if unlockTries ≤ s.sec.rejected then
    { s with sec := { s.sec with challenge := none } }.setReply (.data (List.replicate 40 0))
  else
    { s with sec := { s.sec with challenge := some ⟨entropy, s.now⟩ } }.setReply
      (.data (leBytes 8 Config.identity.toNat ++ leBytes 32 entropy.toNat))

def execUnlockChallengeRead (entropy : BitVec 256) (s : State) : Out := .next (unlockChallenge s entropy)

/-- The response answers a live challenge, and is signed with the firmware key (R549, R550). -/
def State.unlockOk (s : State) (r : List Byte) : Bool :=
  match s.sec.challenge with
  | none => false
  | some c =>
    decide (s.now ≤ c.time + challengeLife) && r.length = 48 + 64 + sigBytes && leAt r 0 4 < 8 && leAt r 4 4 = 0
      && leAt r 8 8 = Config.identity.toNat && leAt r 16 32 = c.bytes.toNat
      && keyHashOf ((r.drop 48).take 64) = keyHash
      && Config.slhVerify256s ((r.drop 48).take 64) (r.take 48) ((r.drop 112).take sigBytes)

/-- UNLOCK_RESPONSE: each challenge serves one. (DEDUCED, log 115) -/
def unlockResponse (s : State) (r : List Byte) : State :=
  if !s.rootReady then s
  else
    let ok := s.unlockOk r
    let s := { s with sec := { s.sec with challenge := none } }
    if ok then
      let s := s.extend 6 (r.take 48)
      { s with sec := { s.sec with debugScope := s.sec.debugScope ||| BitVec.ofNat 3 (leAt r 0 4), unlocked := true } }
    else { s with sec := { s.sec with rejected := s.sec.rejected + 1 } }

def execUnlockResponse (response : List Byte) (s : State) : Out := .next (unlockResponse s response)

/-- UNLOCK_TIMEOUT: 60 s without a response (R549). -/
def execUnlockTimeout (s : State) : Out :=
  match s.sec.challenge with
  | some c => if c.time + challengeLife ≤ s.now then .next { s with sec := { s.sec with challenge := none } } else .next s
  | none => .next s

end Sys2Proof.Machine
end

