-- ==== Sys2Proof/Machine/Transfer.lean ====
section
/-! DEFINITION. COPY, QUERY and READ_TELEMETRY (R302, R395, R400, R402, R403, R411, R513). -/
namespace Sys2Proof.Machine

/-! ### COPY -/

/-- A side of a COPY (R400): host memory, main memory, or the lower 2 MiB of a tile window. -/
inductive CopySide where
  | host (a : Nat)
  | main (a : Nat)
  | tile (t off : Nat)
deriving DecidableEq, Repr

/-- The side that an address names; none when the map does not let a COPY reach it. (DEDUCED, log 70) -/
def State.copySide (s : State) (host : Bool) (a n : Nat) : Option CopySide :=
  if host then some (.host a)
  else
    match s.place a n with
    | .main m => if m = a then some (.main a) else none
    | .tile t off => some (.tile t off)
    | _ => none

/-- A side behind an isolation wrapper (R403). -/
def State.sideIsolated (s : State) (n : Nat) : CopySide → Bool
  | .host _ => false
  | .main a => (linePieces a n).any fun p => s.memIsolated p.1
  | .tile t _ => s.isolated t

/-- What one side of a COPY answers: bytes or done, a wait for a page or for a tile's initialiser, or a status. -/
inductive CopyAns where
  | ok (bs : List Byte)
  | wait
  | fail (st : CmdStatus) (detail : Nat)
deriving DecidableEq, Repr

/-- Reads the source, or with data writes the destination (R119, R267, R447, R454). -/
def State.copyIo (s : State) (h : HostReply) (n : Nat) (data : Option (List Byte)) : CopySide → State × CopyAns
  | .host a =>
    match s.hostAnswer h, data with
    | .fail e, _ => (s.hostFailed e, .fail .hostError a)
    | .ok, none => (s, .ok (s.getHost a n))
    | .ok, some bs => (s.putHost a bs, .ok [])
  | .main a =>
    match (match data with | none => s.mainRead 4 a n | some bs => s.mainWrite a bs) with
    | (s, .ok bs) => (s, .ok bs)
    | (s, .uncorrectable x) => (s, .fail .memoryUncorrectable x)
    | (s, _) => (s, .fail .notReady 0)
  | .tile t off =>
    if s.isolated t then (s, .fail .notReady 0)
    else if !(s.tile t).mem.ready then (s, .wait)
    else
      match (s.tile t).touch off n with
      | .wait c _ => (s.setTile t c, .wait)
      | .unresolved => (s, .fail .pageFaultUnresolved (tileWindowBase + t * 2 ^ 22 + off))
      | .ok =>
        match data with
        | some bs => (s.modTile t fun c => c.writeData off bs, .ok [])
        | none =>
          match (s.tile t).readData 4 off n with
          | (c, some bs) => (s.setTile t c, .ok bs)
          | (c, none) => (s.setTile t c, .fail .memoryUncorrectable (tileWindowBase + t * 2 ^ 22 + c.badOffset off n))

/-- The two sides of a COPY. -/
def State.copySides (s : State) (c : Held) : Option CopySide × Option CopySide :=
  let n := c.field 0x18 8
  (s.copySide (natBit (c.field 0x20 1) 0) (c.field 8 8) n, s.copySide (natBit (c.field 0x20 1) 1) (c.field 0x10 8) n)

/-- COPY: its checks (R400, R403). -/
def execCopy (n : Nat) (s : State) : Out :=
  startHeld 0x0B n (fun s c =>
    match s.copySides c with
    | (none, _) => s.complete n .badPacket 8 0 false
    | (_, none) => s.complete n .badPacket 0x10 0 false
    | (some a, some b) =>
      if s.sideIsolated (c.field 0x18 8) a || s.sideIsolated (c.field 0x18 8) b then s.complete n .notReady 0 0 false
      else s.setRunning n) s

/-- COPY_COMPLETE: the bytes move; a side that waits for a page leaves the command running (R117, R119). -/
def copyComplete (s : State) (n : Nat) (h : HostReply) (c : Held) : State :=
  let len := c.field 0x18 8
  match s.copySides c with
  | (some a, some b) =>
    match s.copyIo h len none a with
    | (s, .wait) => s
    | (s, .fail st d) => s.complete n st d 0 false
    | (s, .ok bs) =>
      match s.copyIo h len (some bs) b with
      | (s, .wait) => s
      | (s, .fail st d) => s.complete n st d 0 false
      | (s, .ok _) => s.complete n .ok 0 len false
  | _ => s.complete n .notReady 0 0 false

def execCopyComplete (n : Nat) (h : HostReply) (s : State) : Out :=
  endHeld 0x0B n (fun s c => copyComplete s n h c) s

/-! ### QUERY (R402) -/

def words (ws : List Nat) : List Byte := ws.flatMap fun w => leBytes 4 w

/-- Words of a run of registers. -/
def regRun (f : Nat → Nat) (lo n : Nat) : List Byte := words ((List.range n).map fun i => f (lo + 4 * i))

/-- Words of a tile window; all ones when the tile is not in service (R381). -/
def State.windowRun (s : State) (t lo n : Nat) : List Byte :=
  if s.inService t then regRun (s.tileReg t) lo n else List.replicate (4 * n) 0xFF

/-- Device record: the registers named, then the profile, grade, firmware bank, firmware version and U, as words. -/
def State.deviceRecord (s : State) : List Byte :=
  words [s.deviceStatus, s.dieGeometry] ++ s.profile
    ++ words [gradeByte.toNat, b2n s.sec.bootBank, s.sec.fwVersion.toNat, lo32 s.train.u, hi32 s.train.u]

/-- A send-failure record: tile, sequence number, code, failed destinations, lowest failed one (R302). -/
def SendRecord.bytes (r : SendRecord) : List Byte :=
  leBytes 2 r.source ++ leBytes 2 r.seq.toNat ++ leBytes 2 r.code.toNat ++ leBytes 2 r.failed ++ leBytes 2 r.first ++ leBytes 2 0

/-- Records that a selector has (R402). -/
def State.recordCount (s : State) (sel : Nat) : Nat :=
  match sel with
  | 0 | 7 => 1
  | 1 | 2 | 5 => tileCount
  | 3 => 96
  | 4 => 8
  | 6 => 8192
  | 8 => s.host.sendFails.length
  | 9 => 4096
  | _ => heldLimit

/-- Record i of a selector. -/
def State.record (s : State) (sel i : Nat) : List Byte :=
  match sel with
  | 0 => s.deviceRecord
  | 1 => s.windowRun i 0 64
  | 2 => s.windowRun i 0x100 384
  | 3 => words [(s.row i).word]
  | 4 => words ([s.groupReg i 0, s.groupReg i 4, s.groupReg i 8] ++ (List.range 8).map fun k => s.groupReg i (0x20 + 4 * k))
  | 5 => words ((List.range 4).map (s.haulTileReg i))
  | 6 => (s.scaleEntry i).bytes
  | 7 => regRun s.scaleReg 0 16
  | 8 => ((s.host.sendFails[i]?).map SendRecord.bytes).getD []
  | 9 => (s.partner i).bytes i
  | _ => match s.host.journal.find? fun j => j.1 == i with
    | some j => j.2.bytes
    | none => List.replicate 128 0

/-- Takes whole records while they fit. -/
def takeRecordsOf (s : State) (sel : Nat) : List Nat → Nat → List Byte
  | [], _ => []
  | i :: is, room =>
    let r := s.record sel i
    if room < r.length then [] else r ++ takeRecordsOf s sel is (room - r.length)

/-- Selectors whose records are named by a fixed range of indices. -/
def indexed (sel : Nat) : Bool := ([1, 2, 3, 4, 5, 6, 9, 10] : List Nat).contains sel

/-- (DESIGN CHOICE, log 68) -/
def query (s : State) (n : Nat) (h : HostReply) (c : Held) : State :=
  let sel := c.field 8 2
  let first := if sel = 0 || sel = 7 then 0 else c.field 0x0C 4
  let limit := s.recordCount sel
  if indexed sel && limit ≤ first then s.complete n .badPacket 0x0C 0 false
  else
    let bs := takeRecordsOf s sel (rangeFrom first (min (c.field 0x10 4) (limit - first))) (c.field 0x20 4)
    match s.hostAnswer h with
    | .fail e =>
      if bs.isEmpty then s.complete n .ok 0 0 false else (s.hostFailed e).complete n .hostError (c.field 0x18 8) 0 false
    | .ok => (s.putHost (c.field 0x18 8) bs).complete n .ok 0 bs.length false

def execQuery (n : Nat) (h : HostReply) (s : State) : Out := startHeld 0x0D n (fun s c => query s n h c) s

/-! ### READ_TELEMETRY (R402) -/

/-- A telemetry record. -/
def Telemetry.bytes (r : Telemetry) : List Byte :=
  leBytes 8 r.time ++ leBytes 1 r.bit ++ leBytes 1 r.lost ++ leBytes 2 r.block ++ fit 0 20 r.raw

/-- Takes the first k records that the mask selects; the rest stay. -/
def takeTelemetry (mask : Nat) : Nat → List Telemetry → List Telemetry × List Telemetry
  | _, [] => ([], [])
  | 0, l => ([], l)
  | k + 1, r :: rs =>
    if natBit mask r.bit then let x := takeTelemetry mask k rs; (r :: x.1, x.2)
    else let x := takeTelemetry mask (k + 1) rs; (x.1, r :: x.2)

/-- (DEDUCED, log 69) -/
def readTelemetry (s : State) (n : Nat) (h : HostReply) (c : Held) : State :=
  let mask := c.field 8 4
  let r := takeTelemetry mask (c.field 0x18 4 / 32) s.host.telemetry
  let left := (r.2.filter fun x => natBit mask x.bit).length
  match s.hostAnswer h with
  | .fail e =>
    if r.1.isEmpty then s.complete n .ok 0 (fieldAt left 32) false
    else (s.hostFailed e).complete n .hostError (c.field 0x10 8) 0 false
  | .ok =>
    let s := s.putHost (c.field 0x10 8) (r.1.flatMap Telemetry.bytes)
    { s with host := { s.host with telemetry := r.2 } }.complete n .ok 0 (r.1.length + fieldAt left 32) false

def execReadTelemetry (n : Nat) (h : HostReply) (s : State) : Out :=
  startHeld 0x0E n (fun s c => readTelemetry s n h c) s

end Sys2Proof.Machine
end

