-- ==== Sys2Proof/Machine/ModuleRows.lean ====
section
/-! DEFINITION. The module's sideband (R540, R564 to R567). -/
namespace Sys2Proof.Machine

/-- The sideband is served from D1 onward, and while the 48 V input is absent (R555, R564). (DESIGN CHOICE, log 119) -/
def State.sidebandUp (s : State) : Bool :=
  decide (1 ≤ s.pw.stage) || s.pw.standing == .hot || s.pw.standing == .inReset || (s.pw.aux && !s.pw.v48)

/-- FEED_GROUP_WRITE (R566). -/
def execFeedGroupWrite (value : BitVec 9) (s : State) : Out :=
  if s.sidebandUp then .next { s with link := { s.link with feedGroup := value } } else .next s

/-- MCTP_CONTROL: an EID is assigned, or the endpoint answers with its own (R564). -/
def execMctpControl (assign : Option Byte) (s : State) : Out :=
  if !s.sidebandUp then .next s
  else
    match assign with
    | some e => .next ({ s with mod := { s.mod with eid := e } }.setReply (.data [e]))
    | none => .next (s.setReply (.data [s.mod.eid]))

/-! ### Sensors (R565)

Numbers: 0 input voltage, 1 input power, 2 AUX_3V3 voltage, 3 to 8 junctions of benches 0 to 5, 9 coolant inlet, 10 coolant
outlet, 11 power cap in force, 12 twilight events. -/

/-- (DESIGN CHOICE, log 117) -/
def sensorCount : Nat := 13

/-- PLDM_SENSOR_READ: the reading of the last refresh. -/
def execPldmSensorRead (sensor : Nat) (s : State) : Out :=
  if sensorCount ≤ sensor then .fault .noSuchUnit
  else if s.sidebandUp then .next (s.setReply (.data (leBytes 4 (NMap.get 0 s.mod.sensors sensor)))) else .next s

/-- What a sensor reads now: the block's own values where it has them, otherwise what the module's monitors measure. -/
def State.sensorNow (s : State) (readings : List Nat) (k : Nat) : Nat :=
  if k = 1 then s.pw.inputW
  else if 3 ≤ k && k ≤ 8 then (s.bench (k - 3)).junction
  else if k = 11 then s.pw.cap
  else if k = 12 then s.pw.twiCount.toNat
  else readings.getD k 0

/-- A reading crosses an enabled threshold, in either direction. -/
def crosses (old new : Nat) (k : Nat) : Bool :=
  match Config.sensorThreshold k with
  | some t => decide (old ≤ t) != decide (new ≤ t)
  | none => false

/-- BENCH_CLOCK_b.junction_c takes what the junction sensors of the six benches measure (R532, R565). -/
def State.readJunctions (s : State) (readings : List Nat) : State :=
  (List.range 6).foldl (fun s b =>
    match readings[3 + b]? with
    | some c => s.setBench b { s.bench b with junction := c }
    | none => s) s

/-- SENSOR_REFRESH (R565, R567). -/
def sensorRefresh (s : State) (readings : List Nat) : State :=
  let s := s.readJunctions readings
  let new := (List.range sensorCount).map (s.sensorNow readings)
  let hit := (List.range sensorCount).any fun k => crosses (NMap.get 0 s.mod.sensors k) (new.getD k 0) k
  let s := { s with mod := { s.mod with
    sensors := (List.range sensorCount).foldl (fun m k => NMap.set 0 m k (new.getD k 0)) s.mod.sensors } }
  if hit then s.alert 0 else s

def execSensorRefresh (readings : List Nat) (s : State) : Out := .next (sensorRefresh s readings)

/-! ### ALERT_N (R567) -/

/-- The module's static address (R564). -/
def moduleAddress : Byte := 0x62

/-- ALERT_RESPONSE_READ: the module answers with its address and releases ALERT_N. -/
def execAlertResponseRead (s : State) : Out :=
  if s.mod.alert then .next ({ s with mod := { s.mod with alert := false, conditions := [] } }.setReply (.data [moduleAddress]))
  else .next s

/-- PLDM_EVENT_POLL: one condition is read; ALERT_N is released once none is left. (DESIGN CHOICE, log 118) -/
def execPldmEventPoll (s : State) : Out :=
  match s.mod.conditions with
  | c :: cs =>
    .next ({ s with mod := { s.mod with alert := s.mod.alert && !cs.isEmpty, conditions := cs } }.setReply
      (.data [BitVec.ofNat 8 c]))
  | [] => .next s

/-! ### Vendor-defined messages (R540, R564) -/

/-- Queue number and journal slot that stand for the sideband among held commands. -/
def sidebandQueue : Nat := 64
def sidebandSlot : Nat := 256

/-- Commands that the sideband carries in diagnostic service (R564). -/
def sidebandOps : List Nat := [0x0D, 0x0E, 0x13, 0x14]

/-- A command packet over the sideband is held like one of the admin queue, without a journal entry. -/
def State.sidebandCommand (s : State) (p : List Byte) : State :=
  let n := s.host.nextStart
  let s := { s with host := { s.host with
    held := s.host.held ++ [Held.mk n sidebandQueue p sidebandSlot .waiting], nextStart := n + 1 } }
  if !sidebandOps.contains (leAt p 0 1) then s.complete n .badPacket 0 0 false
  else
    match s.refuse 0 p with
    | some r => s.complete n r.1 r.2 0 false
    | none => s

/-- The reply to the oldest completed sideband command, in the format of R397. -/
def State.sidebandReply (s : State) : State :=
  match s.host.done.find? (·.queue == sidebandQueue) with
  | some d => { s with host := { s.host with done := dropDone sidebandQueue s.host.done } }.setReply (.data (d.reply 0 false))
  | none => s.setReply (.data [])

/-- SIDEBAND_VENDOR_PACKET: while the ROM waits for an image over the sideband, a recovery piece, and an empty message once
all have come; in diagnostic service, a command packet of 64 bytes, and an empty message that asks for a reply. -/
def sidebandPacket (s : State) (m : List Byte) : State :=
  if s.pw.standing == .recovery && s.sec.recSideband then (if m.isEmpty then s.finishRecovery else s.takePiece m)
  else if s.pw.service ≠ 1 then s
  else if m.isEmpty then s.sidebandReply
  else if m.length = 64 then s.sidebandCommand m
  else s

def execSidebandVendorPacket (message : List Byte) (s : State) : Out := .next (sidebandPacket s message)

end Sys2Proof.Machine
end

