-- ==== Sys2Proof/Machine/RegWrite.lean ====
section
/-! DEFINITION. What a write of BAR0 does at every offset, and the broadcast windows (R11, R27, R84, R88, R104, R133, R137, R208,
R212, R213, R248, R270, R306, R307, R312, R327, R330, R333, R342, R367 to R370, R376 to R385, R388 to R391, R411, R441, R443,
R464, R495, R496, R506, R528 to R532, R540, R551, R553, R576). A write of a register that has a row of its own does what that
row does. -/
namespace Sys2Proof.Machine

/-- A 64-bit register with its low or its high word replaced. -/
def withLo (r : Word64) (w : Word32) : Word64 := r.extractLsb' 32 32 ++ w
def withHi (r : Word64) (w : Word32) : Word64 := w ++ r.extractLsb' 0 32

/-- A word with its low n bits zero. -/
def dropLow (n : Nat) (w : Word32) : Word32 := w &&& (BitVec.allOnes 32 <<< n)

/-! ### Device control, queues and doorbells (R377, R379, R382, R385, R388 to R391) -/

/-- BAR2_WINDOW: the base is stored rounded down to a multiple of the aperture's size (R385). -/
def State.setBar2 (s : State) (base : Word64) : State :=
  { s with host := { s.host with bar2Base := BitVec.ofNat 64 (base.toNat / s.bar2Size * s.bar2Size) } }

/-- EVENT_STATUS: a 1 clears its bit (R379). -/
def State.clearEvents (s : State) (w : Word32) : State :=
  { s with host := { s.host with event := s.host.event &&& ~~~w.setWidth 13 } }

def State.writeDevice (s : State) (o : Nat) (w : Word32) : State :=
  let h := s.host
  if o = 0x010 then s.clearEvents w
  else if o = 0x014 then
    { s with host := { h with evIrq := w.getLsbD 31, evVector := w.extractLsb' 24 7, evEnable := w.setWidth 13 } }
  else if o = 0x020 then s.setBar2 (withLo h.bar2Base (dropLow 30 w))
  else if o = 0x024 then s.setBar2 (withHi h.bar2Base w)
  else if 0x100 ≤ o && o < 0x140 then
    { s with host := { h with bcast := NMap.set 0xE000_0000 h.bcast ((o - 0x100) / 4) (w &&& 0xEFFF_FFC7) } }
  else s

/-- Registers of queue q: the bases accept writes only while enable is 0 (R388). -/
def State.writeQueue (s : State) (o : Nat) (w : Word32) : State :=
  let q := o / 64
  let x := s.queue q
  let base (y : Queue) : State := if x.enable then s else s.setQueue q y
  match o % 64 with
  | 0x00 => base { x with sqBase := withLo x.sqBase (dropLow 12 w) }
  | 0x04 => base { x with sqBase := withHi x.sqBase w }
  | 0x08 => base { x with cqBase := withLo x.cqBase (dropLow 12 w) }
  | 0x0C => base { x with cqBase := withHi x.cqBase w }
  | 0x10 => s.queueConfig q w
  | _ => s

/-- The doorbell page (R391). -/
def State.writeDoorbell (s : State) (o : Nat) (w : Word32) : State :=
  let q := o / 8
  let i := w.toNat % 4096
  if queueCount ≤ q then s else if natBit o 2 then cqDoorbell s q i else sqDoorbell s q i []

/-! ### Haul, random, training and scale-unit blocks (R212, R306, R307, R312, R333, R367 to R370) -/

/-- A block whose writes are dropped while firmware rewrites the tiles (R384). -/
def guarded (f : State → State) (s : State) : State := if s.dropsExpert then s.countDropped else f s

def State.writeHaul (s : State) (o : Nat) (w : Word32) : State :=
  if o = 0 then
    State.keepEligible { s with bell := { s.bell with
      timeoutEnable := w.getLsbD 16, timeoutMs := if w.setWidth 16 = (0 : BitVec 16) then 1 else w.setWidth 16 } }
  else if o = 4 then (if w.getLsbD 31 then { s with bell := { s.bell with record := s.bell.record.clear } } else s)
  else if 0x1000 ≤ o && o < 0x1000 + 16 * tileCount && o % 16 = 0xC && w.getLsbD 31 then
    s.modTile ((o - 0x1000) / 16) fun c => { c with sd := { c.sd with fail := c.sd.fail.clear } }
  else s

/-- The low word of a seed: the key and the arming no longer follow the seed (R333). (DEDUCED, log 56) -/
def State.writeSeedLo (s : State) (keyed : Bool) (w : Word32) : State :=
  let r := s.random
  if keyed then
    let seed := withLo r.keyedSeed w
    { s with random := { r with keyedSeed := seed, keyValid := r.keyValid && r.keyedSeed == seed } }
  else
    let seed := withLo r.freeSeed w
    { s with random := { r with freeSeed := seed, freeArmed := r.freeArmed && r.freeSeed == seed } }

def State.writeRandom (s : State) (o : Nat) (w : Word32) : State :=
  match o with
  | 0x08 => s.writeSeedLo true w
  | 0x0C => s.writeSeedKeyedHi w
  | 0x10 => s.writeSeedLo false w
  | 0x14 => s.writeSeedFreeHi w
  | _ => s

/-- A number clamped to a range. -/
def clamp (lo hi n : Nat) : Nat := max lo (min hi n)

/-- The update count; the bank status word follows it until the next step start (R342). -/
def Train.setU (t : Train) (u : Word64) : Train := { t with u := u, uSampled := none }

def Train.write (t : Train) (o : Nat) (w : Word32) : Train :=
  match o with
  | 0x00 => { t with enable := w.getLsbD 31 }
  | 0x08 => t.setU (withLo t.u w)
  | 0x0C => t.setU (withHi t.u w)
  | 0x10 => { t with bankA := withLo t.bankA (dropLow 12 w) }
  | 0x14 => { t with bankA := withHi t.bankA w }
  | 0x18 => { t with bankB := withLo t.bankB (dropLow 12 w) }
  | 0x1C => { t with bankB := withHi t.bankB w }
  | 0x20 => { t with bankLen := withLo t.bankLen (dropLow 12 w) }
  | 0x24 => { t with bankLen := withHi t.bankLen w }
  | 0x40 =>
    { t with ledgerEnable := w.getLsbD 31, ledgerLog2 := clamp 6 24 (w.extractLsb' 26 5).toNat
             ledgerGroup := if (w.extractLsb' 0 4).toNat ≤ 8 then w.extractLsb' 0 4 else 8 }
  | 0x48 => { t with ledgerBase := withLo t.ledgerBase (dropLow 6 w) }
  | 0x4C => { t with ledgerBase := withHi t.ledgerBase w }
  | 0x80 => { t with normEnable := w.getLsbD 31, normLayers := clamp 1 4096 (w.extractLsb' 0 13).toNat }
  | 0x88 => { t with normBase := withLo t.normBase (dropLow 6 w) }
  | 0x8C => { t with normBase := withHi t.normBase w }
  | _ => t

/-- The training block: LEDGER_READ_INDEX at any time, the rest between steps (R367). -/
def State.writeTrain (s : State) (o : Nat) (w : Word32) : State :=
  if o = 0x54 then { s with train := { s.train with ledgerRead := w } }
  else if s.step.isSome then s
  else { s with train := s.train.write o w }

def State.writeScale (s : State) (o : Nat) (w : Word32) : State :=
  if o = 0 then s.setLossScale (w.extractLsb' 0 5).toNat (w.extractLsb' 12 20).toNat
  else if 0x10_0000 ≤ o && o < 0x20_0000 then s.writeScaleWord ((o - 0x10_0000) / 128) (o % 128 / 4) w
  else s

/-! ### Power, links, main memory, resilience, security (R441, R443, R464, R495, R496, R528 to R531, R540, R551, R553) -/

/-- RESET_CONTROL: the hold is released before a reset is taken (R530). -/
def State.resetControl (s : State) (w : Word32) : State :=
  let s := if w.getLsbD 29 then s.releaseHold else s
  if w.getLsbD 31 then s.resetDevice (.command (w.getLsbD 30)) else s

/-- BLOCK_RESET: as written, without checks; a block that does not exist is not reset (R530). -/
def State.writeBlockReset (s : State) (w : Word32) : State :=
  let k := (w.extractLsb' 27 3).toNat
  let i := (w.extractLsb' 0 11).toNat
  let s := { s with pw := { s.pw with blkKind := w.extractLsb' 27 3, blkIndex := w.extractLsb' 0 11 } }
  if w.getLsbD 31 && i < blockCount k then s.startBlock none k i else s

def State.writePower (s : State) (o : Nat) (w : Word32) : State :=
  if o = 0x004 then s.resetControl w
  else if o = 0x010 then powerControl s w
  else if o = 0x014 then { s with pw := { s.pw with cap := clamp 1200 3000 (w.extractLsb' 0 12).toNat } }
  else if 0x040 ≤ o && o < 0x080 then { s with pw := { s.pw with bkp := NMap.set 0 s.pw.bkp ((o - 0x040) / 4) w } }
  else if o = 0x100 then s.writeBlockReset w
  else if o = 0x200 then { s with pw := { s.pw with retPage := w.getLsbD 0 } }
  else s

/-- ETH_CONTROL: an enabled port trains, a disabled one is down (R441). (DEDUCED, log 84) -/
def State.writeEthControl (s : State) (e : Nat) (w : Word32) : State :=
  let x := s.ethPort e
  let y := { x with enable := w.getLsbD 31, vlan := w.extractLsb' 16 12, pcp := w.extractLsb' 13 3, pfcEnable := w.getLsbD 12 }
  if !y.enable then s.setEth e { y with state := 0 }
  else if x.state = 0 && s.link.srefclk && !s.portGated (8 + e) && !s.portInReset (8 + e) && !s.deviceAsleep then
    s.setEth e { y with state := 1 }
  else s.setEth e y

def State.writeEth (s : State) (e o : Nat) (w : Word32) : State :=
  let x := s.ethPort e
  match o with
  | 0x04 => s.writeEthControl e w
  | 0x10 => s.setEth e { x with nextHop := x.nextHop.extractLsb' 32 16 ++ w }
  | 0x14 => s.setEth e { x with nextHop := w.extractLsb' 0 16 ++ x.nextHop.extractLsb' 0 32 }
  | 0x18 => s.setEth e { x with ipv4 := w }
  | _ =>
    if 0x20 ≤ o && o < 0x30 then
      s.setEth e { x with ipv6 := BitVec.ofNat 128 (leAt (patch (leBytes 16 x.ipv6.toNat) (o - 0x20) (leBytes 4 w.toNat)) 0 16) }
    else s

/-- Some Ethernet entry is up: its context holds the UDP port (R443). -/
def State.anyEthUp (s : State) : Bool := s.upPartners.any fun p => p.2.path == 1

def State.writeLink (s : State) (o : Nat) (w : Word32) : State :=
  let l := s.link
  if o = 0x10 then
    { s with link := { l with pfcPriority := w.extractLsb' 16 3, udpPort := if s.anyEthUp then l.udpPort else w.setWidth 16 } }
  else if o = 0x14 then { s with link := { l with select := w.setWidth 12, staged := [] } }
  else if o = 0x18 then
    let s := if w.getLsbD 0 then partnerCommit s else s
    if w.getLsbD 1 then s.emptyEntry s.link.select.toNat else s
  else if 0x80 ≤ o && o < 0xC0 then { s with link := { l with staged := NMap.put l.staged ((o - 0x80) / 4) w } }
  else if 0x100 ≤ o && o < 0x200 then s.writeEth ((o - 0x100) / 0x40) (o % 0x40) w
  else s

def State.writeMem (s : State) (o : Nat) (w : Word32) : State :=
  if o = 0 then
    { s with mm := { s.mm with next := { pools := w.getLsbD 4, unchecked := w.getLsbD 5, rate := w.getLsbD 6 } } }
  else if o = 0x20 then
    (if w.getLsbD 31 then { s with mm := { s.mm with ueLog := s.mm.ueLog.clear, ueAddr := 0 } } else s)
  else s

def Resilience.write (r : Resilience) (o : Nat) (w : Word32) : Resilience :=
  match o with
  | 0x00 =>
    { r with protect := w.getLsbD 31, partner := w.extractLsb' 16 12, interval := w.extractLsb' 0 8
             path := if w.extractLsb' 14 2 = 3 then 2 else w.extractLsb' 14 2 }
  | 0x10 => { r with recoveryBase := withLo r.recoveryBase (dropLow 16 w) }
  | 0x14 => { r with recoveryBase := withHi r.recoveryBase w }
  | 0x18 => { r with inputRing := w &&& 0xFF8F_FFFF }
  | 0x20 => { r with shadowBase := withLo r.shadowBase (dropLow 16 w) }
  | 0x24 => { r with shadowBase := withHi r.shadowBase w }
  | 0x28 => { r with shadowLength := w }
  | 0x30 => { r with homeBase := withLo r.homeBase (dropLow 16 w) }
  | 0x34 => { r with homeBase := withHi r.homeBase w }
  | 0x38 => { r with homeLength := w }
  | 0x40 => { r with foreignBase := withLo r.foreignBase (dropLow 16 w) }
  | 0x44 => { r with foreignBase := withHi r.foreignBase w }
  | 0x48 => { r with foreignConfig := w }
  | _ => r

/-- Only while no step, restore or drain runs (R495). -/
def State.writeRes (s : State) (o : Nat) (w : Word32) : State :=
  if s.step.isSome || s.res.restore.isSome || s.res.drain.isSome then s else { s with res := s.res.write o w }

/-- The security block: the window is accepted only in recovery over PCIe (R540, R551, R553). -/
def State.writeSec (s : State) (o : Nat) (w : Word32) : State :=
  let open' := s.pw.standing == .recovery && !s.sec.recSideband
  if o = 0x400 then
    let s := { s with sec := { s.sec with recTarget := w.getLsbD 25 } }
    let s := if open' && w.getLsbD 31 then s.takePiece (NMap.getRun 0 s.sec.recWindow 0 pieceBytes) else s
    if open' && w.getLsbD 30 then s.finishRecovery else s
  else if 0x8000 ≤ o && open' then
    { s with sec := { s.sec with recWindow := NMap.setRun 0 s.sec.recWindow (o - 0x8000) (leBytes 4 w.toNat) } }
  else s

/-! ### The broadcast windows (R382) -/

/-- The logical tiles that a selector covers; none when it is disabled or invalid. -/
def State.bcastTiles (s : State) (sel : Word32) : Option (List Nat) :=
  let f (lo n : Nat) : Nat := (sel.extractLsb' lo n).toNat
  let x0 := f 11 6
  let x1 := f 22 6
  let y0 := f 6 5
  let y1 := f 17 5
  let i := f 0 3
  let k := f 29 3
  let pick (p : Nat → Bool) : Option (List Nat) := some ((List.range tileCount).filter p)
  let cols (t : Nat) : Bool := decide (x0 ≤ s.tx t) && decide (s.tx t ≤ x1)
  let rows (t : Nat) : Bool := decide (y0 ≤ s.ty t) && decide (s.ty t ≤ y1)
  if x1 < x0 || y1 < y0 || 47 < x1 || 31 < y1 || (k == 1 && decide (5 < i)) || (k == 2 && decide (1 < i)) then none
  else
    match k with
    | 0 => pick fun _ => true
    | 1 => pick fun t => s.tb t == i
    | 2 => pick fun t => b2n (benchSouth (s.tb t)) == i
    | 3 => pick rows
    | 4 => pick cols
    | 5 => pick fun t => cols t && rows t
    | 6 => pick fun t => (s.group i).loaded && (s.group i).members.contains t
    | _ => none

/-- The same register write at each tile in service, in order; the others are skipped. -/
def writeTiles (off w : Nat) : List Nat → State → Out
  | [], s => .next s
  | t :: ts, s =>
    if s.inService t then
      match tileWrite t off w s with
      | .next s => writeTiles off w ts s
      | o => o
    else writeTiles off w ts s

/-- A write through broadcast window w. -/
def broadcast (w off v : Nat) (s : State) : Out :=
  if s.dropsExpert then .next s.countDropped
  else
    match s.bcastTiles (NMap.get 0xE000_0000 s.host.bcast w) with
    | some ts => writeTiles off v ts s
    | none => .next s.countTileErr

/-- Broadcast windows. -/
def bcastCount : Nat := 16

/-- BROADCAST_WRITE: an aligned write of a register of window w. -/
def execBroadcastWrite (w offset : Nat) (value : Word32) (s : State) : Out :=
  if bcastCount ≤ w || 0x1000 ≤ offset then .fault .noSuchUnit
  else if offset % 4 ≠ 0 then .next (s.logAer .unsupported)
  else if !s.pw.diagReady then .next s
  else broadcast w offset value.toNat s

/-! ### BAR0 as a whole (R373, R374, R376, R384, R540) -/

/-- A block of BAR0 below the tile windows: base, size, what a write does, and whether it decodes in recovery. -/
structure WriteBlock where
  base : Nat
  size : Nat
  recovery : Bool
  write : State → Nat → Word32 → State

/-- The blocks of R376 that accept writes; the repair state block has none (R27). -/
def writeBlocks : List WriteBlock :=
  [⟨0x0, 0x1000, true, State.writeDevice⟩, ⟨0x1000, 0x1000, false, State.writeQueue⟩,
   ⟨0x2000, 0x1000, false, State.writeDoorbell⟩,
   ⟨0x11_0000, 0x8000, false, fun s o w => guarded (fun s => s.writeHaul o w) s⟩,
   ⟨0x12_0000, 0x4000, false, fun s o w => expertIdle (fun s => s.writeRandom o w) s⟩,
   ⟨0x13_0000, 0x4000, false, fun s o w => guarded (fun s => s.writeTrain o w) s⟩,
   ⟨0x14_0000, 0x1_0000, false, State.writePower⟩, ⟨0x15_0000, 0x1_0000, false, State.writeLink⟩,
   ⟨0x16_0000, 0x1_0000, false, State.writeMem⟩, ⟨0x17_0000, 0x1_0000, false, State.writeRes⟩,
   ⟨0x18_0000, 0x1_0000, true, State.writeSec⟩,
   ⟨0x20_0000, 0x20_0000, false, fun s o w => expertIdle (fun s => s.writeScale o w) s⟩]

/-- An aligned 32-bit write of BAR0 below the tile windows; an offset that no block decodes ignores it. (DEDUCED, log 71) -/
def State.writeReg (s : State) (o : Nat) (w : Word32) : State :=
  match writeBlocks.find? fun b => decide (b.base ≤ o) && decide (o < b.base + b.size) with
  | some b => if s.pw.diagReady || (b.recovery && s.pw.standing == .recovery) then b.write s (o - b.base) w else s
  | none => s

/-- An aligned 32-bit write of BAR0. -/
def bar0Write (offset : Nat) (value : Word32) (s : State) : Out :=
  if offset < tileWindows then .next (s.writeReg offset value)
  else if !s.pw.diagReady then .next s
  else if offset < tileWindows + 0x1000 * tileCount then
    windowWrite ((offset - tileWindows) / 0x1000) (tileWrite ((offset - tileWindows) / 0x1000) (offset % 0x1000) value.toNat) s
  else if bcastWindows ≤ offset && offset < bcastWindows + 0x1000 * bcastCount then
    broadcast ((offset - bcastWindows) / 0x1000) (offset % 0x1000) value.toNat s
  else .next s

/-- Words of a write, lowest address first. -/
def wordsOf (bs : List Byte) : List Word32 := (List.range (bs.length / 4)).map fun i => BitVec.ofNat 32 (leAt bs (4 * i) 4)

/-- A write of a BAR by the host: one aligned word, or an aligned pair of words, low word first; any other access is an
Unsupported Request (R376). -/
def barWrite (f : Nat → Word32 → State → Out) (o : Nat) (bs : List Byte) (s : State) : Out :=
  if !((bs.length = 4 && o % 4 = 0) || (bs.length = 8 && o % 8 = 0)) then .next (s.logAer .unsupported)
  else
    match wordsOf bs with
    | [lo, hi] =>
      match f o lo s with
      | .next s => f (o + 4) hi s
      | x => x
    | [w] => f o w s
    | _ => .next s

/-- A word of BAR4: the MSI-X table; the PBA is read-only (R375, R408). -/
def State.writeBar4 (s : State) (o : Nat) (w : Word32) : State :=
  let v := o / 16
  let e := s.msix v
  if vectorCount ≤ v then s
  else
    match o % 16 with
    | 0 => s.setMsix v { e with addr := withLo e.addr (dropLow 2 w) }
    | 4 => s.setMsix v { e with addr := withHi e.addr w }
    | 8 => s.setMsix v { e with data := w }
    | _ => s.setMsix v { e with unmasked := !w.getLsbD 0 }

/-- A register of configuration space; the sizes do not pass the values of R371, and an aperture size that R375 does not give is
not taken. (PRESUMED, log 8) -/
def State.writeConfig (s : State) (r : ConfigReg) (w : Word32) : State :=
  let h := s.host
  let p := h.pcie
  let set (p : Pcie) : State := { s with host := { h with pcie := p } }
  match r with
  | .identity | .classCode => s
  | .command => set { p with busMaster := w.getLsbD 2 }
  | .deviceControl =>
    set { p with
      maxPayload := if (2 : BitVec 3).ult (w.extractLsb' 5 3) then 2 else w.extractLsb' 5 3
      maxRead := if (5 : BitVec 3).ult (w.extractLsb' 12 3) then 5 else w.extractLsb' 12 3 }
  | .linkControl => set { p with aspmL1 := w.getLsbD 1 }
  | .aerUncorrectable => set { p with aer := p.aer.filter fun e => e == .receiver || !w.getLsbD e.bit }
  | .aerCorrectable => set { p with aer := p.aer.filter fun e => e != .receiver || !w.getLsbD 0 }
  | .bar2Size =>
    let n := 20 + (w.extractLsb' 8 6).toNat
    if 30 ≤ n && n ≤ 41 then { s with host := { h with bar2Log2 := n } } else s

/-- REGISTER_WRITE. Before step 3 of R373 a configuration write is answered with Request Retry Status and does nothing. -/
def execRegisterWrite (target : HostTarget) (bytes : List Byte) (s : State) : Out :=
  match target with
  | .bar0 o => barWrite bar0Write o bytes s
  | .bar4 o => if s.configOpen then barWrite (fun o w s => .next (s.writeBar4 o w)) o bytes s else .next s
  | .config r =>
    .next (if s.configOpen then s.writeConfig r (BitVec.ofNat 32 (leAt bytes 0 4)) else s.setReply .retry)
  | .time => .next (if s.configOpen then s.setTime (leAt bytes 0 8) else s)

end Sys2Proof.Machine
end

