-- ==== Sys2Proof/Machine/Restore.lean ====
section
/-! DEFINITION. RESTORE and its end (R433, R474 to R476, R485 to R489, R339, R342). -/
namespace Sys2Proof.Machine

/-! ### The checks (R485) -/

/-- The copy's place: its entry for a partner copy, or none for one in main memory. -/
def State.restorePath (s : State) (h : Held) : Except (CmdStatus × Nat) (Option Nat) :=
  if h.field 8 1 = 1 then .ok none
  else
    let p := s.partner (h.field 0x0A 2)
    if p.state ≠ 2 || p.path = 2 then .error (.notReady, 0)
    else if p.path = 0 && p.hops ≠ 1 then .error (.badPacket, 0x0A)
    else .ok (some (h.field 0x0A 2))

/-- The manifest: read from main memory, or fetched from the partner. -/
def State.restoreManifest (s : State) (h : Held) (fetched : Option (List Byte)) : State × Except (CmdStatus × Nat) (List Byte) :=
  if h.field 8 1 = 1 then
    match s.mainRead 5 (h.field 0x10 8) 256 with
    | (s, .ok bs) => (s, .ok bs)
    | (s, .outside) => (s, .error (.badPacket, 0x10))
    | (s, .isolated) => (s, .error (.notReady, 0))
    | (s, .uncorrectable a) => (s, .error (.memoryUncorrectable, a))
  else
    match fetched with
    | some bs => (s, .ok (fit 0 256 bs))
    | none => (s, .error (.notReady, 0))

/-- Checks 1 to 4 (R485). -/
def State.restoreFault (s : State) (h : Held) (i : Image) (m : List Byte) : Option (CmdStatus × Nat) :=
  let u := h.field 0x18 8
  let grade := (m.drop 0x80).headD 0
  if m.take 8 ≠ copyMagic || sealManifest m ≠ m || !natBit (leAt m 0x81 1) 0 then some (.digestMismatch, h.field 0x10 8)
  else if u ≠ leAt m 0x10 8 && u ≠ 2 ^ 64 - 1 then some (.badPacket, 0x18)
  else if leAt m 0x20 8 ≠ s.train.bankLen.toNat then some (.badPacket, 0x10)
  else if (m.drop 0x70).take 16 ≠ i.layoutId then
    (if grade ≠ gradeByte then some (.gradeMismatch, 0) else some (.badPacket, 0x10))
  else if (m.drop 0x50).take 32 ≠ s.profile && !h.flag 3 then some (.profileMismatch, 0)
  else none

/-- RESTORE: its checks; the copy follows at RESTORE_COMPLETE. (DEDUCED, log 102) -/
def restore (s : State) (n : Nat) (fetched : Option (List Byte)) (h : Held) : State :=
  let fail (s : State) (e : CmdStatus × Nat) : State := s.complete n e.1 e.2 0 false
  match s.image with
  | none => fail s (.notReady, 0)
  | some i =>
    match s.restorePath h with
    | .error e => fail s e
    | .ok partner =>
      match s.restoreManifest h fetched with
      | (s, .error e) => fail s e
      | (s, .ok m) =>
        match s.restoreFault h i m with
        | some e => fail s e
        | none =>
          { s.setRunning n with res := { s.res with
            restore := some ⟨n, m, h.field 0x10 8, partner, h.flag 3 && (m.drop 0x50).take 32 != s.profile⟩ } }

def execRestore (n : Nat) (manifest : Option (List Byte)) (s : State) : Out :=
  startHeld 0x06 n (fun s h => restore s n manifest h) s

/-! ### The restore itself (R486) -/

/-- A scale-table entry from its 128 snapshot bytes; in_view stays as the loaded image set it. -/
def ScaleEntry.restored (e : ScaleEntry) (bs : List Byte) : ScaleEntry :=
  let c := leAt bs 0 4
  { histLen := bitsAt c 0 4 + 1, margin := BitVec.ofNat 3 (bitsAt c 4 3), privileged := natBit c 7
    format := BitVec.ofNat 8 (bitsAt c 8 8), inView := e.inView, posted := natBit c 17, initialised := natBit c 18
    scale := BitVec.ofNat 32 (leAt bs 4 4), pending := BitVec.ofNat 32 (leAt bs 8 4), histCount := leAt bs 12 4
    history := (List.range 16).map fun i => BitVec.ofNat 32 (leAt bs (16 + 4 * i) 4) }

/-- Writes the snapshot of the scale table back. -/
def State.restoreScales (s : State) (table : List Byte) : State :=
  (List.range 8192).foldl (fun s n => s.setScaleEntry n ((s.scaleEntry n).restored ((table.drop (128 * n)).take 128))) s

/-- Resident pages and shadow slot of a tile, as LOAD_IMAGE with load_resident 1 writes them (R466, R486). -/
def State.restoreResident (s : State) (i : Image) (t : Nat) : State :=
  let pages := i.residentWritten t true
  let s := s.modTile t fun c =>
    let c := ((i.written t true).filter fun g => g.kind == 1).foldl (fun c g => c.loadBytes g.offset g.data) c
    { c with pages := { c.pages with shadowWritten := c.pages.shadowWritten.filter fun p => !pages.contains p } }
  if s.res.shadowLength = 0 then s else s.shadowPages t pages

/-- The log entries of a mirror that are newer than last_step (R487); `hi` is the copy's log index. -/
def newerEntries (log : List Byte) (lastStep hi : Nat) : Option (Nat × Nat) :=
  if hi = 2 ^ 64 - 1 then none
  else
    let lo := hi + 1 - min (hi + 1) 4096
    let entry (i : Nat) : List Byte := (log.drop (256 * (i % 4096))).take 256
    let ends := (rangeFrom lo (hi + 1 - lo)).filter fun i =>
      leAt (entry i) 0 8 == lastStep && natBit (leAt (entry i) 0x51 1) 1 && leAt (entry i) 0xD0 8 == i
    let first := match ends.getLast? with
      | some i => i + 1
      | none => lo
    if hi < first then none else some (first, hi)

/-- What a restore sets once everything has been verified (R323, R486, R487, R489). -/
def State.applyCopy (s : State) (r : Restore) (body : List Byte) : State :=
  let m := r.manifest
  let hi := leAt m 0x98 8
  let log := body.take (2 ^ 20)
  let s := s.restoreScales ((body.drop (2 ^ 20)).take (2 ^ 20))
  let s := s.mainPut s.res.recoveryBase.toNat log
  let s := match s.image with
    | some i => (List.range i.tiles).foldl (fun (s : State) t => s.restoreResident i t) s
    | none => s
  let newer := newerEntries log (leAt m 0x18 8) hi
  let stuck := s.res.state == RecoveryState.restoreRequired && r.partner.isNone
  { s with
    lastDone := if leAt m 0x18 8 = 2 ^ 64 - 1 then none else some (BitVec.ofNat 64 (leAt m 0x18 8))
    train := { s.train with u := BitVec.ofNat 64 (leAt m 0x10 8), uSampled := none }
    scale := { s.scale with k := leAt m 0x83 1, clean := leAt m 0x84 4 }
    res := { s.res with
      logIndex := BitVec.ofNat 64 (hi + 1), lastStep := BitVec.ofNat 64 (leAt m 0x18 8), forced := s.res.forced || r.forced
      replay := newer.map fun (p : Nat × Nat) => Replay.mk (BitVec.ofNat 64 p.1) (BitVec.ofNat 64 p.1) (BitVec.ofNat 64 p.2) r.forced
      state := if stuck then .restoreRequired else .replay } }

/-- Check 5: the first chunk whose leaf differs, or the copy itself when only its root does (R485). -/
def copyFault (r : Restore) (body leaves : List Byte) : Option Nat :=
  let own := digestLeaves body
  match (List.range own.length).find? fun j => own.getD j [] != (leaves.drop (32 * j)).take 32 with
  | some j => some (r.address + copyBodyAt + j * chunkBytes)
  | none => if rootOf body.length own = (r.manifest.drop 0x30).take 32 then none else some r.address

/-- The body and the leaf table at hand: the bank is written, and the copy verified (R485 check 5, R486). -/
def State.finishRestore (s : State) (r : Restore) (bs : List Byte) : State :=
  let bankLen := leAt r.manifest 0x20 8
  let body := fit 0 (bodyBytes bankLen) bs
  let base := if leAt r.manifest 0x10 8 % 2 = 1 then s.train.bankB else s.train.bankA
  let s := s.mainPut base.toNat (body.drop (2 ^ 21))
  match copyFault r body (bs.drop (bodyBytes bankLen)) with
  | some a => ({ s with runnable := false }.setResState .restoreRequired).complete r.n .digestMismatch a 0 false
  | none => (s.applyCopy r body).complete r.n .ok 0 0 false

/-- Length of a body with its leaf table. -/
def bodyAndLeaves (bankLen : Nat) : Nat := bodyBytes bankLen + 32 * bodyChunks bankLen

/-- RESTORE_COMPLETE: the copy from the partner, or from the device's own main memory. -/
def restoreComplete (s : State) (copy : Option (List Byte)) (r : Restore) : State :=
  let s := { s with res := { s.res with restore := none } }
  if r.partner.isSome then
    match copy with
    | some bs => s.finishRestore r bs
    | none => s.complete r.n .notReady 0 0 false
  else
    match s.mainRead 5 (r.address + copyBodyAt) (bodyAndLeaves (leAt r.manifest 0x20 8)) with
    | (s, .ok bs) => s.finishRestore r bs
    | (s, .outside) => s.complete r.n .badPacket 0x10 0 false
    | (s, .isolated) => s.complete r.n .notReady 0 0 false
    | (s, .uncorrectable a) => s.complete r.n .memoryUncorrectable a 0 false

def execRestoreComplete (n : Nat) (copy : Option (List Byte)) (s : State) : Out :=
  match s.res.restore with
  | some r => if r.n = n then endHeld 0x06 n (fun s _ => restoreComplete s copy r) s else .next s
  | none => .next s

end Sys2Proof.Machine
end

