-- ==== Sys2Proof/Machine/Dispatch.lean ====
section
/-! DEFINITION. One arm per command: its meaning. -/
namespace Sys2Proof.Machine

def exec (i : Instr) (s : State) : Host.Outcome State Fault Refusal :=
  match i with
  | .add t d a x => Sys2Proof.Machine.execAdd t d a x s
  | .sub t d a x => Sys2Proof.Machine.execSub t d a x s
  | .and t d a x => Sys2Proof.Machine.execAnd t d a x s
  | .or t d a x => Sys2Proof.Machine.execOr t d a x s
  | .xor t d a x => Sys2Proof.Machine.execXor t d a x s
  | .shl t d a x => Sys2Proof.Machine.execShl t d a x s
  | .shr t d a x => Sys2Proof.Machine.execShr t d a x s
  | .sra t d a x => Sys2Proof.Machine.execSra t d a x s
  | .mul t d a x => Sys2Proof.Machine.execMul t d a x s
  | .mulh t d a x => Sys2Proof.Machine.execMulh t d a x s
  | .div t d a x => Sys2Proof.Machine.execDiv t d a x s
  | .rem t d a x => Sys2Proof.Machine.execRem t d a x s
  | .slt t d a x => Sys2Proof.Machine.execSlt t d a x s
  | .sltu t d a x => Sys2Proof.Machine.execSltu t d a x s
  | .addi t d a x => Sys2Proof.Machine.execAddi t d a x s
  | .sys t d a x => Sys2Proof.Machine.execSys t d a x s
  | .li t d x => Sys2Proof.Machine.execLi t d x s
  | .lui t d x => Sys2Proof.Machine.execLui t d x s
  | .ld t d a imm => Sys2Proof.Machine.execLd t d a imm s
  | .st t a b imm => Sys2Proof.Machine.execSt t a b imm s
  | .beq t a b target => Sys2Proof.Machine.execBeq t a b target s
  | .bne t a b target => Sys2Proof.Machine.execBne t a b target s
  | .blt t a b target => Sys2Proof.Machine.execBlt t a b target s
  | .bge t a b target => Sys2Proof.Machine.execBge t a b target s
  | .bltu t a b target => Sys2Proof.Machine.execBltu t a b target s
  | .bgeu t a b target => Sys2Proof.Machine.execBgeu t a b target s
  | .jmp t target => Sys2Proof.Machine.execJmp t target s
  | .jal t link target => Sys2Proof.Machine.execJal t link target s
  | .jr t a => Sys2Proof.Machine.execJr t a s
  | .halt t => Sys2Proof.Machine.execHalt t s
  | .vaddF32 t d a b imm => Sys2Proof.Machine.execVaddF32 t d a b imm s
  | .vsubF32 t d a b imm => Sys2Proof.Machine.execVsubF32 t d a b imm s
  | .vmulF32 t d a b imm => Sys2Proof.Machine.execVmulF32 t d a b imm s
  | .vfmaF32 t d a b c imm => Sys2Proof.Machine.execVfmaF32 t d a b c imm s
  | .vaddBf t d a b => Sys2Proof.Machine.execVaddBf t d a b s
  | .vsubBf t d a b => Sys2Proof.Machine.execVsubBf t d a b s
  | .vmulBf t d a b => Sys2Proof.Machine.execVmulBf t d a b s
  | .vfmaBf t d a b c => Sys2Proof.Machine.execVfmaBf t d a b c s
  | .vaddI32 t d a b => Sys2Proof.Machine.execVaddI32 t d a b s
  | .vsubI32 t d a b => Sys2Proof.Machine.execVsubI32 t d a b s
  | .vmulI32 t d a b => Sys2Proof.Machine.execVmulI32 t d a b s
  | .vfmaI32 t d a b c => Sys2Proof.Machine.execVfmaI32 t d a b c s
  | .vcmp t d a b imm => Sys2Proof.Machine.execVcmp t d a b imm s
  | .vsel t d a b c => Sys2Proof.Machine.execVsel t d a b c s
  | .vcvt t d a b imm => Sys2Proof.Machine.execVcvt t d a b imm s
  | .vbcast t d a => Sys2Proof.Machine.execVbcast t d a s
  | .vshuf t d a b => Sys2Proof.Machine.execVshuf t d a b s
  | .vred t d a imm => Sys2Proof.Machine.execVred t d a imm s
  | .vld t d a imm => Sys2Proof.Machine.execVld t d a imm s
  | .vst t a b imm => Sys2Proof.Machine.execVst t a b imm s
  | .mldh t ringA imm => Sys2Proof.Machine.execMldh t ringA imm s
  | .mldht t ringA imm => Sys2Proof.Machine.execMldht t ringA imm s
  | .mmul t ringA imm => Sys2Proof.Machine.execMmul t ringA imm s
  | .macc t ringA imm => Sys2Proof.Machine.execMacc t ringA imm s
  | .mslb t ringA ringB p imm => Sys2Proof.Machine.execMslb t ringA ringB p imm s
  | .mclr t imm => Sys2Proof.Machine.execMclr t imm s
  | .mepi t p imm => Sys2Proof.Machine.execMepi t p imm s
  | .mdrn t ringD imm => Sys2Proof.Machine.execMdrn t ringD imm s
  | .mflg t d imm => Sys2Proof.Machine.execMflg t d imm s
  | .movq t ringA b => Sys2Proof.Machine.execMovq t ringA b s
  | .movc t d => Sys2Proof.Machine.execMovc t d s
  | .send t ringA dest p imm => Sys2Proof.Machine.execSend t ringA dest p imm s
  | .rset t b ringD => Sys2Proof.Machine.execRset t b ringD s
  | .rget t ringA d imm => Sys2Proof.Machine.execRget t ringA d imm s
  | .rpush t ringD imm => Sys2Proof.Machine.execRpush t ringD imm s
  | .rpop t ringA imm => Sys2Proof.Machine.execRpop t ringA imm s
  | .rwait t ringA imm => Sys2Proof.Machine.execRwait t ringA imm s
  | .rspace t ringD imm => Sys2Proof.Machine.execRspace t ringD imm s
  | .rngv t index d p imm => Sys2Proof.Machine.execRngv t index d p imm s
  | .rngr t index ringD p imm => Sys2Proof.Machine.execRngr t index ringD p imm s
  | .fence t imm => Sys2Proof.Machine.execFence t imm s
  | .bell t b imm => Sys2Proof.Machine.execBell t b imm s
  | .expect t p imm => Sys2Proof.Machine.execExpect t p imm s
  | .xrds t d a imm => Sys2Proof.Machine.execXrds t d a imm s
  | .xrdv t d a imm => Sys2Proof.Machine.execXrdv t d a imm s
  | .xwrs t a b imm => Sys2Proof.Machine.execXwrs t a b imm s
  | .xwrv t a b imm => Sys2Proof.Machine.execXwrv t a b imm s
  | .matrixDispatch t => Sys2Proof.Machine.execMatrixDispatch t s
  | .heldLoadDone t => Sys2Proof.Machine.execHeldLoadDone t s
  | .mmulComplete t => Sys2Proof.Machine.execMmulComplete t s
  | .mslbComplete t => Sys2Proof.Machine.execMslbComplete t s
  | .maccComplete t => Sys2Proof.Machine.execMaccComplete t s
  | .mclrComplete t => Sys2Proof.Machine.execMclrComplete t s
  | .mepiInstall t => Sys2Proof.Machine.execMepiInstall t s
  | .mdrnComplete t => Sys2Proof.Machine.execMdrnComplete t s
  | .mflgComplete t => Sys2Proof.Machine.execMflgComplete t s
  | .pageFillComplete t => Sys2Proof.Machine.execPageFillComplete t s
  | .sendStart t => Sys2Proof.Machine.execSendStart t s
  | .sendFailRecordTake t => Sys2Proof.Machine.execSendFailRecordTake t s
  | .randomFillDone t => Sys2Proof.Machine.execRandomFillDone t s
  | .laneArmingDone t => Sys2Proof.Machine.execLaneArmingDone t s
  | .normPost t => Sys2Proof.Machine.execNormPost t s
  | .eccCorrectionWriteback t => Sys2Proof.Machine.execEccCorrectionWriteback t s
  | .scrubRow t => Sys2Proof.Machine.execScrubRow t s
  | .memoryInitDone t => Sys2Proof.Machine.execMemoryInitDone t s
  | .singleStep t => Sys2Proof.Machine.execSingleStep t s
  | .clearFault t => Sys2Proof.Machine.execClearFault t s
  | .drainUnitWrite t u => Sys2Proof.Machine.execDrainUnitWrite t u s
  | .moverDescriptorStart t => Sys2Proof.Machine.execMoverDescriptorStart t s
  | .moverUnitWrite t slot h => Sys2Proof.Machine.execMoverUnitWrite t slot h s
  | .moverDescriptorComplete t slot h => Sys2Proof.Machine.execMoverDescriptorComplete t slot h s
  | .haulDeliveryUnit src dst => Sys2Proof.Machine.execHaulDeliveryUnit src dst s
  | .sendResponseArrive t id dst => Sys2Proof.Machine.execSendResponseArrive t id dst s
  | .reachTargetAccess t id => Sys2Proof.Machine.execReachTargetAccess t id s
  | .reachControlService t id => Sys2Proof.Machine.execReachControlService t id s
  | .reachReplyArrive t id => Sys2Proof.Machine.execReachReplyArrive t id s
  | .ringStall t r => Sys2Proof.Machine.execRingStall t r s
  | .keyDerived => Sys2Proof.Machine.execKeyDerived s
  | .stepEnd => Sys2Proof.Machine.execStepEnd s
  | .programFaultHalt => Sys2Proof.Machine.execProgramFaultHalt s
  | .faultEngineWaitExpiry => Sys2Proof.Machine.execFaultEngineWaitExpiry s
  | .partnerCommit => Sys2Proof.Machine.execPartnerCommit s
  | .partnerEmpty => Sys2Proof.Machine.execPartnerEmpty s
  | .releaseHold => Sys2Proof.Machine.execReleaseHold s
  | .recoveryPieceReady => Sys2Proof.Machine.execRecoveryPieceReady s
  | .recoveryFinish => Sys2Proof.Machine.execRecoveryFinish s
  | .d3hotWrite => Sys2Proof.Machine.execD3hotWrite s
  | .d0Write => Sys2Proof.Machine.execD0Write s
  | .drainSnapshotDone => Sys2Proof.Machine.execDrainSnapshotDone s
  | .spareFillComplete => Sys2Proof.Machine.execSpareFillComplete s
  | .repairHoldTimeout => Sys2Proof.Machine.execRepairHoldTimeout s
  | .spoilMapFlashDone => Sys2Proof.Machine.execSpoilMapFlashDone s
  | .pairAnswerTimeout => Sys2Proof.Machine.execPairAnswerTimeout s
  | .thermalCooled => Sys2Proof.Machine.execThermalCooled s
  | .perstNAssert => Sys2Proof.Machine.execPerstNAssert s
  | .perstNRelease => Sys2Proof.Machine.execPerstNRelease s
  | .hotReset => Sys2Proof.Machine.execHotReset s
  | .flr => Sys2Proof.Machine.execFlr s
  | .watchdogReset => Sys2Proof.Machine.execWatchdogReset s
  | .debugReset => Sys2Proof.Machine.execDebugReset s
  | .unlockTimeout => Sys2Proof.Machine.execUnlockTimeout s
  | .alertResponseRead => Sys2Proof.Machine.execAlertResponseRead s
  | .pldmEventPoll => Sys2Proof.Machine.execPldmEventPoll s
  | .powerTransitionComplete => Sys2Proof.Machine.execPowerTransitionComplete s
  | .bellConditionHolds g => Sys2Proof.Machine.execBellConditionHolds g s
  | .bellFire g => Sys2Proof.Machine.execBellFire g s
  | .bellTimeout g => Sys2Proof.Machine.execBellTimeout g s
  | .probeNoReply g t => Sys2Proof.Machine.execProbeNoReply g t s
  | .bellFrameReceive frame => Sys2Proof.Machine.execBellFrameReceive frame s
  | .loadImage n h => Sys2Proof.Machine.execLoadImage n h s
  | .eval n h => Sys2Proof.Machine.execEval n h s
  | .setScales n h => Sys2Proof.Machine.execSetScales n h s
  | .query n h => Sys2Proof.Machine.execQuery n h s
  | .readTelemetry n h => Sys2Proof.Machine.execReadTelemetry n h s
  | .updateFirmware n h => Sys2Proof.Machine.execUpdateFirmware n h s
  | .copyComplete n h => Sys2Proof.Machine.execCopyComplete n h s
  | .run n => Sys2Proof.Machine.execRun n s
  | .step n => Sys2Proof.Machine.execStep n s
  | .drain n => Sys2Proof.Machine.execDrain n s
  | .restore n manifest => Sys2Proof.Machine.execRestore n manifest s
  | .pair n => Sys2Proof.Machine.execPair n s
  | .unpair n => Sys2Proof.Machine.execUnpair n s
  | .setSeeds n => Sys2Proof.Machine.execSetSeeds n s
  | .copy n => Sys2Proof.Machine.execCopy n s
  | .fenceCommand n => Sys2Proof.Machine.execFenceCommand n s
  | .setPower n => Sys2Proof.Machine.execSetPower n s
  | .resetBlock n => Sys2Proof.Machine.execResetBlock n s
  | .resetDevice n => Sys2Proof.Machine.execResetDevice n s
  | .retireTile n => Sys2Proof.Machine.execRetireTile n s
  | .attest n => Sys2Proof.Machine.execAttest n s
  | .restoreComplete n copy => Sys2Proof.Machine.execRestoreComplete n copy s
  | .firmwareWriteComplete n => Sys2Proof.Machine.execFirmwareWriteComplete n s
  | .packetFetch h => Sys2Proof.Machine.execPacketFetch h s
  | .completionWrite q h => Sys2Proof.Machine.execCompletionWrite q h s
  | .sqTailDoorbell q index writes => Sys2Proof.Machine.execSqTailDoorbell q index writes s
  | .cqHeadDoorbell q index => Sys2Proof.Machine.execCqHeadDoorbell q index s
  | .queueEnable q value => Sys2Proof.Machine.execQueueEnable q value s
  | .queueDisable q value => Sys2Proof.Machine.execQueueDisable q value s
  | .queueDrained q => Sys2Proof.Machine.execQueueDrained q s
  | .msixUnmask vector => Sys2Proof.Machine.execMsixUnmask vector s
  | .registerWrite target bytes => Sys2Proof.Machine.execRegisterWrite target bytes s
  | .broadcastWrite w offset value => Sys2Proof.Machine.execBroadcastWrite w offset value s
  | .haltWrite t value => Sys2Proof.Machine.execHaltWrite t value s
  | .codeWindowWrite t index value => Sys2Proof.Machine.execCodeWindowWrite t index value s
  | .ringDescWrite t r k value => Sys2Proof.Machine.execRingDescWrite t r k value s
  | .eccInjectArm t value => Sys2Proof.Machine.execEccInjectArm t value s
  | .scaleEntryWrite n k value => Sys2Proof.Machine.execScaleEntryWrite n k value s
  | .seedKeyedWrite value => Sys2Proof.Machine.execSeedKeyedWrite value s
  | .seedFreeWrite value => Sys2Proof.Machine.execSeedFreeWrite value s
  | .deviceReset value => Sys2Proof.Machine.execDeviceReset value s
  | .blockResetStart value => Sys2Proof.Machine.execBlockResetStart value s
  | .powerControlApply value => Sys2Proof.Machine.execPowerControlApply value s
  | .bar2Read offset length => Sys2Proof.Machine.execBar2Read offset length s
  | .bar2Write offset bytes => Sys2Proof.Machine.execBar2Write offset bytes s
  | .doeRequest object => Sys2Proof.Machine.execDoeRequest object s
  | .attestSignDone h => Sys2Proof.Machine.execAttestSignDone h s
  | .mainMemoryAccess addr bytes consumer check => Sys2Proof.Machine.execMainMemoryAccess addr bytes consumer check s
  | .dramRefresh cycle => Sys2Proof.Machine.execDramRefresh cycle s
  | .patrolScrub addr check => Sys2Proof.Machine.execPatrolScrub addr check s
  | .channelRetrain channel => Sys2Proof.Machine.execChannelRetrain channel s
  | .bankHoldRelease region => Sys2Proof.Machine.execBankHoldRelease region s
  | .drainChunkReceive manifest index chunk leaf => Sys2Proof.Machine.execDrainChunkReceive manifest index chunk leaf s
  | .drainVerified owner outcome => Sys2Proof.Machine.execDrainVerified owner outcome s
  | .tileFailure t cause => Sys2Proof.Machine.execTileFailure t cause s
  | .repairFrameReceive frame => Sys2Proof.Machine.execRepairFrameReceive frame s
  | .linkFlitReceive p flit => Sys2Proof.Machine.execLinkFlitReceive p flit s
  | .linkRetryLimit p => Sys2Proof.Machine.execLinkRetryLimit p s
  | .linkSilenceTimeout p => Sys2Proof.Machine.execLinkSilenceTimeout p s
  | .linkFailed p => Sys2Proof.Machine.execLinkFailed p s
  | .linkRetrained p lanes => Sys2Proof.Machine.execLinkRetrained p lanes s
  | .pairingHandshakeReceive p answer identity target feed via => Sys2Proof.Machine.execPairingHandshakeReceive p answer identity target feed via s
  | .feedWarningReceive identity feed time recovered => Sys2Proof.Machine.execFeedWarningReceive identity feed time recovered s
  | .datagramReceive e ce frame => Sys2Proof.Machine.execDatagramReceive e ce frame s
  | .retransmitTimeout partner psn => Sys2Proof.Machine.execRetransmitTimeout partner psn s
  | .ackTimer partner => Sys2Proof.Machine.execAckTimer partner s
  | .rateTimer partner => Sys2Proof.Machine.execRateTimer partner s
  | .pauseFrameReceive e priority quanta => Sys2Proof.Machine.execPauseFrameReceive e priority quanta s
  | .arpNdRequest e v6 address => Sys2Proof.Machine.execArpNdRequest e v6 address s
  | .powerOnReset v48 => Sys2Proof.Machine.execPowerOnReset v48 s
  | .supplyReset rail auxStands => Sys2Proof.Machine.execSupplyReset rail auxStands s
  | .thermalReset bench => Sys2Proof.Machine.execThermalReset bench s
  | .dawnStageComplete input => Sys2Proof.Machine.execDawnStageComplete input s
  | .twilightStart rail millivolts => Sys2Proof.Machine.execTwilightStart rail millivolts s
  | .twilightRelease rail lowest => Sys2Proof.Machine.execTwilightRelease rail lowest s
  | .powerSample average hottest below10ms => Sys2Proof.Machine.execPowerSample average hottest below10ms s
  | .thermalThreshold bench celsius => Sys2Proof.Machine.execThermalThreshold bench celsius s
  | .thermalSpeedup bench celsius => Sys2Proof.Machine.execThermalSpeedup bench celsius s
  | .unlockChallengeRead entropy => Sys2Proof.Machine.execUnlockChallengeRead entropy s
  | .unlockResponse response => Sys2Proof.Machine.execUnlockResponse response s
  | .feedGroupWrite value => Sys2Proof.Machine.execFeedGroupWrite value s
  | .mctpControl assign => Sys2Proof.Machine.execMctpControl assign s
  | .pldmSensorRead sensor => Sys2Proof.Machine.execPldmSensorRead sensor s
  | .sidebandVendorPacket message => Sys2Proof.Machine.execSidebandVendorPacket message s
  | .sensorRefresh readings => Sys2Proof.Machine.execSensorRefresh readings s
  | .illegalInsn t word => Sys2Proof.Machine.execIllegalInsn t word s
  | .blockResetComplete kind index => Sys2Proof.Machine.execBlockResetComplete kind index s
  | .ethernetLinkChange e up mode => Sys2Proof.Machine.execEthernetLinkChange e up mode s
  | .srefclkChange present => Sys2Proof.Machine.execSrefclkChange present s

end Sys2Proof.Machine
end

