-- ==== Sys2Proof/WellFormed.lean ====
section
/-! DEFINITION. Which units of the device a command names, and the commands that name only units it has (R14, R17, R86, R104,
R197, R286, R382, R387, R408, R410, R411, R444, R512). -/
namespace Sys2Proof

/-- Bench of a rail, of 6 (R512). -/
def Rail.units : Rail → List (Nat × Nat)
  | .input => []
  | .core b => [(b, 6)]

/-- Tile of a running send, of 1,536. -/
def HaulSource.units : HaulSource → List (Nat × Nat)
  | .tile t _ => [(t, 1536)]
  | .link _ => []

/-- The units that a command names, each with how many of its kind there are: tiles 1,536; queues 64; sync groups and haul
roads 8; Ethernet ports and mover slots 4; ports 12; rings 32; benches 6; partner entries 4,096; channels 128; scale entries
8,192; interrupt vectors 128; broadcast windows 16. -/
def Instr.units : Instr → List (Nat × Nat)
  | .add t _ _ _ | .sub t _ _ _ | .and t _ _ _ | .or t _ _ _ | .xor t _ _ _ | .shl t _ _ _ | .shr t _ _ _
  | .sra t _ _ _ | .mul t _ _ _ | .mulh t _ _ _ | .div t _ _ _ | .rem t _ _ _ | .slt t _ _ _ | .sltu t _ _ _
  | .addi t _ _ _ | .sys t _ _ _ | .li t _ _ | .lui t _ _ | .ld t _ _ _ | .st t _ _ _ | .beq t _ _ _ | .bne t _ _ _
  | .blt t _ _ _ | .bge t _ _ _ | .bltu t _ _ _ | .bgeu t _ _ _ | .jmp t _ | .jal t _ _ | .jr t _ | .halt t
  | .vaddF32 t _ _ _ _ | .vsubF32 t _ _ _ _ | .vmulF32 t _ _ _ _ | .vfmaF32 t _ _ _ _ _ | .vaddBf t _ _ _
  | .vsubBf t _ _ _ | .vmulBf t _ _ _ | .vfmaBf t _ _ _ _ | .vaddI32 t _ _ _ | .vsubI32 t _ _ _ | .vmulI32 t _ _ _
  | .vfmaI32 t _ _ _ _ | .vcmp t _ _ _ _ | .vsel t _ _ _ _ | .vcvt t _ _ _ _ | .vbcast t _ _ | .vshuf t _ _ _
  | .vred t _ _ _ | .vld t _ _ _ | .vst t _ _ _ | .mldh t _ _ | .mldht t _ _ | .mmul t _ _ | .macc t _ _
  | .mslb t _ _ _ _ | .mclr t _ | .mepi t _ _ | .mdrn t _ _ | .mflg t _ _ | .movq t _ _ | .movc t _ | .send t _ _ _ _
  | .rset t _ _ | .rget t _ _ _ | .rpush t _ _ | .rpop t _ _ | .rwait t _ _ | .rspace t _ _ | .rngv t _ _ _ _
  | .rngr t _ _ _ _ | .fence t _ | .bell t _ _ | .expect t _ _ | .xrds t _ _ _ | .xrdv t _ _ _ | .xwrs t _ _ _
  | .xwrv t _ _ _ | .matrixDispatch t | .heldLoadDone t | .mmulComplete t | .mslbComplete t | .maccComplete t
  | .mclrComplete t | .mepiInstall t | .mdrnComplete t | .mflgComplete t | .pageFillComplete t | .sendStart t
  | .sendFailRecordTake t | .randomFillDone t | .laneArmingDone t | .normPost t | .eccCorrectionWriteback t
  | .scrubRow t | .memoryInitDone t | .singleStep t | .clearFault t | .drainUnitWrite t _ | .moverDescriptorStart t
  | .reachTargetAccess t _ | .reachControlService t _ | .reachReplyArrive t _ | .haltWrite t _ | .eccInjectArm t _
  | .tileFailure t _ | .illegalInsn t _ => [(t, 1536)]
  | .moverUnitWrite t slot _ | .moverDescriptorComplete t slot _ => [(t, 1536), (slot, 4)]
  | .haulDeliveryUnit src dst => src.units ++ [(dst, match src with | .tile _ _ => 1536 | .link _ => 2048)]
  | .sendResponseArrive t _ dst => [(t, 1536), (dst, 1536)]
  | .ringStall t r => [(t, 1536), (r, 32)]
  | .keyDerived | .stepEnd | .programFaultHalt | .faultEngineWaitExpiry | .partnerCommit | .partnerEmpty
  | .releaseHold | .recoveryPieceReady | .recoveryFinish | .d3hotWrite | .d0Write | .drainSnapshotDone
  | .spareFillComplete | .repairHoldTimeout | .spoilMapFlashDone | .pairAnswerTimeout | .thermalCooled
  | .perstNAssert | .perstNRelease | .hotReset | .flr | .watchdogReset | .debugReset | .unlockTimeout
  | .alertResponseRead | .pldmEventPoll | .powerTransitionComplete | .bellFrameReceive _ | .loadImage _ _ | .eval _ _
  | .setScales _ _ | .query _ _ | .readTelemetry _ _ | .updateFirmware _ _ | .copyComplete _ _ | .run _ | .step _
  | .drain _ | .restore _ _ | .pair _ | .unpair _ | .setSeeds _ | .copy _ | .fenceCommand _ | .setPower _
  | .resetBlock _ | .resetDevice _ | .retireTile _ | .attest _ | .restoreComplete _ _ | .firmwareWriteComplete _
  | .packetFetch _ | .registerWrite _ _ | .seedKeyedWrite _ | .seedFreeWrite _ | .deviceReset _ | .blockResetStart _
  | .powerControlApply _ | .bar2Read _ _ | .bar2Write _ _ | .doeRequest _ | .attestSignDone _
  | .mainMemoryAccess _ _ _ _ | .patrolScrub _ _ | .bankHoldRelease _ | .drainChunkReceive _ _ _ _
  | .drainVerified _ _ | .repairFrameReceive _ | .feedWarningReceive _ _ _ _ | .powerOnReset _ | .dawnStageComplete _
  | .unlockChallengeRead _ | .unlockResponse _ | .feedGroupWrite _ | .mctpControl _ | .sidebandVendorPacket _
  | .sensorRefresh _ | .blockResetComplete _ _ | .srefclkChange _ => []
  | .bellConditionHolds g | .bellFire g | .bellTimeout g => [(g, 8)]
  | .probeNoReply g t => [(g, 8), (t, 1536)]
  | .completionWrite q _ | .sqTailDoorbell q _ _ | .cqHeadDoorbell q _ | .queueEnable q _ | .queueDisable q _
  | .queueDrained q => [(q, 64)]
  | .msixUnmask vector => [(vector, 128)]
  | .broadcastWrite w offset _ => [(w, 16), (offset, 4096)]
  | .codeWindowWrite t index _ => [(t, 1536), (index, 256)]
  | .ringDescWrite t r k _ => [(t, 1536), (r, 32), (k, 4)]
  | .scaleEntryWrite n k _ => [(n, 8192), (k, 32)]
  | .dramRefresh ⟨channel, _, _⟩ | .channelRetrain channel => [(channel, 128)]
  | .linkFlitReceive p _ | .linkRetryLimit p | .linkSilenceTimeout p | .linkFailed p | .linkRetrained p _ => [(p, 8)]
  | .pairingHandshakeReceive p _ _ _ _ _ => [(p, 12)]
  | .datagramReceive e _ _ | .pauseFrameReceive e _ _ | .arpNdRequest e _ _ | .ethernetLinkChange e _ _ => [(e, 4)]
  | .retransmitTimeout partner _ | .ackTimer partner | .rateTimer partner => [(partner, 4096)]
  | .supplyReset rail _ | .twilightStart rail _ | .twilightRelease rail _ => rail.units
  | .thermalReset bench | .thermalThreshold bench _ | .thermalSpeedup bench _ => [(bench, 6)]
  | .powerSample _ hottest _ => [(hottest, 6)]
  | .pldmSensorRead sensor => [(sensor, 13)]

/-- A command that only names units of the device. -/
def Instr.wellFormed (i : Instr) : Bool := i.units.all fun u => decide (u.1 < u.2)

end Sys2Proof
end

