-- ==== Sys2Proof/Safety.lean ====
section
/-! DEFINITION. What statements about the block are said in: commands that complete, states in which a command applies, and what
a command leaves unchanged. -/
namespace Sys2Proof.Machine

/-- The command completes: exec answers the next state. -/
def Completes (c : Instr) (s s' : State) : Prop := exec c s = .next s'

/-- Every waiting command names only units that the device has. -/
def State.queueOk (s : State) : Bool := s.pending.all Instr.wellFormed

/-! ### Memories in canonical form -/

/-- The byte memories of a tile and its code store. -/
def Tile.memOk (c : Tile) : Bool := Memory.wf c.mem.data && NMap.wf 0 c.mem.code

/-- Every byte memory of the device that a run can write. -/
def State.memOk (s : State) : Bool :=
  Memory.wf s.mm.bytes && Memory.wf s.host.mem && Memory.wf s.seqWindow && Memory.wf s.sec.recWindow
    && s.tiles.all fun p => p.2.memOk

/-! ### Tile instructions -/

/-- The S-core of tile t takes an instruction at once that waits for the scalar registers ss and the vector registers vs: the
tile exists and is not isolated, its memory is initialised, the core is released and not at a bell, the pc is inside the class,
the code word is free of flipped bits, and no register is pending (R45, R47, R59, R78, R126, R128, R131). -/
def State.takes (s : State) (t : Nat) (ss : List SReg) (vs : List VReg) : Bool :=
  decide (t < tileCount) && (s.tile t).canIssue false && !s.isolated t
    && decide ((s.tile t).core.pc < (s.tile t).core.codeLen)
    && (flipsIn (s.tile t).mem.eccCode (s.tile t).core.pc 1).isEmpty && !(s.tile t).anyPending ss vs

/-- A ring as before, but for what waits on it (R112). -/
def RingKept (x y : Ring) : Prop :=
  y.pack = x.pack ∧ y.claimed = x.claimed ∧ y.reserved = x.reserved ∧ y.claims = x.claims ∧ y.sources = x.sources
    ∧ y.multi = x.multi ∧ y.owners = x.owners

/-- Nothing but tile t has changed. -/
def OnlyTile (s s' : State) (t : Nat) : Prop := s' = { s with tiles := s'.tiles } ∧ ∀ u, u ≠ t → s'.tile u = s.tile u

/-- Tile t has issued an instruction whose own effect on the tile gives `c`, and goes on at `pc`: of the tile nothing else has
changed but that the stall is over, and of the device nothing at all. -/
def Issued (s s' : State) (t : Nat) (c : Tile) (pc : Nat) : Prop :=
  OnlyTile s s' t ∧ (∀ r, RingKept (c.ring r) ((s'.tile t).ring r))
    ∧ s'.tile t = { c with
        core := { c.core with pc := pc, run := .running, stallKind := .none, stallRing := 0, held := none }
        rings := (s'.tile t).rings }

/-- Tile t has stalled at its instruction, with the kind and ring that STALL_STATUS shows: of the tile nothing else has changed
but what waits on its rings, and of the device nothing at all (R45, R85, R112). -/
def Stalled (s s' : State) (t : Nat) (k : StallKind) (r : RingNo) : Prop :=
  OnlyTile s s' t ∧ (∀ q, RingKept ((s.tile t).ring q) ((s'.tile t).ring q))
    ∧ s'.tile t = { s.tile t with
        core := { (s.tile t).core with run := .stalled, stallKind := k, stallRing := r }, rings := (s'.tile t).rings }

/-- Tile t has stopped at a fault of code `f` at `addr`: recorded when it is the first since clear and noted for firmware; the
S-core stands faulted at the same pc, and of the tile nothing else has changed but that the stall is over (R79, R80, R86). -/
def Faulted (s s' : State) (t : Nat) (f : TileFault) (word : Word64) (addr : Nat) : Prop :=
  let c := s.tile t
  (∀ u, u ≠ t → s'.tile u = s.tile u) ∧ s' = { s with tiles := s'.tiles, step := (s.noteFault t f).step }
    ∧ (∀ r, RingKept (c.ring r) ((s'.tile t).ring r))
    ∧ s'.tile t = { c with
        core := { c.core with
          run := .faulted, stallKind := .none, stallRing := 0, held := none
          fault := if c.core.fault.valid then c.core.fault else
            { valid := true, hardware := f.hardware, code := f.code, pc := BitVec.ofNat 13 c.core.pc, insn := word
              addr := BitVec.ofNat 64 addr } }
        rings := (s'.tile t).rings }

/-- Tile t has issued an engine instruction: the item it queued is in `c`, which is the tile otherwise as it was; it numbers the
item, goes on at the next address, and of the rings only the units it claims and reserves have changed (R59, R245). -/
def Queued (s s' : State) (t : Nat) (c : Tile) (claims reserves : List (RingNo × Nat)) : Prop :=
  let old := s.tile t
  OnlyTile s s' t
    ∧ (∀ r, ((s'.tile t).ring r).pack = (old.ring r).pack
        ∧ ((s'.tile t).ring r).claimed = (old.ring r).claimed + unitsFor claims r
        ∧ ((s'.tile t).ring r).reserved = (old.ring r).reserved + unitsFor reserves r)
    ∧ s'.tile t = { c with
        core := { c.core with
          pc := old.core.pc + 1, run := .running, stallKind := .none, stallRing := 0, held := none
          issueSeq := old.core.issueSeq + 1, engineWork := true }
        rings := (s'.tile t).rings }

/-- The rings have the units that an instruction consumes and the room for what it produces (R59). -/
def Tile.meets (c : Tile) (consumes produces : List (RingNo × Nat)) : Prop :=
  (∀ p ∈ consumes, (c.ring p.1).valid = true ∧ unitsFor consumes p.1 ≤ (c.ring p.1).size.toNat
      ∧ unitsFor consumes p.1 ≤ (c.ring p.1).available)
    ∧ ∀ p ∈ produces, (c.ring p.1).valid = true ∧ unitsFor produces p.1 ≤ (c.ring p.1).size.toNat
      ∧ unitsFor produces p.1 ≤ (c.ring p.1).room

/-- What the source ring r tells an instruction that reads for consumer k, `skip` units past the first unclaimed one: nothing
where it is not count-prefixed, the count unit of the message there where it is (R65, R239). -/
def Tile.countsAt (c : Tile) (k : BitVec 3) (r : RingNo) (skip : Nat) : Option CountUnit → Prop
  | none => (c.ring r).countPrefixed = false
  | some u => (c.ring r).countPrefixed = true ∧ skip < (c.ring r).available
      ∧ ∃ bs, c.readUnits k r ((c.ring r).firstFree + skip) 1 = (c, some bs) ∧ u = CountUnit.parse bs

/-- The message holds at least the units that an instruction requires, and holds some (R65, R240). -/
def enough (cu : Option CountUnit) (need : Nat) : Prop := ∀ u, cu = some u → u.units ≠ 0 ∧ need ≤ u.units

/-- The bytes of tile memory at off can be read at once: inside the memory, their pages ready, no bit flipped (R117, R127). -/
def Tile.readable (c : Tile) (off n : Nat) : Prop :=
  off + n ≤ 2 ^ 21 ∧ c.touch off n = .ok ∧ (flipsIn c.mem.eccData (off / 8) (ceilDiv (off % 8 + n) 8)).isEmpty = true

/-- Two tiles alike but for when the bell members counted and met their conditions (R357). -/
def Noted (c c' : Tile) : Prop :=
  c' = { c with sd := { c.sd with groups := c'.sd.groups } }
    ∧ ∀ g, let m := c'.member g
      m = { c.member g with arriveTime := m.arriveTime, counted := m.counted, met := m.met, metTime := m.metTime }

/-- An engine of tile t has left the tile as `c`, the bell members' notes apart; nothing else has changed. -/
def Worked (s s' : State) (t : Nat) (c : Tile) : Prop := OnlyTile s s' t ∧ Noted c (s'.tile t)

/-- Byte a of the data memory of tile t. -/
def State.dataByte (s : State) (t a : Nat) : Byte := NMap.get 0 (s.tile t).mem.data a

/-- Every byte of tile t's data memory outside n bytes from off reads as before. -/
def DataKept (s s' : State) (t off n : Nat) : Prop := ∀ a, a < off ∨ off + n ≤ a → s'.dataByte t a = s.dataByte t a

/-! ### Engines and commands -/

/-- The engines of tile t take their steps: the tile exists, is not isolated, and its memory is initialised. -/
def State.works (s : State) (t : Nat) : Bool := decide (t < tileCount) && !s.isolated t && (s.tile t).mem.ready

/-- Packet n, of opcode op, has been fetched and may start (R404, R405). -/
def State.starts (s : State) (op n : Nat) (h : Held) : Prop :=
  s.held? n = some h ∧ h.op = op ∧ h.phase = .waiting ∧ s.mayStart h = true

/-- Packet n, of opcode op, is under way. -/
def State.underway (s : State) (op n : Nat) (h : Held) : Prop := s.held? n = some h ∧ h.op = op ∧ h.phase = .running

/-- Packet n has completed with a status: it is held no more, and its completion waits (R394, R397). -/
def Completed (s' : State) (n : Nat) (h : Held) (st : CmdStatus) : Prop :=
  s'.held? n = none ∧ ∃ d ∈ s'.host.done,
    d.queue = h.queue ∧ d.seq = h.field 4 4 ∧ d.tag = h.field 2 2 ∧ d.opcode = h.op ∧ d.status = st.code

end Sys2Proof.Machine
end

