-- ==== Sys2Proof/Certificates/Slice0/Obligations.lean ====
section
/-! DEFINITION. The statements for the provers. -/

open Sys2Proof Sys2Proof.Machine

/-! ### The queue of commands -/

/-- The block takes the command at the front of its queue: a step is exec of that command on the state with the queue's rest. On
an empty queue a full-clock cycle passes, and the queue stays empty (the model's choice, log 3). -/
def Obligations.StepRunsTheFrontCommand : Prop :=
  ∀ (c : Instr) (rest : List Instr) (s : State),
    step { s with pending := c :: rest } = exec c { s with pending := rest }
      ∧ step { s with pending := [] } = .next { s with pending := [] }.passCycle

/-- Every command that names only units the device has completes, and every other one stops as noSuchUnit.
The model's choices here: log 1. -/
def Obligations.WellFormedCommandsComplete : Prop :=
  ∀ (c : Instr) (s : State),
    (c.wellFormed = true → ∃ s', exec c s = .next s') ∧ (c.wellFormed = false → exec c s = .fault .noSuchUnit)

/-! ### Registers and scalar instructions -/

/-- R46, R568: a scalar register other than s0 reads what was last written to it; s0 reads zero and discards writes; a register
operand is the register, an immediate operand its sign extension; vector registers read what was written. -/
def Obligations.RegistersReadWhatWasWritten : Prop :=
  ∀ (c : Tile) (d r : SReg) (w : Word64) (e q : VReg) (x : Vector Word32 32) (i : Word32),
    (c.setS d w).sreg r = (if r = 0 then 0 else if r = d then w else c.sreg r)
      ∧ (c.setV e x).vreg q = (if q = e then x else c.vreg q)
      ∧ (c.setS d w).vreg q = c.vreg q ∧ (c.setV e x).sreg r = c.sreg r
      ∧ c.src2 (.reg r) = c.sreg r ∧ c.src2 (.imm i) = i.signExtend 64

/-- R568, R569: each of these instructions writes its result into d, goes on at the next address, and changes nothing else; LI loads
the operand, LUI writes bits [31:0] of the operand into bits [63:32] of d and keeps the low bits. -/
def Obligations.ScalarOpsWriteTheirResult : Prop :=
  ∀ (s : State) (t : Nat) (d a : SReg) (x : Src2),
    let c := s.tile t
    let A := c.sreg a
    let B := c.src2 x
    (s.takes t (d :: a :: operandRegs x) [] = true →
      ∀ p ∈ ([(.add t d a x, A + B), (.addi t d a x, A + B), (.sub t d a x, A - B), (.and t d a x, A &&& B),
        (.or t d a x, A ||| B), (.xor t d a x, A ^^^ B), (.shl t d a x, A <<< (B.extractLsb' 0 6).toNat),
        (.shr t d a x, A >>> (B.extractLsb' 0 6).toNat), (.sra t d a x, A.sshiftRight (B.extractLsb' 0 6).toNat),
        (.mul t d a x, A * B), (.mulh t d a x, (A.signExtend 128 * B.signExtend 128).extractLsb' 64 64),
        (.slt t d a x, if A.toInt < B.toInt then 1 else 0),
        (.sltu t d a x, if A.toNat < B.toNat then 1 else 0)] : List (Instr × Word64)),
        ∃ s', exec p.1 s = .next s' ∧ Issued s s' t (c.setS d p.2) (c.core.pc + 1))
      ∧ (s.takes t (d :: 0 :: operandRegs x) [] = true →
        (∃ s', exec (.li t d x) s = .next s' ∧ Issued s s' t (c.setS d B) (c.core.pc + 1))
          ∧ ∃ s', exec (.lui t d x) s = .next s'
            ∧ Issued s s' t (c.setS d (B.setWidth 32 ++ (c.sreg d).setWidth 32)) (c.core.pc + 1))

/-- R52: division rounds toward zero, a zero divisor gives all ones and the dividend, −2^63 ÷ −1 gives −2^63 and remainder 0. -/
def Obligations.DivisionHasDefinedResults : Prop :=
  ∀ (s : State) (t : Nat) (d a : SReg) (x : Src2), s.takes t (d :: a :: operandRegs x) [] = true →
    let c := s.tile t
    let A := c.sreg a
    let B := c.src2 x
    ∃ q r s' s'', exec (.div t d a x) s = .next s' ∧ Issued s s' t (c.setS d q) (c.core.pc + 1)
      ∧ exec (.rem t d a x) s = .next s'' ∧ Issued s s'' t (c.setS d r) (c.core.pc + 1)
      ∧ (B = 0 → q = BitVec.allOnes 64 ∧ r = A)
      ∧ (A = BitVec.intMin 64 ∧ B = BitVec.allOnes 64 → q = BitVec.intMin 64 ∧ r = 0)
      ∧ (B ≠ 0 ∧ ¬(A = BitVec.intMin 64 ∧ B = BitVec.allOnes 64) →
          q.toInt = A.toInt.tdiv B.toInt ∧ r.toInt = A.toInt.tmod B.toInt)

/-- R56, R244, R492, R568: SYS reads the property of the selector, in field mode with the field numbers and the bench in service;
selector 9 reads the rows field of the ring's next count unit, 0 where the ring is not count-prefixed, stalls while the unit is not
there, and is RING_UNDEFINED on an uninitialised ring; a selector past 9, and a ring named in an immediate form beside another
selector, are ILLEGAL_INSN. The model's choices here: log 15. -/
def Obligations.SysReadsTheSelectedProperty : Prop :=
  ∀ (s : State) (t : Nat) (d a : SReg) (x : Src2), s.takes t (d :: operandRegs x) [] = true →
    let c := s.tile t
    let r := c.ring a
    let sel := (c.src2 x).toNat % 2 ^ 32
    let word := (encodeInsn (.sys t d a x)).getD 0
    let width := if s.pw.fieldBench = none then 48 else 16
    let bench := match s.pw.fieldBench with
      | some b => b
      | none => t % 48 / 16 + 3 * (t / 48 / 16)
    ((∀ i, x = .imm i → a = 0) →
      (∀ p ∈ ([(0, BitVec.ofNat 64 t), (1, BitVec.ofNat 64 (t % width)), (2, BitVec.ofNat 64 (t / width)),
          (3, BitVec.ofNat 64 bench), (4, BitVec.ofNat 64 arrays), (5, s.stepNo),
          (6, BitVec.ofNat 64 c.superstepIndex), (7, c.core.cycles),
          (8, BitVec.ofNat 64 (((s.groupsOf t).map fun g => 2 ^ g).foldl (· + ·) 0))] : List (Nat × Word64)),
        sel = p.1 → ∃ s', exec (.sys t d a x) s = .next s' ∧ Issued s s' t (c.setS d p.2) (c.core.pc + 1))
      ∧ (9 < sel → ∃ s', exec (.sys t d a x) s = .next s' ∧ Faulted s s' t .illegalInsn word 0))
    ∧ (∀ i, x = .imm i → i ≠ 9 → a ≠ 0 → ∃ s', exec (.sys t d a x) s = .next s' ∧ Faulted s s' t .illegalInsn word 0)
    ∧ (sel = 9 →
      (r.valid = false → ∃ s', exec (.sys t d a x) s = .next s' ∧ Faulted s s' t .ringUndefined word 0)
      ∧ (r.valid = true → r.countPrefixed = false →
        ∃ s', exec (.sys t d a x) s = .next s' ∧ Issued s s' t (c.setS d 0) (c.core.pc + 1))
      ∧ (r.valid = true → r.countPrefixed = true → r.available = 0 →
        ∃ s', exec (.sys t d a x) s = .next s' ∧ Stalled s s' t .input a)
      ∧ ∀ bs, r.valid = true → r.countPrefixed = true → 0 < r.available → c.readUnits 0 a r.firstFree 1 = (c, some bs) →
        ∃ s', exec (.sys t d a x) s = .next s' ∧ Issued s s' t (c.setS d (BitVec.ofNat 64 (leAt bs 0 4))) (c.core.pc + 1))

/-- R570: a conditional branch goes to its target when its comparison holds and to the next address otherwise; a taken branch
past the class is PC_RANGE at the branch. -/
def Obligations.BranchesGoWhereTheComparisonSays : Prop :=
  ∀ (s : State) (t : Nat) (a b : SReg) (g : BitVec 13), s.takes t [a, b] [] = true →
    let c := s.tile t
    let A := c.sreg a
    let B := c.sreg b
    ∀ p ∈ ([(.beq t a b g, decide (A = B)), (.bne t a b g, decide (A ≠ B)), (.blt t a b g, decide (A.toInt < B.toInt)),
        (.bge t a b g, decide (B.toInt ≤ A.toInt)), (.bltu t a b g, decide (A.toNat < B.toNat)),
        (.bgeu t a b g, decide (B.toNat ≤ A.toNat))] : List (Instr × Bool)),
      ∃ s', exec p.1 s = .next s'
        ∧ (p.2 = false → Issued s s' t c (c.core.pc + 1))
        ∧ (p.2 = true → g.toNat < c.core.codeLen → Issued s s' t c g.toNat)
        ∧ (p.2 = true → c.core.codeLen ≤ g.toNat → Faulted s s' t .pcRange ((encodeInsn p.1).getD 0) 0)

/-- R55, R77, R570: JMP and JR go to their target, JAL writes the return address; a target past the class is PC_RANGE and writes
nothing. HALT is EARLY_HALT wherever it is reached, and a word that no instruction spells is ILLEGAL_INSN. -/
def Obligations.JumpsAndStopsEndWhereStated : Prop :=
  ∀ (s : State) (t : Nat) (a l : SReg) (g : BitVec 13) (w : Word64),
    let c := s.tile t
    (s.takes t [a, l] [] = true →
      ∀ p ∈ ([(.jmp t g, g.toNat, c), (.jal t l g, g.toNat, c.setS l (BitVec.ofNat 64 (c.core.pc + 1))),
        (.jr t a, (c.sreg a).toNat, c)] : List (Instr × Nat × Tile)),
        ∃ s', exec p.1 s = .next s'
          ∧ (p.2.1 < c.core.codeLen → Issued s s' t p.2.2 p.2.1)
          ∧ (c.core.codeLen ≤ p.2.1 → Faulted s s' t .pcRange ((encodeInsn p.1).getD 0) 0))
      ∧ (s.takes t [] [] = true →
        (∃ s', exec (.halt t) s = .next s' ∧ Faulted s s' t .earlyHalt 0x10C0_0000_0000_0000 0)
          ∧ (decodeInsn t w = none → ∃ s', exec (.illegalInsn t w) s = .next s' ∧ Faulted s s' t .illegalInsn w 0))

/-- R49, R570, R571: LD and VLD read bytes of tile memory at a + imm, little-endian, and change no byte; ST and VST write exactly
the 8 or 128 bytes there; a place that is not aligned to the size, or that ends past the memory, faults and moves nothing. -/
def Obligations.LoadsAndStoresReachTheirBytes : Prop :=
  ∀ (s : State) (t : Nat) (a d : SReg) (v : VReg) (imm : Word32) (n : Nat), n = 8 ∨ n = 128 →
    s.takes t [d, a] [v] = true →
    let c := s.tile t
    let at' := (c.sreg a + imm.signExtend 64).toNat
    let both : List Instr := if n = 8 then [.ld t d a imm, .st t a d imm] else [.vld t v a imm, .vst t a v imm]
    (∀ i ∈ both, at' % n ≠ 0 → ∃ s', exec i s = .next s' ∧ Faulted s s' t .misaligned ((encodeInsn i).getD 0) at')
      ∧ (∀ i ∈ both, at' % n = 0 → 2 ^ 21 < at' + n →
        ∃ s', exec i s = .next s' ∧ Faulted s s' t .addressRange ((encodeInsn i).getD 0) at')
      ∧ (at' % n = 0 → at' + n ≤ 2 ^ 21 → c.touch at' n = .ok → (flipsIn c.mem.eccData (at' / 8) (n / 8)).isEmpty = true →
        (n = 8 → ∃ s', exec (.ld t d a imm) s = .next s' ∧ DataKept s s' t 0 0
          ∧ Issued s s' t (c.setS d (BitVec.ofNat 64 (leNat ((List.range 8).map fun k => s.dataByte t (at' + k)))))
              (c.core.pc + 1))
        ∧ (n = 128 → ∃ s', exec (.vld t v a imm) s = .next s' ∧ DataKept s s' t 0 0
          ∧ Issued s s' t (c.setV v (bytesLanes ((List.range 128).map fun k => s.dataByte t (at' + k))))
              (c.core.pc + 1))
        ∧ (n = 8 → ∃ s', exec (.st t a d imm) s = .next s' ∧ DataKept s s' t at' 8
          ∧ (∀ k, k < 8 → s'.dataByte t (at' + k) = ((c.sreg d) >>> (8 * k)).setWidth 8)
          ∧ Issued s s' t (c.writeData at' (leBytes 8 (c.sreg d).toNat)) (c.core.pc + 1))
        ∧ (n = 128 → ∃ s', exec (.vst t a v imm) s = .next s' ∧ DataKept s s' t at' 128
          ∧ (∀ k, k < 128 → s'.dataByte t (at' + k) = ((lane (c.vreg v) (k / 4)) >>> (8 * (k % 4))).setWidth 8)
          ∧ Issued s s' t (c.writeData at' (laneBytes (c.vreg v))) (c.core.pc + 1)))

/-! ### Vector instructions -/

/-- R571: each of these instructions writes each lane of d with its result, modulo 2^32, goes on at the next address, and changes
nothing else. -/
def Obligations.VectorLaneOpsWriteEveryLane : Prop :=
  ∀ (s : State) (t : Nat) (d a b e : VReg) (k : SReg), s.takes t [k] [d, a, b, e] = true →
    let c := s.tile t
    let A := c.vreg a
    let B := c.vreg b
    let K := c.sreg k
    ∀ p ∈ ([(.vaddI32 t d a b, fun i => lane A i + lane B i), (.vsubI32 t d a b, fun i => lane A i - lane B i),
        (.vmulI32 t d a b, fun i => lane A i * lane B i), (.vfmaI32 t d a b e, fun i => lane A i * lane B i + lane (c.vreg e) i),
        (.vsel t d a b k, fun i => if K.getLsbD i then lane A i else lane B i), (.vbcast t d k, fun _ => K.setWidth 32),
        (.vshuf t d a b, fun i => lane A ((lane B i).toNat % 32))] : List (Instr × (Nat → Word32))),
      ∃ s' x, exec p.1 s = .next s' ∧ Issued s s' t (c.setV d x) (c.core.pc + 1) ∧ ∀ i, i < 32 → lane x i = p.2 i

/-- R193, R571: the FP32 operations round each exact result once, and the BF16 operations work on both halves of a lane; without
a norm tag each writes d, goes on at the next address, and changes nothing else. -/
def Obligations.VectorFloatOpsRoundOnce : Prop :=
  ∀ (s : State) (t : Nat) (d a b e : VReg), s.takes t [] [d, a, b, e] = true →
    let c := s.tile t
    let x (r : VReg) (i : Nat) : Machine.Num := f32 (lane (c.vreg r) i)
    let y (r : VReg) (i h : Nat) : Machine.Num := Format.bf16.decode (bitsAt (lane (c.vreg r) i).toNat (16 * h) 16)
    (∀ p ∈ ([(.vaddF32 t d a b 0, fun i => (x a i).add (x b i)), (.vsubF32 t d a b 0, fun i => (x a i).add (x b i).negate),
        (.vmulF32 t d a b 0, fun i => (x a i).mul (x b i)), (.vfmaF32 t d a b e 0, fun i => ((x a i).mul (x b i)).add (x e i))] :
        List (Instr × (Nat → Machine.Num))),
      ∃ s' v, exec p.1 s = .next s' ∧ Issued s s' t (c.setV d v) (c.core.pc + 1) ∧ ∀ i, i < 32 → lane v i = toF32 (p.2 i))
    ∧ ∀ p ∈ ([(.vaddBf t d a b, fun i h => (y a i h).add (y b i h)), (.vsubBf t d a b, fun i h => (y a i h).add (y b i h).negate),
        (.vmulBf t d a b, fun i h => (y a i h).mul (y b i h)), (.vfmaBf t d a b e, fun i h => ((y a i h).mul (y b i h)).add (y e i h))] :
        List (Instr × (Nat → Nat → Machine.Num))),
      ∃ s' v, exec p.1 s = .next s' ∧ Issued s s' t (c.setV d v) (c.core.pc + 1)
        ∧ ∀ i h, i < 32 → h < 2 → bitsAt (lane v i).toNat (16 * h) 16 = toBf16 (p.2 i h)

/-- R360, R361: a tagged FP32 operation writes the result of the untagged one; with the tap bit set, the norm window on and no
evaluation it adds the squares of its lanes to the open slot of its pair, and stalls while that needs a post and eight are in
flight; with a reserved bit or the reserved quantity it is ILLEGAL_INSN. -/
def Obligations.NormTagAddsTheSquares : Prop :=
  ∀ (s : State) (t : Nat) (d a b e : VReg) (imm : Word32), s.takes t [] [d, a, b, e] = true →
    let c := s.tile t
    let q : BitVec 2 := imm.extractLsb' 13 2
    let l : BitVec 12 := imm.extractLsb' 0 12
    let tap := imm.getLsbD 15 && s.train.normEnable && !s.inEval
    let fine := imm.extractLsb' 16 16 = 0 ∧ imm.getLsbD 12 = false ∧ q ≠ 3
    ∀ p ∈ ([(.vaddF32 t d a b imm, .vaddF32 t d a b 0), (.vsubF32 t d a b imm, .vsubF32 t d a b 0),
        (.vmulF32 t d a b imm, .vmulF32 t d a b 0), (.vfmaF32 t d a b e imm, .vfmaF32 t d a b e 0)] : List (Instr × Instr)),
      (fine → tap = false ∨ c.nt.blocked q l = false →
        ∃ s' s0 v, exec p.2 s = .next s0 ∧ Issued s s0 t (c.setV d v) (c.core.pc + 1) ∧ exec p.1 s = .next s'
          ∧ Issued s s' t { c.setV d v with nt := if tap then c.nt.add q l v else c.nt } (c.core.pc + 1))
      ∧ (fine → tap = true → c.nt.blocked q l = true → ∃ s', exec p.1 s = .next s' ∧ Stalled s s' t .normTap 0)
      ∧ (¬fine → ∃ s', exec p.1 s = .next s' ∧ Faulted s s' t .illegalInsn ((encodeInsn p.1).getD 0) 0)

/-- R294, R572, R573: VCMP writes a mask with one bit a lane; VRED writes the FP32 sum of the tree over the lanes, their FP32 or
INT32 maximum or minimum, their INT32 sum or their OR; VCVT writes the converted lanes under the selected rounding. A reserved bit,
a reduction 7 and a register b that a rounding does not use are ILLEGAL_INSN; a format code past 0x06 and a rounding 3 are
QUEUE_PARAM. -/
def Obligations.VectorCompareReduceConvert : Prop :=
  ∀ (s : State) (t : Nat) (d : SReg) (v a b : VReg) (imm : Word32), s.takes t [d] [v, a, b] = true →
    let c := s.tile t
    let A := c.vreg a
    let B := c.vreg b
    let writes (i : Instr) (w : Word64) := ∃ s', exec i s = .next s' ∧ Issued s s' t (c.setS d w) (c.core.pc + 1)
    let faults (i : Instr) (f : TileFault) := ∃ s', exec i s = .next s' ∧ Faulted s s' t f ((encodeInsn i).getD 0) 0
    let red (k : Nat) : Instr := .vred t d a (BitVec.ofNat 32 k)
    let dst := imm.toNat % 256
    let src := imm.toNat / 256 % 256
    let r := imm.toNat / 65536 % 4
    (imm.toNat < 8 → ∃ m, writes (.vcmp t d a b imm) m ∧ m.toNat < 2 ^ 32 ∧ ∀ i, i < 32 →
        let k := imm.toNat
        let eq := if k < 4 then (f32 (lane A i)).eq (f32 (lane B i)) else lane A i == lane B i
        let lt := if k < 4 then (f32 (lane A i)).lt (f32 (lane B i)) else decide ((lane A i).toInt < (lane B i).toInt)
        m.getLsbD i = (if k % 4 = 0 then eq else if k % 4 = 1 then lt else if k % 4 = 2 then lt || eq else !eq))
    ∧ (8 ≤ imm.toNat → faults (.vcmp t d a b imm) .illegalInsn)
    ∧ (∃ w : Nat → Nat → Word32, (∀ i, i < 32 → w 0 i = lane A i)
      ∧ (∀ k i, k < 5 → i < 2 ^ (4 - k) → w (k + 1) i = toF32 ((f32 (w k (2 * i))).add (f32 (w k (2 * i + 1)))))
      ∧ writes (red 0) ((w 5 0).setWidth 64))
    ∧ (∀ k, k = 1 ∨ k = 2 → ∃ m : Word32, writes (red k) (m.setWidth 64)
      ∧ ((∃ w ∈ A.toList, (f32 w).isNan = true) → m = 0x7FC0_0000)
      ∧ ((∀ w ∈ A.toList, (f32 w).isNan = false) → m ∈ A.toList ∧ ∀ w ∈ A.toList, w = m
        ∨ (if k = 1 then (f32 w).lt (f32 m) = true ∨ (w = 0x8000_0000 ∧ m = 0)
          else (f32 m).lt (f32 w) = true ∨ (m = 0x8000_0000 ∧ w = 0))))
    ∧ writes (red 3) ((A.toList.foldl (· + ·) 0).setWidth 64)
    ∧ (∀ k, k = 4 ∨ k = 5 → ∃ m, writes (red k) (m.setWidth 64) ∧ m ∈ A.toList
      ∧ ∀ w ∈ A.toList, if k = 4 then w.toInt ≤ m.toInt else m.toInt ≤ w.toInt)
    ∧ writes (red 6) ((A.toList.foldl (· ||| ·) 0).setWidth 64)
    ∧ (7 ≤ imm.toNat → faults (.vred t d a imm) .illegalInsn)
    ∧ (imm.toNat < 2 ^ 18 → r = 1 ∨ r = 3 ∨ b = 0 →
      (6 < dst ∨ 6 < src ∨ r = 3 → faults (.vcvt t v a b imm) .queueParam)
      ∧ (∀ df sf : Format, dst ≤ 6 → src ≤ 6 → r ≠ 3 → Format.ofCode dst = some df → Format.ofCode src = some sf →
        ∃ s' x, exec (.vcvt t v a b imm) s = .next s' ∧ Issued s s' t (c.setV v x) (c.core.pc + 1)
          ∧ ∀ i, i < 32 → lane x i = BitVec.ofNat 32 (df.convert
              (if r = 0 then .rne else if r = 1 then .stochastic ((lane B i).toNat % 16) s.srBits else .zero) s.toInf
              (sf.decode ((lane A i).toNat % 2 ^ sf.bits))).bits))
    ∧ (2 ^ 18 ≤ imm.toNat ∨ (b ≠ 0 ∧ (r = 0 ∨ r = 2)) → faults (.vcvt t v a b imm) .illegalInsn)

/-! ### Asynchronous instructions -/

/-- R59, R65, R142, R160, R161, R163, R170, R174, R240, R575: a matrix load, MMUL or MACC whose ring has its units, alone or as a
message of at least that many, and MCLR, MEPI, MFLG and MDRN, join the matrix queue with what they claim, reserve and mark pending,
and the core goes on; a reserved bit is ILLEGAL_INSN, and a format that the instruction does not take QUEUE_PARAM.
The model's choices here: logs 13 and 28. -/
def Obligations.MatrixInstructionsJoinTheirQueue : Prop :=
  ∀ (s : State) (t : Nat) (r : RingNo) (k : SReg) (imm : Word32) (f : Format) (cu : Option CountUnit), s.takes t [k] [] = true →
    let c := s.tile t
    let w := imm.toNat
    let item (op : MxOp) (i : Instr) : MxItem :=
      MxItem.blank c.core.issueSeq op ((encodeInsn i).getD 0) c.core.pc imm
    let faults (i : Instr) (e : TileFault) := ∃ s', exec i s = .next s' ∧ Faulted s s' t e ((encodeInsn i).getD 0) 0
    let start := (c.ring r).firstFree
    let n := (maskArrays (fieldMask imm)).length
    let claimed (need : Nat) := match cu with
      | some u => 1 + u.units
      | none => need
    let counted := (c.ring r).valid = true ∧ c.countsAt 1 r 0 cu
    c.mxFull = false →
      (∀ p ∈ [(Instr.mldh t r imm, MxOp.mldh), (.mldht t r imm, .mldht)],
        (w = bitsAt w 8 8 * 256 + bitsAt w 0 1 → Format.ofCode (bitsAt w 8 8) = some f →
          (f.isOperand = true → counted → enough cu f.heldUnits → c.meets [(r, claimed f.heldUnits)] [] →
            let mx := if natBit w 0 then { c.mx with heldFmt1 := BitVec.ofNat 8 (bitsAt w 8 8) }
              else { c.mx with heldFmt0 := BitVec.ofNat 8 (bitsAt w 8 8) }
            ∃ s', exec p.1 s = .next s' ∧ Queued s s' t
              (({ c with mx := mx }.noteCount cu 0).pushMx { item p.2 p.1 with
                ringA := r, startA := start, unitsA := claimed f.heldUnits, prefixed := cu.isSome })
              [(r, claimed f.heldUnits)] [])
          ∧ (f.isOperand = false → faults p.1 .queueParam))
        ∧ (w ≠ bitsAt w 8 8 * 256 + bitsAt w 0 1 → faults p.1 .illegalInsn))
      ∧ (natBit w 13 = true → faults (.mmul t r imm) .illegalInsn)
      ∧ (∀ h, natBit w 13 = false → Format.ofCode (fieldFmt imm) = some f →
        Format.ofCode (if natBit w 14 then c.mx.heldFmt1 else c.mx.heldFmt0).toNat = some h →
        (f.isOperand = false ∨ h.pairs f = false ∨ c.mx.slabIssued = true ∨ badMask (fieldMask imm) = true →
          faults (.mmul t r imm) .queueParam)
        ∧ (f.isOperand = true → h.pairs f = true → c.mx.slabIssued = false → badMask (fieldMask imm) = false → counted →
          fieldRows imm ≠ 0 ∨ cu.isSome = true →
          let rows := if fieldRows imm ≠ 0 then fieldRows imm else (cu.map (·.rows)).getD 0
          let map := cu.bind (·.groupMap)
          let units := passingUnits f f.kPass rows n map
          rows ≤ 256 → fieldBase imm + rows ≤ 256 → enough cu units → c.meets [(r, claimed units)] [] →
          ∃ s', exec (.mmul t r imm) s = .next s' ∧ Queued s s' t
            ((c.noteCount cu rows).pushMx { item .mmul (.mmul t r imm) with
              ringA := r, startA := start, unitsA := claimed units, rows := rows, prefixed := cu.isSome, groupMap := map })
            [(r, claimed units)] []))
      ∧ (natBit w 13 = true ∨ natBit w 8 = true → faults (.macc t r imm) .illegalInsn)
      ∧ (natBit w 13 = false → natBit w 8 = false → Format.ofCode (fieldFmt imm) = some f →
        (f.isPreload = false ∨ badMask (fieldMask imm) = true → faults (.macc t r imm) .queueParam)
        ∧ (f.isPreload = true → badMask (fieldMask imm) = false → counted →
          let rows := if fieldRows imm ≠ 0 then fieldRows imm else (cu.map (·.rows)).getD c.mx.lastCount
          let units := preloadUnits f c.mx.slabIssued (natBit w 14) rows n
          fieldBase imm + rows ≤ modeRows c.mx.slabIssued → enough cu units → c.meets [(r, claimed units)] [] →
          ∃ s', exec (.macc t r imm) s = .next s' ∧ Queued s s' t
            ((c.noteCount cu 0).pushMx { item .macc (.macc t r imm) with
              ringA := r, startA := start, unitsA := claimed units, rows := rows, prefixed := cu.isSome })
            [(r, claimed units)] []))
      ∧ (let rows := if fieldRows imm ≠ 0 then fieldRows imm else modeRows c.mx.slabIssued
        bitsAt w 13 2 = 0 → bitsAt w 2 7 = 0 →
        natBit w 1 = true ∨ (fieldBase imm + rows ≤ modeRows c.mx.slabIssued ∧ badMask (fieldMask imm) = false) →
        ∃ s', exec (.mclr t imm) s = .next s' ∧ Queued s s' t
          ({ c with mx := { c.mx with slabIssued := if natBit w 1 then natBit w 0 else c.mx.slabIssued } }.pushMx
            { item .mclr (.mclr t imm) with rows := rows }) [] [])
      ∧ (let off := (c.sreg k).toNat
        let ctl := leNat ((List.range 4).map fun i => s.dataByte t (off + i))
        let ring := s.dataByte t (off + 0x26)
        let src : BitVec 2 := BitVec.ofNat 2 (bitsAt ctl 9 2)
        w < 8 → c.readable off 40 → off + 128 ≤ 2 ^ 21 → ∃ s', exec (.mepi t k imm) s = .next s' ∧ Queued s s' t
          ({ c with mx := { c.mx with issueMask := NMap.set (0, 0) c.mx.issueMask w (src, ring) } }.pushMx
              { item .mepi (.mepi t k imm) with p := off, maskSource := src, dir := [ring] }) [] [])
      ∧ (8 ≤ w → faults (.mepi t k imm) .illegalInsn)
      ∧ (Format.ofCode (fieldFmt imm) = some f →
        (f.isDrain = false ∨ badMask (drainMask imm) = true → faults (.mdrn t r imm) .queueParam)
        ∧ (f.isDrain = true → badMask (drainMask imm) = false →
          let rows := if fieldRows imm ≠ 0 then fieldRows imm else c.mx.lastCount
          let arrs := (maskArrays (drainMask imm)).length
          let cols := modeCols c.mx.slabIssued
          let units := arrs * blockUnits f rows cols
          let mask : BitVec 2 × Byte := NMap.get (0, 0) c.mx.issueMask (bitsAt w 12 3)
          let ring : RingNo := mask.2.setWidth 5
          let masked := mask.1 ≠ 0 ∧ mask.2.toNat < 32 ∧ (c.ring ring).valid = true
          let masks := if masked then arrs * maskUnits rows cols else 0
          let makes := (r, units) :: (if masked then [(ring, masks)] else [])
          rows ≠ 0 → fieldBase imm + rows ≤ modeRows c.mx.slabIssued → c.meets [] makes →
          ∃ s', exec (.mdrn t r imm) s = .next s' ∧ Queued s s' t
            (c.pushMx { item .mdrn (.mdrn t r imm) with
              ringD := r, unitsD := units, ringM := ring, unitsM := masks, rows := rows, maskSource := mask.1 }) [] makes))
      ∧ (w < 16 → ∃ s', exec (.mflg t k imm) s = .next s'
          ∧ Queued s s' t ((c.pendScalar k true).pushMx { item .mflg (.mflg t k imm) with dest := k }) [] [])
      ∧ (16 ≤ w → faults (.mflg t k imm) .illegalInsn)

/-- R164, R228, R229, R240, R243: an MSLB whose rings have the slab and the passing rows, each alone or as one message of at least
that many units, claims both and joins the matrix queue with the directory entry it read; a directory offset off a multiple of 16 is
MISALIGNED, and formats that do not pair, or the dense mode, are QUEUE_PARAM. The model's choices here: log 28. -/
def Obligations.SlabProductClaimsBothRings : Prop :=
  ∀ (s : State) (t : Nat) (ra rb : RingNo) (k : SReg) (imm : Word32) (f h : Format) (ca cb : Option CountUnit),
    s.takes t [k] [] = true →
    let c := s.tile t
    let off := (c.sreg k).toNat
    let i : Instr := .mslb t ra rb k imm
    let bs := (List.range 16).map fun n => s.dataByte t (off + n)
    let e := DirEntry.parse bs
    let claimed (cu : Option CountUnit) (need : Nat) := match cu with
      | some u => 1 + u.units
      | none => need
    let rows := if fieldRows imm ≠ 0 then fieldRows imm else (cb.map (·.rows)).getD 0
    let map := cb.bind (·.groupMap)
    let slab := slabUnits h e.blocks
    let need := passingUnits f 128 rows (maskArrays (fieldMask imm)).length map
    let a := claimed ca slab
    let b := claimed cb need
    let skip := if ra = rb then a else 0
    let fits := f.isOperand = true ∧ h.isOperand = true ∧ h.pairs f = true ∧ c.mx.slabIssued = true
      ∧ badMask (fieldMask imm) = false ∧ (h.isMx = true → e.mxTransposed = natBit imm.toNat 14)
    c.core.held = none → natBit imm.toNat 13 = false →
      (off % 16 ≠ 0 → ∃ s', exec i s = .next s' ∧ Faulted s s' t .misaligned ((encodeInsn i).getD 0) off)
      ∧ (off % 16 = 0 → c.readable off 16 → Format.ofCode (fieldFmt imm) = some f → Format.ofCode e.format = some h →
        (¬fits → ∃ s', exec i s = .next s' ∧ Faulted s s' t .queueParam ((encodeInsn i).getD 0) 0)
        ∧ (fits → c.mxFull = false → (c.ring ra).valid = true → c.countsAt 1 ra 0 ca → (c.ring rb).valid = true →
          c.countsAt 1 rb skip cb → fieldRows imm ≠ 0 ∨ cb.isSome = true → rows ≤ 64 → fieldBase imm + rows ≤ 64 →
          enough ca slab → enough cb need → c.meets [(ra, a), (rb, b)] [] →
          ∃ s', exec i s = .next s' ∧ Queued s s' t
            (((c.noteCount ca 0).noteCount cb rows).pushMx
              { MxItem.blank c.core.issueSeq .mslb ((encodeInsn i).getD 0) c.core.pc imm with
                ringA := ra, startA := (c.ring ra).firstFree + b2n ca.isSome, unitsA := slab, ringB := rb
                startB := (c.ring rb).firstFree + skip, unitsB := b, rows := rows, prefixed := cb.isSome, groupMap := map
                p := off, dir := bs })
            [(ra, a), (rb, b)] []))

/-- R57, R65, R69, R251: a MOVQ whose descriptor is in order joins the mover queue, claiming what its ring source holds: its length,
or one message of at most that many units. A field out of range is QUEUE_PARAM, a status offset off a multiple of 8 MISALIGNED and one
past the memory ADDRESS_RANGE. MOVC writes the count of completed descriptors. The model's choices here: logs 44 and 120. -/
def Obligations.MoverInstructionsQueueAndCount : Prop :=
  ∀ (s : State) (t : Nat) (a : RingNo) (b : VReg) (d : SReg) (cu : Option CountUnit), s.takes t [d] [b] = true →
    let c := s.tile t
    let bytes := (laneBytes (c.vreg b)).take 32
    let x := Desc.parse bytes
    let i : Instr := .movq t a b
    let faults (f : TileFault) (addr : Nat) := ∃ s', exec i s = .next s' ∧ Faulted s s' t f ((encodeInsn i).getD 0) addr
    (∃ s', exec (.movc t d) s = .next s' ∧ Issued s s' t (c.setS d (c.mv.done.setWidth 64)) (c.core.pc + 1))
      ∧ (x.badField = true → faults .queueParam 0)
      ∧ (x.badField = false →
        (x.statusOffset % 8 ≠ 0 → faults .misaligned x.statusOffset)
        ∧ (x.statusOffset % 8 = 0 →
          (2 ^ 21 < x.statusOffset + 8 → faults .addressRange x.statusOffset)
          ∧ (x.statusOffset + 8 ≤ 2 ^ 21 → c.mv.queue.length < 64 →
            (x.dstIsRing = true → (c.ring (BitVec.ofNat 5 x.dstRing)).valid = true) →
            let item (ring : RingNo) (start units : Nat) (m : Option Nat) : MvItem :=
              { id := c.core.issueSeq, desc := bytes, ring := ring, start := start, units := units, message := m }
            let joins (it : MvItem) (claims : List (RingNo × Nat)) := ∃ s', exec i s = .next s'
              ∧ Queued s s' t { c with mv := { c.mv with queue := c.mv.queue ++ [it] } } claims []
            (x.srcIsRing = false → joins (item 0 0 0 none) [])
            ∧ (x.srcIsRing = true → (c.ring a).valid = true → c.countsAt 3 a 0 cu →
              let units := match cu with
                | some u => 1 + u.units
                | none => x.length
              ((∃ u, cu = some u ∧ x.length < u.units) → faults .queueParam 0)
              ∧ ((∀ u, cu = some u → u.units ≤ x.length) → c.meets [(a, units)] [] →
                joins (item a (c.ring a).firstFree units (cu.map (·.units))) [(a, units)])))))

/-- R65, R70, R242, R277, R283: a SEND of units from a ring or a region to resolvable destinations joins the send queue under the
current send group and its index, with the next sequence number; a counted one takes the count unit and the units that it names.
Length 0, no destination, or a count above the length is SEND_PARAM; a reserved bit is ILLEGAL_INSN; a region past the memory is
ADDRESS_RANGE. The model's choices here: logs 42 and 120. -/
def Obligations.SendQueuesUnderItsGroup : Prop :=
  ∀ (s : State) (t : Nat) (a : RingNo) (d p : SReg) (imm : Word32) (goal : SendTo) (bs : List Byte), s.takes t [d, p] [] = true →
    let c := s.tile t
    let i : Instr := .send t a d p imm
    let length := bitsAt imm.toNat 16 16
    let goals := s.sendTargets (bitsAt imm.toNat 8 3) (c.sreg d).toNat
    let region := imm.getLsbD 2
    let off := (c.sreg p).toNat
    let counted := imm.getLsbD 0 = true ∨ (region = false ∧ (c.ring a).countPrefixed = true)
    let count := (CountUnit.parse bs).units
    let units := if counted then 1 + count else length
    let faults (f : TileFault) (addr : Nat) := ∃ s', exec i s = .next s' ∧ Faulted s s' t f ((encodeInsn i).getD 0) addr
    let item : SdItem :=
      { id := c.core.issueSeq, word := (encodeInsn i).getD 0, pc := BitVec.ofNat 13 c.core.pc
        seq := c.sd.issued, group := c.sd.sendGroup, index := (c.member c.sd.sendGroup.toNat).index
        kind := bitsAt imm.toNat 8 3, ring := if region then none else some a
        start := if region then 0 else (c.ring a).firstFree, units := units, marker := imm.getLsbD 1
        region := if region then some off else none
        destRing := imm.extractLsb' 11 5, dests := goal.tiles.map fun u => SendDest.mk u 0 none false, remote := goal.remote
        running := false, stopAt := none, waitRecord := false, pageWait := none, flight := none }
    let read := if region then c.readable off 64 ∧ bs = (List.range 64).map fun k => s.dataByte t (off + k)
      else (c.ring a).valid = true ∧ 0 < (c.ring a).available ∧ c.readUnits 0 a (c.ring a).firstFree 1 = (c, some bs)
    let claims := if region then [] else [(a, units)]
    (bitsAt imm.toNat 3 5 ≠ 0 → faults .illegalInsn 0)
    ∧ (bitsAt imm.toNat 3 5 = 0 →
      (length = 0 ∨ goals = none → faults .sendParam 0)
      ∧ (length ≠ 0 → goals = some goal → c.core.held = none →
        (region = true → counted → 2 ^ 21 < off + 64 → faults .addressRange off)
        ∧ (region = false → (c.ring a).valid = false → faults .ringUndefined 0)
        ∧ (counted → read → length < count → faults .sendParam 0)
        ∧ ((counted → read ∧ count ≤ length) →
          (region = true → 2 ^ 21 < off + 64 * units → faults .addressRange off)
          ∧ (c.sd.queue.length < 32 → (if region then off + 64 * units ≤ 2 ^ 21 else c.meets [(a, units)] []) →
            ∃ s', exec i s = .next s'
              ∧ Queued s s' t { c with sd := { c.sd with queue := c.sd.queue ++ [item], issued := c.sd.issued + 1 } } claims []))))

/-- R64, R71, R105, R107: RSET writes the descriptor of lanes 0 to 3, RGET reads a field, RPUSH and RPOP move the tail and the head
once the room or the units are there, RWAIT and RSPACE only wait for them, and until then each stalls; nothing else changes. A ring
with claims or reservations, a descriptor out of order and a field past 5 are QUEUE_PARAM, a push or pop of more than the size
RING_NEED_EXCEEDS_SIZE, an uninitialised ring RING_UNDEFINED. The model's choices here: log 14. -/
def Obligations.RingInstructionsMoveTheirCounters : Prop :=
  ∀ (s : State) (t : Nat) (r : RingNo) (b : VReg) (d : SReg) (n : Word32), s.takes t [d] [b] = true →
    let c := s.tile t
    let x := c.ring r
    let w : BitVec 128 := lane (c.vreg b) 3 ++ lane (c.vreg b) 2 ++ lane (c.vreg b) 1 ++ lane (c.vreg b) 0
    let faults (i : Instr) (f : TileFault) := ∃ s', exec i s = .next s' ∧ Faulted s s' t f ((encodeInsn i).getD 0) 0
    let does (i : Instr) (c' : Tile) := ∃ s', exec i s = .next s' ∧ Issued s s' t c' (c.core.pc + 1)
    let stalls (i : Instr) := ∃ s', exec i s = .next s' ∧ Stalled s s' t .ring r
    (x.claimed = 0 → x.reserved = 0 → (Ring.unpack w).wellFormed c.pageAttr = true →
        does (.rset t b r) (c.setRing r { Ring.unpack w with sources := x.sources, multi := x.multi }))
      ∧ (x.claimed ≠ 0 ∨ x.reserved ≠ 0 ∨ (Ring.unpack w).wellFormed c.pageAttr = false → faults (.rset t b r) .queueParam)
      ∧ (x.valid = false → ∀ i ∈ [Instr.rget t r d n, .rpush t r n, .rpop t r n, .rwait t r n, .rspace t r n],
          faults i .ringUndefined)
      ∧ (x.valid = true →
        (∀ p ∈ ([(0, x.head.toNat), (1, x.tail.toNat), (2, (x.tail - x.head).toNat), (3, x.claimed), (4, x.reserved),
            (5, x.size.toNat)] : List (Nat × Nat)), n.toNat = p.1 → does (.rget t r d n) (c.setS d (BitVec.ofNat 64 p.2)))
        ∧ (5 < n.toNat → faults (.rget t r d n) .queueParam)
        ∧ (x.size.toNat < n.toNat → ∀ i ∈ [Instr.rpush t r n, .rpop t r n], faults i .ringNeedExceedsSize)
        ∧ (n.toNat ≤ x.room →
          does (.rspace t r n) c ∧ (n.toNat ≤ x.size.toNat → does (.rpush t r n) (c.setRing r { x with tail := x.tail + n })))
        ∧ (x.room < n.toNat → stalls (.rspace t r n) ∧ (n.toNat ≤ x.size.toNat → stalls (.rpush t r n)))
        ∧ (n.toNat ≤ x.available → does (.rwait t r n) c
          ∧ (n.toNat ≤ x.size.toNat → x.claims = [] → does (.rpop t r n) (c.setRing r { x with head := x.head + n })))
        ∧ (x.available < n.toNat → stalls (.rwait t r n))
        ∧ (x.available < n.toNat ∨ x.claims ≠ [] → n.toNat ≤ x.size.toNat → stalls (.rpop t r n)))

/-- R72, R74, R121, R122, R316: RNGV and RNGR join the random queue and the reach instructions the reach port, with what they mark
pending and reserve. An RNGV imm past 1 and an RNGR of no unit are QUEUE_PARAM, an address that is not aligned MISALIGNED, and one
that the address map does not take REACH_ADDRESS. The model's choices here: logs 13 and 25. -/
def Obligations.RandomAndReachInstructionsQueue : Prop :=
  ∀ (s : State) (t : Nat) (e p a d : SReg) (v : VReg) (r : RingNo) (imm : Word32), s.takes t [e, p, a, d] [v] = true →
    let c := s.tile t
    let at' := (c.sreg a + imm.signExtend 64).toNat
    let faults (i : Instr) (f : TileFault) (addr : Nat) := ∃ s', exec i s = .next s'
      ∧ Faulted s s' t f ((encodeInsn i).getD 0) addr
    let rn (toRing : Bool) (units : Nat) : RnItem :=
      { id := c.core.issueSeq, toRing := toRing, reg := if toRing then 0 else v, ring := if toRing then r else 0
        stream := (c.sreg p).setWidth 32, index := c.sreg e, nibble := !toRing && imm.getLsbD 0, units := units }
    (imm.toNat < 2 → c.rnFull = false → ∃ s', exec (.rngv t e v p imm) s = .next s'
        ∧ Queued s s' t ((c.pendVector v true).pushRn (rn false 0)) [] [])
      ∧ (2 ≤ imm.toNat → faults (.rngv t e v p imm) .queueParam 0)
      ∧ (imm ≠ 0 → c.rnFull = false → c.meets [] [(r, imm.toNat)] → ∃ s', exec (.rngr t e r p imm) s = .next s'
        ∧ Queued s s' t (c.pushRn (rn true imm.toNat)) [] [(r, imm.toNat)])
      ∧ (imm = 0 → faults (.rngr t e r p imm) .queueParam 0)
      ∧ ∀ q ∈ ([(.xrds t d a imm, .readS, [], d, 0, c.pendScalar d true), (.xrdv t v a imm, .readV, [], 0, v, c.pendVector v true),
          (.xwrs t a d imm, .writeS, leBytes 8 (c.sreg d).toNat, 0, 0, c), (.xwrv t a v imm, .writeV, laneBytes (c.vreg v), 0, 0, c)] :
          List (Instr × ReachOp × List Byte × SReg × VReg × Tile)),
        (at' % q.2.1.size ≠ 0 → faults q.1 .misaligned at')
        ∧ (at' % q.2.1.size = 0 → s.reachOk q.2.1 at' = false → faults q.1 .reachAddress at')
        ∧ (c.rc.out.length < 16 → at' % q.2.1.size = 0 → s.reachOk q.2.1 at' = true →
          let item : RcItem := { id := c.core.issueSeq, op := q.2.1, addr := at', data := q.2.2.1, destS := q.2.2.2.1
                                 destV := q.2.2.2.2.1, word := (encodeInsn q.1).getD 0, pc := BitVec.ofNat 13 c.core.pc
                                 state := .sent }
          ∃ s', exec q.1 s = .next s' ∧ Queued s s' t { q.2.2.2.2.2 with rc := { c.rc with out := c.rc.out ++ [item] } } [] [])

/-- R73, R76, R284, R286, R287, R289, R296: FENCE goes on once the selected engines are idle and stalls until then; EXPECT sets the
markers awaited at the next haul bell; BELL arrives at its bell with lanes 0 to 7 as payload and stops the core there; a final BELL
arrives at the final bells of all groups, and a rolled haul BELL goes on with the next superstep. A tile that is no member, and a
roll that is not allowed, are QUEUE_PARAM; a bell out of its place is BELL_COUNT; a reserved bit is ILLEGAL_INSN.
The model's choices here: logs 13 and 16. -/
def Obligations.SyncInstructionsFenceExpectAndArrive : Prop :=
  ∀ (s : State) (t g : Nat) (p : SReg) (b : VReg) (imm : Word32) (mask : BitVec 8), g < 8 → s.takes t [p] [b] = true →
    let c := s.tile t
    let m := c.member g
    let word (final roll : Bool) : Word32 := BitVec.ofNat 32 (g + 256 * mask.toNat + 65536 * b2n final + 131072 * b2n roll)
    let lanes8 := (List.range 8).map (lane (c.vreg b))
    let stops (i : Instr) (code : BitVec 8) := ∃ s', exec i s = .next s'
      ∧ (s'.tile t).core.run = .faulted ∧ (s'.tile t).core.pc = c.core.pc ∧ (s'.tile t).mem = c.mem ∧ (s'.tile t).sd.sendGroup = c.sd.sendGroup
      ∧ (c.core.fault.valid = false → (s'.tile t).core.fault.code = code)
    let leaves (s' : State) (run : RunState) (work : Bool) := OnlyTile s s' t
      ∧ (s'.tile t).core = { c.core with
          pc := c.core.pc + 1, run := run, stallKind := .none, stallRing := 0, held := none, engineWork := work }
      ∧ (s'.tile t).mem = c.mem ∧ (s'.tile t).mx = c.mx ∧ (s'.tile t).mv = c.mv
    (imm.toNat < 32 → if c.fenced imm then ∃ s', exec (.fence t imm) s = .next s' ∧ Issued s s' t c (c.core.pc + 1)
        else ∃ s', exec (.fence t imm) s = .next s' ∧ Stalled s s' t .fence 0)
      ∧ (32 ≤ imm.toNat → stops (.fence t imm) 0x01)
      ∧ (8 ≤ imm.toNat → stops (.expect t p imm) 0x01)
      ∧ (bitsAt imm.toNat 3 5 ≠ 0 ∨ 2 ^ 18 ≤ imm.toNat → stops (.bell t b imm) 0x01)
      ∧ (¬ g ∈ s.groupsOf t → stops (.expect t p (BitVec.ofNat 32 g)) 0x07
        ∧ ∀ final roll, stops (.bell t b (word final roll)) 0x07)
      ∧ (g ∈ s.groupsOf t →
        (∃ s', exec (.expect t p (BitVec.ofNat 32 g)) s = .next s'
          ∧ Issued s s' t (c.setMember g { m with expect := NMap.set 0 m.expect m.index (c.sreg p).toNat }) (c.core.pc + 1))
        ∧ (m.phase = .cut ∨ m.phase = .haul → ∃ s', exec (.bell t b (word false false)) s = .next s'
          ∧ leaves s' (if m.phase = .cut ∧ c.core.engineWork = false then .emptyCut else .atBell) false
          ∧ (let m' := (s'.tile t).member g
            m'.arrived = true ∧ m'.mask = mask ∧ m'.lanes = lanes8 ∧ m'.reg = some b ∧ m'.phase = m.phase ∧ m'.index = m.index))
        ∧ (m.phase = .final ∨ m.phase = .done → stops (.bell t b (word false false)) 0x0A)
        ∧ (∀ final, m.phase ≠ .haul ∨ s.imageFlag 1 = false ∨ mask ≠ 0 → stops (.bell t b (word final true)) 0x07)
        ∧ (m.phase = .haul → s.imageFlag 1 = true → mask = 0 → ∃ s', exec (.bell t b (word false true)) s = .next s'
          ∧ leaves s' .running false ∧ (s'.tile t).sd.sendGroup.toNat = g
          ∧ (let m' := (s'.tile t).member g
            m'.rolled = true ∧ m'.index = m.index + 1 ∧ m'.arrived = m.arrived
              ∧ m'.phase = if m.index + 1 = s.supersteps then .final else .cut))
        ∧ (let ready := ∀ h ∈ s.groupsOf t, (c.member h).phase = .final ∧ (c.member h).arrived = false
          (¬ready → stops (.bell t b (word true false)) 0x0A)
          ∧ (ready → ∃ s', exec (.bell t b (word true false)) s = .next s' ∧ leaves s' .atBell false
            ∧ ∀ h ∈ s.groupsOf t, let m' := (s'.tile t).member h
              m'.arrived = true ∧ m'.mask = (if h = g then mask else 0) ∧ m'.lanes = lanes8
                ∧ m'.reg = (if h = g then some b else none) ∧ m'.phase = .final)))

/-! ### The matrix engine -/

/-- R148, R170, R175, R233, R235: the head of the matrix queue goes to its stage, the loader, the feed or the drain, once that stage
is empty. An MSLB reads its header, chooses its path and is counted; an MDRN copies its slot, whose index base advances. A header
that disagrees with the directory, and an empty slot, are QUEUE_PARAM, after which no later matrix instruction completes.
The model's choices here: logs 31, 32 and 40. -/
def Obligations.MatrixDispatchFillsTheStage : Prop :=
  ∀ (s : State) (t : Nat) (i : MxItem) (rest : List MxItem) (hdr : List Byte) (f : Format) (x : EpiSlot), s.works t = true →
    let c := s.tile t
    let k := bitsAt i.imm.toNat 12 3
    let e := DirEntry.parse i.dir
    let goes (slabs : SlabCounts) (mx : Mx) := ∃ s', exec (.matrixDispatch t) s = .next s'
      ∧ Worked s s' t { c with mx := mx, slabs := slabs }
    let faults := ∃ s', exec (.matrixDispatch t) s = .next s' ∧ (∀ u, u ≠ t → s'.tile u = s.tile u)
      ∧ (s'.tile t).core.run = .faulted ∧ (s'.tile t).mx = { c.mx with stopped := some i.id } ∧ (s'.tile t).mem = c.mem
      ∧ (c.core.fault.valid = false → (s'.tile t).core.fault.code = 0x07 ∧ (s'.tile t).core.fault.pc = i.pc)
    c.core.run ≠ .emptyCut → c.mx.queue = i :: rest → c.mx.stopped = none → c.mx.loader = none → c.mx.feed = none →
      c.mx.drain = none →
      (i.op ≠ .mslb → i.op ≠ .mdrn → goes c.slabs (match i.op with
          | .mldh | .mldht | .mepi => { c.mx with queue := rest, loader := some i }
          | .mflg => { c.mx with queue := rest, drain := some i }
          | _ => { c.mx with queue := rest, feed := some i }))
      ∧ (i.op = .mslb → c.readUnits 1 i.ringA i.startA 1 = (c, some hdr) → Format.ofCode e.format = some f →
        let tr := i.imm.getLsbD 14
        (headerAgrees e f tr (blockMap hdr) = false → faults)
        ∧ (headerAgrees e f tr (blockMap hdr) = true →
          let sp := !c.mx.forceDense && decide (ceilDiv (if tr then e.slotsT else e.slots) 4 ≤ c.mx.threshold.toNat)
          goes (c.slabs.count e tr sp) { c.mx with queue := rest, feed := some { i with sparse := sp } }))
      ∧ (i.op = .mdrn → Format.ofCode (fieldFmt i.imm) = some f →
        (NMap.get none c.mx.slots k = none → faults)
        ∧ (NMap.get none c.mx.slots k = some x →
          let r := EpiRecord.parse x.record
          (f.isMx = true → r.outScale = true → faults)
          ∧ ((f.isMx && r.outScale) = false → r.rangeOk (modeCols c.mx.slab) = true →
            let next := patch x.record 0x30 (leBytes 8 ((r.indexBase + r.indexAdvance) % 2 ^ 64))
            goes c.slabs { c.mx with
              queue := rest, drain := some { i with slot := some x }
              slots := NMap.put c.mx.slots k (some { x with record := next }) })))

/-- R60, R149, R155, R159 to R161, R165: MMUL, MACC, MSLB and MCLR leave the feed, let their rings go on, and change no accumulator
outside their arrays and rows; MACC from FP32 writes the words of its ring, MCLR zeros its rows or, as a mode switch, all; an MSLB of
an empty slab with accumulate 0 zeros its rows and loads no held buffer. The model's choices here: logs 28, 29, 30 and 33. -/
def Obligations.MatrixFeedWritesOnlyItsRows : Prop :=
  ∀ (s : State) (t : Nat) (i : MxItem) (f : Format) (bs : List Byte), s.works t = true →
    let c := s.tile t
    let base := fieldBase i.imm
    let arrs := maskArrays (fieldMask i.imm)
    let cols := modeCols c.mx.slab
    let kept (acc : NMap Word32) := ∀ a row col, row < modeRows c.mx.slab → col < cols →
      ¬(a ∈ arrs ∧ base ≤ row ∧ row < base + i.rows) → NMap.get 0 acc (accKey cols a row col) = c.mx.accAt a row col
    let start := i.startA + b2n i.prefixed
    let goesOn (c : Tile) (r : RingNo) := c.modRing r fun x => x.finish i.id
    c.core.run ≠ .emptyCut → c.mx.feed = some i → c.mx.stopped = none → c.mx.loader = none → c.mx.drain = none →
    Format.ofCode (fieldFmt i.imm) = some f → base + i.rows ≤ modeRows c.mx.slab →
      (i.op = .mmul → c.mx.slab = false →
        c.readUnits 1 i.ringA start (passingUnits f f.kPass i.rows arrs.length i.groupMap) = (c, some bs) →
        ∃ s' acc sat nan busy bubble, exec (.mmulComplete t) s = .next s' ∧ kept acc ∧ Worked s s' t
          (goesOn { c with mx := { c.mx with
            acc := acc, sat := sat, nan := nan, feed := none, feedBusy := busy, feedBubble := bubble } } i.ringA))
      ∧ (∀ slab h, i.op = .mslb → c.mx.slab = true → Format.ofCode (DirEntry.parse i.dir).format = some h →
        c.readUnits 1 i.ringA i.startA i.unitsA = (c, some slab) →
        c.readUnits 1 i.ringB (i.startB + b2n i.prefixed) (passingUnits f 128 i.rows arrs.length i.groupMap) = (c, some bs) →
        ∃ s' acc sat nan busy h0 h1 wait, exec (.mslbComplete t) s = .next s' ∧ kept acc
          ∧ ((DirEntry.parse i.dir).blocks = 0 → acc = (if i.imm.getLsbD 8 then c.mx.acc else (c.mx.zeroRows arrs base i.rows).acc)
              ∧ h0 = c.mx.held0 ∧ h1 = c.mx.held1 ∧ wait = c.mx.heldWait ∧ s'.freeCtr = s.freeCtr)
          ∧ Worked { s with freeCtr := s'.freeCtr } s' t (goesOn (goesOn { c with
              mx := { c.mx with
                acc := acc, sat := sat, nan := nan, held0 := h0, held1 := h1, heldWait := wait, feed := none
                feedBusy := busy } } i.ringA) i.ringB))
      ∧ (i.op = .macc →
        c.readUnits 1 i.ringA start (preloadUnits f c.mx.slab (i.imm.getLsbD 14) i.rows arrs.length) = (c, some bs) →
        ∃ s' acc busy, exec (.maccComplete t) s = .next s' ∧ kept acc
          ∧ (f = .fp32 → i.imm.getLsbD 14 = false → ∀ k a, arrs[k]? = some a → ∀ row col, row < i.rows → col < cols →
              NMap.get 0 acc (accKey cols a (base + row) col)
                = BitVec.ofNat 32 (leAt bs (64 * ceilDiv (i.rows * cols * 4) 64 * k + 4 * (row * cols + col)) 4))
          ∧ Worked s s' t (goesOn { c with mx := { c.mx with acc := acc, feed := none, feedBusy := busy } } i.ringA))
      ∧ (i.op = .mclr → i.imm.getLsbD 1 = false → ∃ s' acc sat nan, exec (.mclrComplete t) s = .next s' ∧ kept acc
          ∧ (∀ a row col, a ∈ arrs → base ≤ row → row < base + i.rows → col < cols → NMap.get 0 acc (accKey cols a row col) = 0)
          ∧ Worked s s' t { c with mx := { c.mx with acc := acc, sat := sat, nan := nan, feed := none } })
      ∧ (i.op = .mclr → i.imm.getLsbD 1 = true → ∃ s', exec (.mclrComplete t) s = .next s' ∧ Worked s s' t { c with
            mx := { c.mx with slab := i.imm.getLsbD 0, acc := [], sat := 0, nan := 0, feed := none } })

/-- R142, R163, R167, R170, R173, R174: a held load fills its buffer, an MEPI its slot, or leaves it empty with QUEUE_PARAM where the
record is not valid; a drain writes each output and mask unit where its ring keeps it and advances the tail over units without a gap,
and at its end raises the amax word; MFLG writes the flags. The model's choices here: logs 30, 31, 34 and 35. -/
def Obligations.MatrixLoaderAndDrainFinish : Prop :=
  ∀ (s : State) (t u : Nat) (i : MxItem) (f : Format) (bs : List Byte) (o : DrainOut) (x : EpiSlot), s.works t = true →
    let c := s.tile t
    c.core.run ≠ .emptyCut → c.mx.stopped = none →
      (c.mx.loader = some i → i.op = .mldh ∨ i.op = .mldht → Format.ofCode (bitsAt i.imm.toNat 8 8) = some f →
        c.readUnits 1 i.ringA (i.startA + b2n i.prefixed) f.heldUnits = (c, some bs) →
        let h := fillBuffer f (i.op == .mldht) bs
        ∃ s', exec (.heldLoadDone t) s = .next s' ∧ Worked s s' t ({ c with
          mx := { c.mx with
            held0 := if i.imm.getLsbD 0 then c.mx.held0 else h
            held1 := if i.imm.getLsbD 0 then h else c.mx.held1, loader := none } }.modRing i.ringA fun x => x.finish i.id))
      ∧ (c.mx.loader = some i → i.op = .mepi → c.touch i.p 128 = .ok → c.readData 1 i.p 128 = (c, some bs) →
        let k := bitsAt i.imm.toNat 0 3
        let r := EpiRecord.parse (i.installed bs)
        (EpiRecord.valid s c (i.installed bs) = true → ∃ s', exec (.mepiInstall t) s = .next s' ∧ Worked s s' t { c with
          mx := { c.mx with
            loader := none
            slots := NMap.put c.mx.slots k (some
              ⟨i.installed bs, if r.outScale then (s.scaleEntry r.outTensor).scale else 0x3F80_0000⟩) } })
        ∧ (EpiRecord.valid s c (i.installed bs) = false → ∃ s', exec (.mepiInstall t) s = .next s'
          ∧ (s'.tile t).mx = { c.mx with slots := NMap.put c.mx.slots k none, stopped := some i.id }
          ∧ (s'.tile t).core.run = .faulted ∧ (s'.tile t).mem = c.mem
          ∧ (c.core.fault.valid = false → (s'.tile t).core.fault.code = 0x07 ∧ (s'.tile t).core.fault.pc = i.pc)))
      ∧ (let data := decide (u < o.units.length)
        let ring := if data then i.ringD else i.ringM
        let lo := if data then 0 else o.units.length
        let n := if data then o.units.length else o.masks.length
        let unit := (o.units ++ o.masks).getD u []
        let r := c.ring ring
        c.mx.drain = some i → i.op = .mdrn → i.out = some o → c.mx.feed = none → c.rn.arming = false →
        u < o.units.length + o.masks.length → ¬ u ∈ i.written → unit.length = 64 → r.isNext i.id (!data) = true →
        let before := contiguous i.written lo n
        let after := contiguous (i.written ++ [u]) lo n
        let off := r.offset (r.tail.toNat + (u - lo - before))
        ∃ s', exec (.drainUnitWrite t u) s = .next s' ∧ OnlyTile s s' t
          ∧ (s'.tile t).mx = { c.mx with drain := some { i with written := i.written ++ [u] } }
          ∧ DataKept s s' t off 64 ∧ (∀ k, k < 64 → s'.dataByte t (off + k) = unit.getD k 0)
          ∧ ((s'.tile t).ring ring).tail = r.tail + BitVec.ofNat 32 (after - before)
          ∧ ((s'.tile t).ring ring).reserved = r.reserved - (after - before)
          ∧ (s'.tile t).core = c.core)
      ∧ (c.mx.drain = some i → i.op = .mdrn → i.out = some o → i.slot = some x → o.units.length + o.masks.length ≤ i.written.length →
        let e := EpiRecord.parse x.record
        (e.amax = false → ∃ s', exec (.mdrnComplete t) s = .next s' ∧ Worked s s' t { c with mx := { c.mx with drain := none } })
        ∧ (e.amax = true → { c with mx := { c.mx with drain := none } }.readData 1 e.amaxOffset 4
              = ({ c with mx := { c.mx with drain := none } }, some bs) →
            let old : Word32 := BitVec.ofNat 32 (leAt bs 0 4)
            ∃ s', exec (.mdrnComplete t) s = .next s' ∧ OnlyTile s s' t ∧ DataKept s s' t e.amaxOffset 4
              ∧ (s'.tile t).mx = { c.mx with drain := none }
              ∧ ∀ k, k < 4 → s'.dataByte t (e.amaxOffset + k)
                = ((if (f32 old).lt (f32 o.found) then o.found else old) >>> (8 * k)).setWidth 8))
      ∧ (c.mx.drain = some i → i.op = .mflg → c.mx.loader = none → c.mx.feed = none → ∃ s', exec (.mflgComplete t) s = .next s'
          ∧ Worked s s' t (({ c with mx := { c.mx with drain := none } }.setS i.dest (flagWord c.mx i.imm)).pendScalar i.dest false))

/-! ### The mover, the send port, reach -/

/-- R60, R117, R119, R254, R260, R262 to R265, R268, R269: the first queued descriptor starts in the lowest free slot, with its
parameter block or failed for want of one; a descriptor writes its units one by one, at the tail of its ring while that has room or in
tile memory; at its end its 8-byte status word is written, it is counted, a failure too and with the event, and its source goes on. A
page fill, or the transfer of a page operation, brings the frame's bytes in, or leaves the entry failed. Each write changes only its
own bytes. The model's choices here: logs 24, 43, 44, 45, 46 and 47. -/
def Obligations.MoverCarriesItsDescriptorsThrough : Prop :=
  ∀ (s : State) (t slot : Nat) (h : HostReply) (r : MvRun) (bs : List Byte), slot < 4 → s.works t = true →
    let c := s.tile t
    let d := Desc.parse r.item.desc
    let x := c.ring (BitVec.ofNat 5 d.dstRing)
    let same (s' : State) := (s'.tile t).core = c.core ∧ (s'.tile t).mx = c.mx
    (∀ i rest, c.mv.queue = i :: rest → c.freeSlot = some slot → c.barrierHeld = false → c.mv.startFail = none →
      let k := (Desc.parse i.desc).kind
      let p := (Desc.parse i.desc).param
      let starts (run : MvRun) := ∃ s', exec (.moverDescriptorStart t) s = .next s' ∧ run.item = i ∧ run.progress = 0
          ∧ run.pageWait = none ∧ Worked s s' t ({ c with mv := { c.mv with queue := rest, startWait := none } }.setRun slot (some run))
      (k = 1 ∨ k = 9 → ∃ run, starts run ∧ run.plan.getD [] = [])
      ∧ (k ≠ 1 → k ≠ 9 → p % 64 ≠ 0 → ∃ run, starts run ∧ run.failed = some 2)
      ∧ (k ≠ 1 → k ≠ 9 → p % 64 = 0 → 2 ^ 21 < p + 64 → ∃ run, starts run ∧ run.failed = some 1)
      ∧ (k ≠ 1 → k ≠ 9 → p % 64 = 0 → p + 64 ≤ 2 ^ 21 → s.mvRead .ok ⟨false, tileAddr t p, 64⟩ = (s, .ok bs) →
        ∃ run, starts run ∧ run.params = bs ∧ run.plan.getD [] = []))
      ∧ (∀ l n, c.mvRun slot = some r → r.failed = none → d.kind ≠ 9 → r.plan = some l → l[r.progress]? = some (.put .ring bs n) →
        bs.length = 64 → c.earlierWriter r = false →
        let off := x.offset x.tail.toNat
        ∃ s', exec (.moverUnitWrite t slot h) s = .next s' ∧ OnlyTile s s' t ∧ same s'
          ∧ (1 ≤ x.room → DataKept s s' t off 64 ∧ (∀ k, k < 64 → s'.dataByte t (off + k) = bs.getD k 0)
            ∧ ((s'.tile t).ring (BitVec.ofNat 5 d.dstRing)).tail = x.tail + 1
            ∧ (s'.tile t).mvRun slot = some { r with progress := r.progress + 1, result := n, waiting := false, pageWait := none })
          ∧ (x.room = 0 → DataKept s s' t 0 0 ∧ ((s'.tile t).ring (BitVec.ofNat 5 d.dstRing)).tail = x.tail
            ∧ (s'.tile t).mvRun slot = some { r with waiting := true, pageWait := none }))
      ∧ (∀ l n off, c.mvRun slot = some r → r.failed = none → d.kind ≠ 9 → r.plan = some l → l[r.progress]? = some (.put (.own off) bs n) →
        c.touch off bs.length = .ok → ∃ s', exec (.moverUnitWrite t slot h) s = .next s' ∧ OnlyTile s s' t ∧ same s'
          ∧ DataKept s s' t off bs.length ∧ (∀ k, k < bs.length → s'.dataByte t (off + k) = bs.getD k 0)
          ∧ (s'.tile t).mvRun slot = some { r with progress := r.progress + 1, result := n, waiting := false, pageWait := none })
      ∧ (c.mvRun slot = some r → s.train.held = [] → c.touch d.statusOffset 8 = .ok →
        r.failed.isSome = true ∨ (d.kind = 9 ∧ r.progress = 2) ∨ (d.kind ≠ 9 ∧ ∃ l, r.plan = some l ∧ l.length ≤ r.progress) →
        let code : BitVec 8 := r.failed.getD (if d.dstHost && s.hostAnswer h ≠ .ok then 6 else 0)
        ∃ s', exec (.moverDescriptorComplete t slot h) s = .next s' ∧ same s' ∧ (∀ u, u ≠ t → s'.tile u = s.tile u)
          ∧ DataKept s s' t d.statusOffset 8
          ∧ (∀ k, k < 8 → s'.dataByte t (d.statusOffset + k) = (statusWord code d.kind r.result).getD k 0)
          ∧ (s'.tile t).mvRun slot = none ∧ (s'.tile t).mv.done = c.mv.done + 1
          ∧ (s'.tile t).mv.failCount = (if code = 0 then c.mv.failCount else c.mv.failCount + 1)
          ∧ (code ≠ 0 → s'.host.event.getLsbD 1 = true) ∧ (code = 0 → OnlyTile s s' t)
          ∧ (d.srcIsRing = true → d.dstIsRing = false → (s'.tile t).ring r.item.ring = (c.ring r.item.ring).finish r.item.id))
      ∧ (∀ n rest s1 a, c.pages.fills = n :: rest → bs.length = 4096 →
        let e := c.pageEntry n
        let read := (s.setTile t { c with pages := { c.pages with fills := rest } }).mainRead 1 (e.home.toNat * 4096) 4096
        (read = (s1, .ok bs) → ∃ s', exec (.pageFillComplete t) s = .next s' ∧ DataKept s s' t (e.frame.toNat * 4096) 4096
          ∧ (∀ k, k < 4096 → s'.dataByte t (e.frame.toNat * 4096 + k) = bs.getD k 0)
          ∧ (s'.tile t).pageEntry n = { e with state := 3, dirty := false } ∧ (s'.tile t).pages.fills = rest ∧ same s')
        ∧ (read = (s1, .uncorrectable a) → ∃ s', exec (.pageFillComplete t) s = .next s' ∧ DataKept s s' t 0 0
          ∧ (s'.tile t).pageEntry n = { e with state := 5 } ∧ (s'.tile t).pages.fills = rest ∧ same s'))
      ∧ (∀ s1, c.pages.fills = [] → c.mvRun slot = some r → (∀ k, k < slot → c.mvRun k = none) → d.kind = 9 → d.sub = 1 →
        r.progress = 1 → r.failed = none → bs.length = 4096 →
        let e := c.pageEntry d.entry
        s.mainRead 1 (e.home.toNat * 4096) 4096 = (s1, .ok bs) →
        ∃ s', exec (.pageFillComplete t) s = .next s' ∧ DataKept s s' t (e.frame.toNat * 4096) 4096
          ∧ (∀ k, k < 4096 → s'.dataByte t (e.frame.toNat * 4096 + k) = bs.getD k 0)
          ∧ (s'.tile t).pageEntry d.entry = { e with state := 3, dirty := false }
          ∧ (s'.tile t).mvRun slot = some { r with progress := 2, failed := none, result := 64 } ∧ same s')

/-- R108, R109, R277, R280, R282, R300, R302, R419, R427: the first queued send starts, one to a partner with every unit handed to its
port; each unit lands at the tail of the destination ring while it has room, the last one with its answer, and an isolated
destination answers code 1 and an uninitialised ring code 5; when every destination has acknowledged, the send is gone, with a record
and the event where one failed; firmware takes records in order. The model's choices here: logs 48, 49, 50 and 52. -/
def Obligations.SendsDeliverUnitsAndComplete : Prop :=
  ∀ (s : State) (t u : Nat) (i : SdItem), s.works t = true →
    let c := s.tile t
    let x := (s.tile u).ring i.destRing
    (∀ rest, c.sd.queue = i :: rest → (∀ j ∈ c.sd.queue, j.running = false) →
        (i.remote = none → ∃ s', exec (.sendStart t) s = .next s' ∧ Worked s s' t (c.modSend i.id fun j => { j with running := true }))
        ∧ (∀ k e us, i.remote = some (k, e) → (s.partner k).state = 2 → readSendUnits i i.units 0 c = (c, us, none) →
          us.length = i.units → ∃ s', exec (.sendStart t) s = .next s' ∧ (∀ v, v ≠ t → s'.tile v = s.tile v)
            ∧ Noted (c.modSend i.id fun j => { j with
                running := true, dests := j.dests.map fun d => { d with landed := i.units } }) (s'.tile t)))
      ∧ (∀ d, u < tileCount → (s.tile u).mem.ready = true → c.send? i.id = some i → i.running = true → i.remote = none →
        i.stopAt = none → i.dests.find? (fun d => d.tile == u) = some d → d.answer = none → c.sendBehind i u = false →
        let h : HaulHead := ⟨s.entrySide t u i.kind, t, i.id, i.destRing, decide (0 < d.landed % 4)⟩
        let answered (s' : State) (p : SendDest → Prop) := ∃ j, (s'.tile t).send? i.id = some j
          ∧ ∃ e, j.dests.find? (fun d => d.tile == u) = some e ∧ p e
        (s.isolated u = true → ∃ s', exec (.haulDeliveryUnit (.tile t i.id) u) s = .next s'
          ∧ (∀ v a, s'.dataByte v a = s.dataByte v a) ∧ (∀ v, (s'.tile v).core = (s.tile v).core)
          ∧ answered s' fun e => e.answer = some (some 1))
        ∧ (s.isolated u = false → s.mayLand u h = true →
          (x.valid = false → ∃ s', exec (.haulDeliveryUnit (.tile t i.id) u) s = .next s'
            ∧ (∀ v a, s'.dataByte v a = s.dataByte v a) ∧ (∀ v, (s'.tile v).core = (s.tile v).core)
            ∧ answered s' fun e => e.answer = some (some 5))
          ∧ ∀ bs, x.valid = true → 1 ≤ x.room → s.heldBack i d.landed = false → c.sendRead i d.landed = (c, .ok bs) →
            bs.length = 64 →
            let off := x.offset x.tail.toNat
            ∃ s', exec (.haulDeliveryUnit (.tile t i.id) u) s = .next s' ∧ DataKept s s' u off 64
              ∧ (∀ k, k < 64 → s'.dataByte u (off + k) = bs.getD k 0) ∧ ((s'.tile u).ring i.destRing).tail = x.tail + 1
              ∧ (∀ v, v ≠ u → ∀ a, s'.dataByte v a = s.dataByte v a) ∧ (∀ v, (s'.tile v).core = (s.tile v).core)
              ∧ answered s' fun e => e.landed = d.landed + 1 ∧ (e.answer = some none ↔ i.units ≤ d.landed + 1)))
      ∧ (∀ k y, s.link.inbound[k]? = some y →
        let h := PktHeader.parse y.packet.header
        let z := (s.tile u).ring (BitVec.ofNat 5 h.destRing)
        let bs := y.packet.units.getD y.landed []
        h.destTile = u → s.inboundFirst k y = true → s.isLoaded u = true → u < tileCount → s.isolated u = false →
        (s.tile u).mem.ready = true →
        s.mayLand u ⟨linkSide y.port, tileCount + y.port, y.vc, BitVec.ofNat 5 h.destRing, decide (0 < y.landed)⟩ = true →
        z.valid = true → 1 ≤ z.room → bs.length = 64 →
        let off := z.offset z.tail.toNat
        ∃ s', exec (.haulDeliveryUnit (.link k) u) s = .next s' ∧ DataKept s s' u off 64
          ∧ (∀ j, j < 64 → s'.dataByte u (off + j) = bs.getD j 0)
          ∧ ((s'.tile u).ring (BitVec.ofNat 5 h.destRing)).tail = z.tail + 1
          ∧ (∀ v, v ≠ u → ∀ a, s'.dataByte v a = s.dataByte v a) ∧ (∀ v, (s'.tile v).core = (s.tile v).core)
          ∧ (y.landed + 1 < y.packet.units.length → s'.link.inbound[k]? = some { y with landed := y.landed + 1 }))
      ∧ (u < tileCount → c.send? i.id = some i → (∃ d ∈ i.dests, d.tile = u ∧ d.answer.isSome = true ∧ d.arrived = false) →
        (∀ d ∈ i.dests, d.tile ≠ u → d.arrived = true) → (∀ d ∈ i.dests, d.answer.isSome = true) →
        let failed := i.dests.filter fun d => d.answer != some none
        (failed = [] → ∃ s', exec (.sendResponseArrive t i.id u) s = .next s' ∧ OnlyTile s s' t ∧ (s'.tile t).send? i.id = none
          ∧ (s'.tile t).core = c.core ∧ (s'.tile t).mem = c.mem ∧ (s'.tile t).sd.records = c.sd.records)
        ∧ (failed ≠ [] → c.sd.records.length < 4 → ∃ s' r, exec (.sendResponseArrive t i.id u) s = .next s'
          ∧ (s'.tile t).send? i.id = none ∧ (s'.tile t).sd.records = c.sd.records ++ [r] ∧ r.tile = t ∧ r.seq = i.seq
          ∧ r.failed = failed.length ∧ s'.host.event.getLsbD 2 = true ∧ (s'.tile t).core = c.core ∧ (s'.tile t).mem = c.mem))
      ∧ (∀ r rest, c.sd.records = r :: rest → (∀ j ∈ c.sd.queue, j.waitRecord = false) →
        ∃ s', exec (.sendFailRecordTake t) s = .next s' ∧ (∀ v, v ≠ t → s'.tile v = s.tile v)
          ∧ s'.tile t = { c with sd := { c.sd with records := rest } }
          ∧ s'.host.sendFailCount = s.host.sendFailCount + 1
          ∧ s'.host.sendIsolated = (s.host.sendIsolated || r.code == 1 || r.code == 5))

/-- R58, R74, R124 to R126, R201, R202, R342, R574: a reach write lands in the target tile and a read takes its bytes, an isolated
target answers so, and main memory gives its bytes; the control complex serves the scale window, the sequence window and the bank
status word, which reads U as sampled; the reply writes the register and clears its pending mark, or faults the initiator with
REACH_ADDRESS. The model's choices here: logs 25 and 57. -/
def Obligations.ReachAccessesAreServedAndAnswered : Prop :=
  ∀ (s : State) (t u off : Nat) (i : RcItem) (bs : List Byte), s.works t = true →
    let c := s.tile t
    let n := i.op.size
    let kept (s' : State) := (∀ v a, s'.dataByte v a = s.dataByte v a) ∧ ∀ v, (s'.tile v).core = (s.tile v).core
    c.reach? i.id = some i →
      (i.state = .sent → s.train.held = [] → s.place i.addr n = .tile u off → (s.tile u).rc.inbox = [] →
        (s.isolated u = true → ∃ s', exec (.reachTargetAccess t i.id) s = .next s' ∧ kept s'
          ∧ (s'.tile t).reach? i.id = some { i with state := .isolated })
        ∧ (s.isolated u = false → (s.tile u).mem.ready = true → (s.tile u).touch off n = .ok →
          (i.op.isWrite = true → i.data.length = n → ∃ s', exec (.reachTargetAccess t i.id) s = .next s'
            ∧ DataKept s s' u off n ∧ (∀ k, k < n → s'.dataByte u (off + k) = i.data.getD k 0)
            ∧ (∀ v, v ≠ u → ∀ a, s'.dataByte v a = s.dataByte v a) ∧ (∀ v, (s'.tile v).core = (s.tile v).core)
            ∧ (s'.tile t).reach? i.id = some { i with state := .ok [] })
          ∧ (i.op.isWrite = false → (s.tile u).readData 4 off n = (s.tile u, some bs) →
            ∃ s', exec (.reachTargetAccess t i.id) s = .next s' ∧ kept s'
              ∧ (s'.tile t).reach? i.id = some { i with state := .ok bs })))
      ∧ (∀ a s1, i.state = .sent → s.train.held = [] → s.place i.addr n = .main a → i.op.isWrite = false →
        s.mainRead 2 a n = (s1, .ok bs) → ∃ s', exec (.reachTargetAccess t i.id) s = .next s' ∧ kept s'
          ∧ (s'.tile t).reach? i.id = some { i with state := .ok bs })
      ∧ (i.state = .sent →
        let serves (answer : List Byte) := ∃ s', exec (.reachControlService t i.id) s = .next s' ∧ OnlyTile s s' t
          ∧ (s'.tile t).core = c.core ∧ (s'.tile t).mem = c.mem ∧ (s'.tile t).reach? i.id = some { i with state := .ok answer }
        (s.place i.addr n = .bankWord → serves (leBytes 8 s.sampledU.toNat))
        ∧ (s.place i.addr n = .seq off → serves (NMap.getRun 0 s.seqWindow off n))
        ∧ (s.place i.addr n = .scale off → i.op.isWrite = false → off + n ≤ 0x100000 → off % n = 0 →
          serves (((s.scaleEntry (off / 128)).bytes.drop (off % 128)).take n))
        ∧ (s.place i.addr n = .scale off → i.op.isWrite = true → ∃ s', exec (.reachControlService t i.id) s = .next s' ∧ kept s'
          ∧ s'.scale = (s.post (off / 128) (BitVec.ofNat 32 (leAt i.data 0 4))).scale
          ∧ (s'.tile t).reach? i.id = some { i with state := .ok [] }))
      ∧ (let gone : Tile := { c with rc := { c.rc with out := c.rc.out.filter fun j => j.id != i.id } }
        (i.state = .ok bs → ∃ s', exec (.reachReplyArrive t i.id) s = .next s' ∧ Worked s s' t (match i.op with
            | .readS => (gone.setS i.destS (BitVec.ofNat 64 (leNat bs))).pendScalar i.destS false
            | .readV => (gone.setV i.destV (bytesLanes bs)).pendVector i.destV false
            | _ => gone))
        ∧ (i.state = .isolated → c.core.fault.valid = false → ∃ s', exec (.reachReplyArrive t i.id) s = .next s'
            ∧ (s'.tile t).core.run = .faulted ∧ (s'.tile t).core.fault = ⟨true, false, 0x09, i.pc, i.word, BitVec.ofNat 64 i.addr⟩
            ∧ (s'.tile t).mem = c.mem))

/-! ### Background work of a tile -/

/-- R316 to R322, R326 to R328, R330: an RNGV fills its register with consecutive words of its stream, or in nibble mode with
consecutive draws, and an RNGR its units with words; in free mode lane k of a register is the next word of random lane k; arming
seeds every lane, and a derived key is valid. The model's choices here: logs 54 and 55. -/
def Obligations.RandomLanesDeliverArmAndDerive : Prop :=
  (∀ (s : State) (t : Nat) (i : RnItem) (rest : List RnItem), s.works t = true → (s.tile t).rn.queue = i :: rest →
      (s.tile t).rn.arming = false → (s.tile t).core.run ≠ .emptyCut →
      let c := s.tile t
      let word (k : Nat) := keyedWord s.random.key i.stream.toNat s.stepNo ((i.index.toNat + k) % 2 ^ 64)
      let draw (k : Nat) := keyedDraw s.random.key i.stream.toNat s.stepNo ((i.index.toNat + k) % 2 ^ 64)
      (i.toRing = false → s.freeMode = false → ∃ s' x, exec (.randomFillDone t) s = .next s'
        ∧ (∀ k, k < 32 → lane x k = if i.nibble then BitVec.ofNat 32 (draw k) else word k)
        ∧ Worked s s' t (({ c with rn := { c.rn with queue := rest } }.setV i.reg x).pendVector i.reg false))
      ∧ (i.toRing = false → s.freeMode = true → ∃ s' x lanes, exec (.randomFillDone t) s = .next s'
        ∧ (∀ k, k < 32 → let r := xoshiro (NMap.get 0 (c.laneStates t) k)
            lane x k = (if i.nibble then r.1 &&& 15 else r.1) ∧ NMap.get 0 lanes k = r.2)
        ∧ (∀ k, 32 ≤ k → NMap.get 0 lanes k = NMap.get 0 (c.laneStates t) k)
        ∧ Worked s s' t (({ c with rn := { c.rn with queue := rest, lanes := lanes } }.setV i.reg x).pendVector i.reg false))
      ∧ (let r := c.ring i.ring
        i.toRing = true → s.freeMode = false → r.isNext i.id false = true → i.units ≤ r.size.toNat → r.tail.toNat + i.units ≤ 2 ^ 32 →
        ∃ s', exec (.randomFillDone t) s = .next s' ∧ OnlyTile s s' t ∧ (s'.tile t).rn = { c.rn with queue := rest }
          ∧ (s'.tile t).core = c.core ∧ ((s'.tile t).ring i.ring).tail = r.tail + BitVec.ofNat 32 i.units
          ∧ ∀ j b, j < i.units → b < 64 → s'.dataByte t (r.offset (r.tail.toNat + j) + b)
            = (word (16 * j + b / 4) >>> (8 * (b % 4))).setWidth 8))
    ∧ (∀ (s : State) (t : Nat), t < tileCount → (s.tile t).rn.arming = true → ∃ s', exec (.laneArmingDone t) s = .next s'
      ∧ (∀ v, v ≠ t → s'.tile v = s.tile v) ∧ (s'.tile t).rn.arming = false ∧ (s'.tile t).core = (s.tile t).core
      ∧ (s'.tile t).mem = (s.tile t).mem
      ∧ ∀ l, l < 64 → NMap.get 0 (s'.tile t).rn.lanes l = armLane s.random.freeSeed t l)
    ∧ ∀ (s : State), s.random.keyBusy = true → ∃ s', exec .keyDerived s = .next s' ∧ s'.tiles = s.tiles
      ∧ s'.random = { s.random with key := deriveKey s.random.keyedSeed, keyBusy := false, keyValid := true }

/-- R112, R127, R129, R131, R135, R361: the norm post longest in flight, or at the final bell the slot opened longest ago, adds to its
sum in the window; a stalled ring past its threshold raises the stall event, and is recorded where no stall is; the first word of the
write-back queue is stored corrected unless a second error has joined it; the scrubber checks one row, queues what it corrects, records
the first uncorrectable word and goes on by one; an initialised memory becomes ready.
The model's choices here: logs 22, 23 and 63. -/
def Obligations.TileUpkeepDoesItsOneStep : Prop :=
  ∀ (s : State) (t : Nat), s.works t = true →
    let c := s.tile t
    let m := c.mem
    let posts (p : NormSlot) (nt : Nt) := ∃ s', exec (.normPost t) s = .next s'
      ∧ (let k := 3 * p.layer.toNat + p.quantity.toNat
        s'.train = { s.train with
          norm := NMap.set 0 s.train.norm k (NMap.get 0 s.train.norm k + p.sum)
          normTouch := NMap.set false s.train.normTouch k true
          normBad := NMap.set false s.train.normBad k (NMap.get false s.train.normBad k || p.nonfinite) })
      ∧ (∀ v, v ≠ t → s'.tile v = s.tile v) ∧ Noted { c with nt := nt } (s'.tile t)
    (∀ p rest, c.nt.flight = p :: rest → posts p { c.nt with flight := rest })
      ∧ (∀ p rest g, c.nt.flight = [] → c.nt.slots = p :: rest → g ∈ s.groupsOf t → (c.member g).phase = .final →
        (c.member g).arrived = true → posts p { c.nt with slots := rest })
      ∧ (∀ (r : RingNo) w ws, (c.ring r).waiting = w :: ws → (c.ring r).raised = false → (c.ring r).stallThreshold ≠ 0 →
        256 * (c.ring r).stallThreshold.toNat ≤ (c.ring r).timer →
        ∃ s', exec (.ringStall t r.toNat) s = .next s' ∧ (∀ v, v ≠ t → s'.tile v = s.tile v) ∧ s'.host.event.getLsbD 0 = true
          ∧ s'.tile t = { c.setRing r { c.ring r with raised := true } with
              mem := { m with stallStatus := if m.stallStatus.getLsbD 31 then m.stallStatus else BitVec.ofNat 32 (stallWord r.toNat w) } })
      ∧ (∀ code w rest, m.wbQueue = (code, w) :: rest →
        let flips := if code then m.eccCode else m.eccData
        let left := if NMap.get 0 flips w = 3 then flips else NMap.drop flips w
        ∃ s', exec (.eccCorrectionWriteback t) s = .next s' ∧ OnlyTile s s' t ∧ s'.tile t = { c with
          mem := { m with
            wbQueue := rest, eccData := if code then m.eccData else left, eccCode := if code then left else m.eccCode } })
      ∧ (let p := m.scrubPos
        let code := decide (32768 ≤ p)
        let fl := if code then flipsIn m.eccCode (p - 32768) 1 else flipsIn m.eccData (8 * p) 8
        let one := (fl.filter fun q => q.2 != 3).map (·.1)
        let two := fl.find? fun q => q.2 == 3
        ∃ s' m', exec (.scrubRow t) s = .next s' ∧ OnlyTile s s' t ∧ s'.tile t = { c with mem := m' }
          ∧ m'.scrubPos = (p + 1) % 40960 ∧ m'.data = m.data ∧ m'.code = m.code ∧ m'.eccData = m.eccData ∧ m'.eccCode = m.eccCode
          ∧ m'.ready = m.ready ∧ m'.ueUsed = m.ueUsed
          ∧ m'.ce = (m.ce || !one.isEmpty) ∧ m'.ceCount.toNat = min 65535 (m.ceCount.toNat + one.length)
          ∧ (∀ q, q ∈ m'.wbQueue ↔ q ∈ m.wbQueue ∨ (q.1 = code ∧ q.2 ∈ one))
          ∧ (two = none ∨ m.ue = true → m'.ue = m.ue ∧ m'.ueCode = m.ueCode ∧ m'.ueConsumer = m.ueConsumer ∧ m'.ueAddr = m.ueAddr)
          ∧ ∀ q, two = some q → m.ue = false → m'.ue = true ∧ m'.ueCode = code ∧ m'.ueConsumer = 6
            ∧ m'.ueAddr = BitVec.ofNat 32 (q.1 % 2 ^ 18 * 8))
      ∧ ∃ s', exec (.memoryInitDone t) s = .next s' ∧ OnlyTile s s' t ∧ s'.tile t = { c with mem := { m with ready := true } }

/-! ### Bells -/

/-- R285, R287, R288, R290 to R292, R296: a group whose condition comes to hold sends its frame to every peer, and once every frame is
there its timer stops; a bell that fires is counted and writes the payload; a cut bell moves its members to the haul bell, a haul bell
to the next superstep, or over a rolled member, and counts the markers beyond the expectation; a tile that has passed the final bell of
each of its groups halts. The model's choices here: logs 51 and 52. -/
def Obligations.BellsHoldThenFire : Prop :=
  ∀ (s : State) (g : Nat), g < 8 → (∀ r, s.step = some r → r.stopped = false) →
    let G := s.group g
    (s.localCondition g = true → G.localHeld = false → G.holding = false → G.probed = [] →
        ∃ s', exec (.bellConditionHolds g) s = .next s' ∧ s'.tiles = s.tiles ∧ (∀ k, k ≠ g → s'.group k = s.group k)
          ∧ s'.group g = { G with
              localHeld := true, holding := G.framesHere, heldAt := if G.framesHere then s.clock.tick else G.heldAt
              timerLimit := if G.framesHere then none else G.timerLimit }
          ∧ (G.peers = [] → s'.link = s.link)
          ∧ ∀ p ∈ G.peers, ∃ k : LinkPacket, k.units = [s.bellFrame g] ∧
            if (s.partner p.2).path = 0 then
              (1, k) ∈ (s'.road (s.partner p.2).port).waiting ∨ ∃ f ∈ (s'.road (s.partner p.2).port).replay, k ∈ f.packets
            else (1, k) ∈ (s'.ethCtx p.2).waiting ∨ ∃ d ∈ (s'.ethCtx p.2).unacked, k ∈ d.packets)
      ∧ (G.holding = true → G.members.Nodup → ∃ s', exec (.bellFire g) s = .next s' ∧ s'.step = s.step
          ∧ (∀ t, ¬ t ∈ G.members → s'.tile t = s.tile t)
          ∧ (s'.group g).phase = (match G.phase with | .cut => .haul | .haul => afterHaul s.supersteps G.index | _ => .done)
          ∧ (s'.group g).index = (if G.phase = .haul then G.index + 1 else G.index)
          ∧ (s'.group g).fires = G.fires + 1 ∧ (s'.group g).latency = BitVec.ofNat 32 (s.clock.tick - G.heldAt)
          ∧ (s'.group g).holding = false ∧ (s'.group g).localHeld = false ∧ (s'.group g).payload = s.payload g
          ∧ (s'.group g).timerStart = s.now
          ∧ ∀ t, t ∈ G.members →
            let c := s.tile t
            let c' := s'.tile t
            let m := c.member g
            let m' := c'.member g
            let paid := ∀ v i, m.reg = some v → i < 8 → lane (c'.vreg v) i = (s.payload g).getD i 0
            let released := paid ∧ m'.arrived = false
              ∧ (c.core.run = .atBell ∨ c.core.run = .emptyCut → c'.core.run = if c.core.halt then .halted else .running)
            c'.mem = c.mem ∧ c'.mx = c.mx ∧ c'.mv = c.mv
              ∧ (m.excused = true → c'.core = c.core ∧ m'.phase = m.phase)
              ∧ (m.excused = false → G.phase = .cut → m'.phase = .haul ∧ released)
              ∧ (G.phase = .haul → c'.sd.excess = BitVec.ofNat 8
                  (min 255 (c.sd.excess.toNat + (NMap.get 0 m.markers G.index - NMap.get 0 m.expect G.index))))
              ∧ (m.excused = false → G.phase = .haul → m.rolled = false →
                m'.phase = afterHaul s.supersteps m.index ∧ m'.index = m.index + 1 ∧ released)
              ∧ (m.excused = false → G.phase = .haul → m.rolled = true →
                m'.rolled = false ∧ m'.phase = m.phase ∧ m'.index = m.index ∧ m'.arrived = m.arrived ∧ c'.core = c.core)
              ∧ (m.excused = false → G.phase = .final →
                let last := ∀ k ∈ s.groupsOf t, k = g ∨ (c.member k).phase = .done ∨ (c.member k).excused = true
                m'.phase = .done ∧ (last → c'.core.run = .halted ∧ c'.core.halt = true) ∧ (last → s.groupsOf t = [g] → paid)
                  ∧ (¬ last → c'.core = c.core)))

/-- R291, R430: a peer's bell frame of the running step is kept against its bell, and completes the bell that waited only for it; one
of another step or run, of a rank that is no peer, of a bell that has fired, or that repeats another, is discarded and counted.
The model's choices here: log 51. -/
def Obligations.BellFramesAreKeptOrDiscarded : Prop :=
  ∀ (s : State) (f : List Byte),
    let g := leAt f 1 1 % 8
    let kind := leAt f 1 1 / 16 % 4
    let rank := leAt f 2 1
    let index := leAt f 4 4
    let G := s.group g
    let lost := ∃ s', exec (.bellFrameReceive f) s = .next s' ∧ s'.tiles = s.tiles ∧ s'.bell = s.bell
      ∧ s'.link = { s.link with discarded := BitVec.ofNat 32 (satInc 32 s.link.discarded.toNat 1) }
    kind ≠ 3 → (s.step = none → lost) ∧ ∀ r, s.step = some r →
      let fits := leAt f 0 1 = 1 ∧ leAt f 8 8 = r.stepNo.toNat ∧ leAt f 0x10 4 = r.attempt ∧ (∃ p ∈ G.peers, p.1 = rank)
        ∧ (∀ x ∈ G.frames, ¬ (x.kind.toNat = kind ∧ x.index = index ∧ x.rank = rank))
        ∧ bellOrder G.phase.code G.index ≤ bellOrder kind index
      (¬ fits → lost)
        ∧ (fits → ∃ s' x, exec (.bellFrameReceive f) s = .next s' ∧ s'.tiles = s.tiles ∧ s'.link = s.link
          ∧ (s'.group g).frames = G.frames ++ [x] ∧ x.rank = rank ∧ x.kind.toNat = kind ∧ x.index = index
          ∧ x.step = r.stepNo ∧ x.contributed = BitVec.ofNat 8 (leAt f 3 1)
          ∧ x.lanes = ((List.range 8).map fun i => BitVec.ofNat 32 (leAt f (0x18 + 4 * i) 4))
          ∧ (s'.group g).holding = (G.holding || (G.localHeld && BellGroup.framesHere { G with frames := G.frames ++ [x] }))
          ∧ ∀ k, k ≠ g → s'.group k = s.group k)

/-! ### Steps, faults and repair -/

/-- R75, R81, R323, R339, R340, R342, R368, R400, R471: a STEP whose checks hold samples U and releases every loaded tile at its
class's entry; one whose checks fail completes with the check's status, does not advance U, and has its entry in the step log while
replay protection is on. A RUN starts its first step, or completes, in the same way.
The model's choices here: logs 59 and 121. -/
def Obligations.StepAndRunReleaseTheTiles : Prop :=
  ∀ (s s1 : State) (n : Nat) (h : Held) (p : Prepared) (i : Image) (e : CmdStatus × Nat),
    s.randomBusy = false → (i.tileMap.map (·.1)).Nodup →
    let k := BitVec.ofNat 64 (h.field 8 8)
    let released (s' : State) := s'.train.uSampled = some s1.train.u ∧ ∀ q ∈ i.tileMap,
      (s'.tile q.1).core.pc = (i.classes.map (·.entry)).getD q.2 0
        ∧ (s'.tile q.1).core.run = .running ∧ (s'.tile q.1).core.halt = false ∧ (s'.tile q.1).mem.data = (s1.tile q.1).mem.data
        ∧ (s'.tile q.1).mx.queue = []
    let run (kind : StepKind) (a l : Nat) (rl : Option RunList) : StepRun :=
      { newRun s1 kind n k a l with log := p.log, logged := p.logged, holdBank := p.holdBank, runList := rl }
    let refused (s' : State) := Completed s' n h e.1 ∧ s'.tiles = s1.tiles ∧ s'.step = s1.step ∧ s'.train.u = s1.train.u
      ∧ s'.train.advanced = false ∧ s'.train.holdReason = 0 ∧ s'.lastDone = some k
      ∧ s'.res.logIndex = (if s1.res.protect then s1.res.logIndex + 1 else s1.res.logIndex)
    (s.starts 0x03 n h →
        let stage := s.stage2 k (h.field 0x10 8) (h.field 0x18 8) (h.flag 1)
        (stage = (s1, .ok p) → s1.image = some i → ∃ s', exec (.step n) s = .next s' ∧ released s'
          ∧ s'.step = some (run .step (h.field 0x10 8) (h.field 0x18 8) none))
        ∧ (stage = (s1, .error e) → s1.host.held = s.host.held → ∃ s', exec (.step n) s = .next s' ∧ refused s'))
      ∧ ∀ s0 b, s.starts 0x02 n h → (s.setRunning n).mainRead 5 (h.field 0x18 8) 16 = (s0, .ok b) →
        let stage := s0.stage2 k (leAt b 0 8) (leAt b 8 8) (h.flag 1)
        (stage = (s1, .ok p) → s1.image = some i → ∃ s', exec (.run n) s = .next s' ∧ released s'
          ∧ s'.step = some (run .run (leAt b 0 8) (leAt b 8 8) (some ⟨k, h.field 0x10 4, h.field 0x18 8, 0, false, h.flag 1⟩)))
        ∧ (stage = (s1, .error e) → s1.host.held = (s.setRunning n).host.held → ∃ s', exec (.run n) s = .next s' ∧ refused s')

/-- R93, R94, R196, R323, R353, R403: an EVAL whose checks hold runs the image it names, on its batch's sequence table where the image
has one, under the number of the last STEP with bit 63 set, and keeps the training image; with no image loaded it completes NOT_READY,
with another profile PROFILE_MISMATCH, with no answer of the host HOST_ERROR. The model's choices here: logs 59 and 60. -/
def Obligations.EvalRunsItsImage : Prop :=
  ∀ (s : State) (n : Nat) (hr : HostReply) (h : Held), s.randomBusy = false → s.starts 0x04 n h →
    (s.image = none → ∃ s', exec (.eval n hr) s = .next s' ∧ Completed s' n h .notReady ∧ s'.tiles = s.tiles)
      ∧ ∀ training i, s.image = some training → s.imageReady = true → s.domainBroken = false →
        let check := s.checkImage (s.getHost (h.field 8 8) (h.field 0x10 8)) (h.field 0x10 8) (some training)
          (fun i => i.target == training.target)
        let runs (window : Mem) := ∃ s' r, exec (.eval n hr) s = .next s' ∧ s'.image = some i ∧ s'.step = some r ∧ r.kind = .eval
          ∧ r.training = some training ∧ r.n = n ∧ r.stepNo = s.lastDone.getD 0 ||| (1#64 <<< 63) ∧ s'.train.u = s.train.u
          ∧ s'.seqWindow = window ∧ s'.held? n = some { h with phase := .running }
          ∧ ((i.tileMap.map (·.1)).Nodup → ∀ q ∈ i.tileMap, (s'.tile q.1).core.run = .running
            ∧ (s'.tile q.1).core.pc = (i.classes.map (·.entry)).getD q.2 0)
        (∀ e, s.hostAnswer hr = .fail e → ∃ s', exec (.eval n hr) s = .next s' ∧ Completed s' n h .hostError ∧ s'.tiles = s.tiles)
        ∧ (s.hostAnswer hr = .ok →
          (∀ e, check = .error e → ∃ s', exec (.eval n hr) s = .next s' ∧ Completed s' n h e.1 ∧ s'.tiles = s.tiles)
          ∧ (check = .ok i → i.profile ≠ training.profile →
            ∃ s', exec (.eval n hr) s = .next s' ∧ Completed s' n h .profileMismatch ∧ s'.tiles = s.tiles)
          ∧ (check = .ok i → i.profile = training.profile → i.flags.getLsbD 4 = false → runs [])
          ∧ ∀ s1 bs, check = .ok i → i.profile = training.profile → i.flags.getLsbD 4 = true →
            s.takeBatch (h.field 0x18 8) (min (h.field 0x20 8) 0x2010) = (s1, .ok bs) → s1.host.held = s.host.held →
            s1.lastDone = s.lastDone → s1.train.u = s.train.u →
            firstFault (seqFaults bs (h.field 0x20 8)) = none → runs (seqWindowOf bs))

/-- R41, R93, R302, R339, R340, R400: once every group has passed its final bell a STEP completes with OK, or with
HAUL_TARGET_ISOLATED when a send met an isolated tile, and no step runs; with banking on, U advances by 1 with OK, and stays when the
step overflowed, holds the bank, or ends with any other status; a RUN goes on to its next step until all have run; an EVAL completes
with the training image back; the next step reads the bank that U names. The model's choices here: logs 57 and 60. -/
def Obligations.StepEndCompletesAndAdvancesU : Prop :=
  ∀ (s : State) (r : StepRun),
    (∀ h, s.step = some r → r.stopped = false → r.programFault = false → s.allFinal = true → s.held? r.n = some h →
      let isolated := s.takeAllRecords.host.sendIsolated
      let status := if isolated then CmdStatus.haulTargetIsolated else .ok
      let u := s.train.u + (if s.train.enable && !r.holdBank && !s.overflowed && !isolated then 1 else 0)
      (r.kind ≠ .eval → r.runList = none → ∃ s', exec .stepEnd s = .next s' ∧ Completed s' r.n h status ∧ s'.step = none
          ∧ s'.lastDone = some r.stepNo ∧ s'.train.u = u)
        ∧ (∀ l, r.kind ≠ .eval → r.runList = some l →
          (isolated = true ∨ l.count ≤ l.completed + 1 → ∃ s', exec .stepEnd s = .next s' ∧ Completed s' r.n h status
            ∧ s'.step = none ∧ s'.lastDone = some r.stepNo ∧ s'.train.u = u)
          ∧ (isolated = false → l.completed + 1 < l.count → ∃ s', exec .stepEnd s = .next s' ∧ s'.train.u = u
            ∧ ((∃ q, s'.step = some q ∧ q.kind = .run ∧ q.n = r.n ∧ q.stepNo = l.first + BitVec.ofNat 64 (l.completed + 1))
              ∨ (s'.step = none ∧ ∃ st, Completed s' r.n h st))))
        ∧ (∀ i, r.kind = .eval → r.training = some i → ∃ s', exec .stepEnd s = .next s' ∧ Completed s' r.n h status
          ∧ s'.step = none ∧ s'.image = some i ∧ s'.lastDone = s.lastDone ∧ s'.train.u = s.train.u ∧ s'.scale.k = s.scale.k))
      ∧ (∀ st detail exceeds, r.kind = .step → r.runList = none → st ≠ .ok ∨ exceeds = true ∨ r.holdBank = true →
        (s.finish r st detail exceeds).train.u = s.train.u)
      ∧ ∀ q, (s.startStep q).train.readBank = s.train.u.getLsbD 0

/-- R80, R81, R292: a program fault stops the timers of the faulted tiles' groups and halts every loaded core; once the wait for the
engines is over, or their work done, the command ends with TILE_FAULT and the image may not run. -/
def Obligations.ProgramFaultsHaltAndEndTheStep : Prop :=
  ∀ (s : State) (r : StepRun) (i : Image), s.step = some r → s.image = some i → r.programFault = true →
    (r.haltAt = none → ∃ s', exec .programFaultHalt s = .next s'
        ∧ s'.step = some { r with stopped := true, haltAt := some s.now }
        ∧ (∀ g, g < 8 → (∃ t ∈ (s.group g).members, ∃ f ∈ r.faulted, f.1 = t) → (s'.group g).timerLimit = none)
        ∧ (∀ t ∈ i.loaded, (s'.tile t).core.halt = true ∧ ((s'.tile t).core.run = .halted ∨ (s'.tile t).core.run = .faulted)
            ∧ (s'.tile t).mem = (s.tile t).mem)
        ∧ ∀ t, ¬ t ∈ i.loaded → s'.tile t = s.tile t)
      ∧ ∀ since h, r.haltAt = some since → since + 1000000 ≤ s.now ∨ (∀ t ∈ i.loaded, (s.tile t).workDone = true) →
        s.res.failures = [] → s.held? r.n = some h → ∃ s', exec .faultEngineWaitExpiry s = .next s' ∧ Completed s' r.n h .tileFault
          ∧ s'.step = none ∧ s'.runnable = false ∧ s'.train.u = s.train.u

/-- R292, R301, R307: a bell timer that reaches its limit starts the probe of the members that are not ready, behind no isolation
wrapper; when only peers' frames are missing it stops the tiles and records an unattributed timeout; a probe without an answer is
recorded as an attributed timeout, and the tile's failure holds the step. The model's choices here: logs 51 and 53. -/
def Obligations.BellTimeoutsProbeAndAttribute : Prop :=
  ∀ (s : State) (g t : Nat) (r : StepRun), g < 8 → t < tileCount → s.step = some r → r.stopped = false → r.programFault = false →
    let G := s.group g
    (∀ limit, G.timerLimit = some limit → s.bell.timeoutEnable = true → G.holding = false → G.timerStart + limit ≤ s.now →
        (s.localCondition g = false → exec (.bellTimeout g) s = .next (s.setGroup g { G with
          probed := s.probeList g, probeAt := s.now, timerLimit := none }))
        ∧ (∀ u ∈ s.probeList g, s.isolated u = false)
        ∧ ∀ i, s.image = some i → s.localCondition g = true → G.framesHere = false → ∃ s', exec (.bellTimeout g) s = .next s'
          ∧ s'.step = some { r with
              stopped := true, haltAt := some s.now, timeout := some (BitVec.ofNat 32 (timeoutWord true g 3 false 0)) }
          ∧ (∀ u ∈ i.loaded, (s'.tile u).core.halt = true)
          ∧ (s.bell.record.valid = false → s'.bell.record = ⟨true, BitVec.ofNat 3 g, 3, false, 0⟩))
      ∧ (∀ limit, G.timerLimit = some limit → s.now < G.timerStart + limit → exec (.bellTimeout g) s = .next s)
      ∧ (t ∈ G.probed → s.isolated t = false → G.probeAt + 10000 ≤ s.now → ∃ s' f why, exec (.probeNoReply g t) s = .next s'
          ∧ s'.res.failures = s.res.failures ++ [f] ∧ f.tile = t ∧ f.cause = .bellTimeout ∧ f.transient = false
          ∧ s'.res.state = .repairHold
          ∧ s'.bell.record = (if s.bell.record.valid then s.bell.record else ⟨true, BitVec.ofNat 3 g, why, true, BitVec.ofNat 11 t⟩))

/-- R481, R482, R490: a consumed uncorrectable word of a tile, one of main memory that a reach access met, or a router's report is a
failure that holds the running step; RETIRE_TILE shifts a row that has its spare and is refused in a row that has none; a filled spare
goes into service, and a step that the failure held starts again; a spare that cannot be filled leaves a restore required; a flash
write leaves the map in the record that does not serve, with the next sequence number.
The model's choices here: logs 97, 98, 100 and 123. -/
def Obligations.FailuresRetireAndFillSpares : Prop :=
  ∀ (s : State) (t : Nat), t < tileCount →
    (∀ r, s.step = some r → r.stopped = false → s.isolated t = false → s.res.failures = [] →
        let holds (c : FailCause) (f : Failure) := ∃ s', exec (.tileFailure t c) s = .next s' ∧ s'.res.failures = [f]
          ∧ f.tile = t ∧ f.cause = c ∧ f.command = false ∧ s'.res.state = .repairHold
        (∀ a rest, (s.tile t).rc.mainWords = a :: rest → ∃ f, holds .memoryWord f ∧ f.transient = true ∧ f.addr = a)
        ∧ ((s.tile t).mem.ueUsed ≠ [] → ∃ f, holds .tileWord f ∧ f.transient = s.isTransient t)
        ∧ ∃ f, holds .routerError f ∧ f.transient = false)
      ∧ (∀ n h, s.step = none → s.res.failures = [] → s.starts 0x12 n h → h.field 8 2 = t →
        let k := s.rowOf t
        ((s.row k).spare = 0 → ∃ s', exec (.retireTile n) s = .next s' ∧ (s'.row k).shifted = true
          ∧ (s'.row k).offset = BitVec.ofNat 4 (s.tx t % 16) ∧ (s'.row k).spare = 3 ∧ (s'.row k).cause = 6
          ∧ (s'.tile t).mem.ready = false ∧ s'.host.event.getLsbD 7 = true ∧ s'.res.flashBusy = true
          ∧ (if s.unshadowed && s.image.isSome then s'.res.failures = [] ∧ s'.runnable = false ∧ Completed s' n h .ok
            else s'.res.filling = true ∧ ∃ f, s'.res.failures = [f] ∧ f.tile = t ∧ f.command = true))
        ∧ ((s.row k).spare ≠ 0 → ∃ s', exec (.retireTile n) s = .next s' ∧ Completed s' n h .spareExhausted ∧ s'.res = s.res
          ∧ s'.tiles = s.tiles))
      ∧ (∀ f s1, s.res.failures = [f] → s.res.filling = true → f.tile = t → (s.tile t).mem.ready = true →
        (s.tile t).rn.arming = false →
        let filled (s' : State) := exec .spareFillComplete s = .next s' ∧ s'.res.failures = [] ∧ s'.res.filling = false
        (s.fillSpare t = (s1, .ok ()) → s1.step = none → ∃ s', filled s' ∧ (s'.row (s1.rowOf t)).spare = 1
          ∧ ∀ n h, f.command = true → s1.res.retire = some n → s1.held? n = some h → Completed s' n h .ok)
        ∧ (∀ r i, s.fillSpare t = (s1, .ok ()) → s1.step = some r → f.command = false → r.programFault = false → r.timeout = none →
          r.attempt < 7 → (s1.unshadowed && !s1.runnable) = false → s1.image = some i → ∃ s', filled s'
          ∧ (s'.row (s1.rowOf t)).spare = 1 ∧ s'.step = some { r with
              attempt := r.attempt + 1, programFault := false, haltAt := none, faulted := [], timeout := none, cause := none
              stopped := false })
        ∧ (∀ a, s.fillSpare t = (s1, .error a) → s1.step = none → ∃ s', filled s' ∧ s'.runnable = false
          ∧ s'.res.state = .restoreRequired))
      ∧ (s.res.flashBusy = true → ∃ s', exec .spoilMapFlashDone s = .next s' ∧ s' = { s with res := { s.res with
          flash := s'.res.flash, flashBusy := false } } ∧ ∃ k seq, k < 2 ∧ spoilNewest s.res.flash ≠ some k
          ∧ NMap.get [] s'.res.flash k = spoilRecord s.res.rows seq ∧ NMap.get [] s'.res.flash (1 - k) = NMap.get [] s.res.flash (1 - k)
          ∧ ∀ j, spoilNewest s.res.flash = some j → seq = spoilSeq (NMap.get [] s.res.flash j) + 1)

/-- R430, R483: a hold frame of the running step holds a peer and starts its wait, a resume frame starts the held step again, and an
abandon frame, or 1 s without a frame, ends it with BELL_TIMEOUT; a frame that matches no running step is discarded and counted.
The model's choices here: log 99. -/
def Obligations.RepairFramesHoldThePeer : Prop :=
  ∀ (s : State) (f : List Byte) (r : StepRun),
    let lost := ∃ s', exec (.repairFrameReceive f) s = .next s' ∧ s'.tiles = s.tiles ∧ s'.res = s.res
      ∧ s'.link.discarded = BitVec.ofNat 32 (satInc 32 s.link.discarded.toNat 1)
    let fits := leAt f 0 1 = 1 ∧ leAt f 1 1 / 16 % 4 = 3 ∧ leAt f 8 8 = r.stepNo.toNat ∧ leAt f 0x10 4 = r.attempt
    (s.step = none → lost) ∧ (s.step = some r → ¬ fits → lost)
      ∧ (s.step = some r → fits →
        (leAt f 0x18 1 = 0 → s.res.state = .peerHold ∨ r.stopped = false → ∃ s', exec (.repairFrameReceive f) s = .next s'
          ∧ s'.res.state = .peerHold ∧ s'.res.peerSince = some s.now
          ∧ ∀ i, s.image = some i → s.res.state ≠ .peerHold → ∀ t ∈ i.loaded, (s'.tile t).core.halt = true)
        ∧ (∀ i, leAt f 0x18 1 = 1 → s.res.state = .peerHold → r.programFault = false → r.timeout = none → r.attempt < 7 →
          s.image = some i → ∃ s', exec (.repairFrameReceive f) s = .next s' ∧ s'.res.peerSince = none ∧ s'.res.failures = []
          ∧ (s'.res.state = .normal ∨ s'.res.state = .replay)
          ∧ ∃ q, s'.step = some q ∧ q.attempt = r.attempt + 1 ∧ q.stepNo = r.stepNo ∧ q.stopped = false)
        ∧ (∀ h, leAt f 0x18 1 = 2 → s.res.state ≠ .repairHold → r.programFault = false → s.held? r.n = some h →
          ∃ s', exec (.repairFrameReceive f) s = .next s' ∧ Completed s' r.n h .bellTimeout ∧ s'.step = none))
      ∧ ∀ since h, s.step = some r → s.res.peerSince = some since → s.res.state = .peerHold → since + 10 ^ 9 ≤ s.now →
        s.held? r.n = some h → ∃ s', exec .repairHoldTimeout s = .next s' ∧ Completed s' r.n h .bellTimeout ∧ s'.step = none

/-! ### Images, seeds, scales, fences -/

/-- R91, R92, R329, R403, R466, R519, R541: a LOAD_IMAGE that passes its checks gives every tile its class and halts it, loads the
groups, measures the image into slot 5 and completes with OK; one that a check refuses completes with that check's status, and one
whose image cannot be fetched with HOST_ERROR, and neither writes a tile. The model's choices here: logs 20, 21, 73 and 93. -/
def Obligations.LoadImageInstallsOrRefuses : Prop :=
  ∀ (s : State) (n : Nat) (h : Held) (hr : HostReply), s.starts 0x01 n h →
    let p := if h.field 0x18 8 = 0 then defaultParams else s.getHost (h.field 0x18 8) 64
    let check := s.checkImage (s.getHost (h.field 8 8) (h.field 0x10 8)) (h.field 0x10 8) none s.takesTarget
    let ends (st : CmdStatus) := ∃ s', exec (.loadImage n hr) s = .next s' ∧ Completed s' n h st ∧ s'.tiles = s.tiles
      ∧ s'.image = s.image ∧ s'.runnable = s.runnable
    (∀ e, s.hostAnswer hr = .fail e → ends .hostError)
      ∧ (s.hostAnswer hr = .ok → (∀ e, check = .error e → ends e.1) ∧ ∀ i, check = .ok i →
        let free := i.flags.getLsbD 2 && s.res.protect
        let fault := firstFault (paramFaults s p)
        let gated := i.tileMap.any fun q => s.isolated q.1
        (free = true → ends .badPacket) ∧ (free = false → fault ≠ none → ends .badPacket)
          ∧ (free = false → fault = none → s.shadowRefuses i p = true ∨ gated = true → ends .notReady)
          ∧ (free = false → fault = none → s.shadowRefuses i p = false → gated = false →
            ∃ s', exec (.loadImage n hr) s = .next s' ∧ Completed s' n h .ok
              ∧ s'.image = some i ∧ s'.runnable = true ∧ s'.slot 5 = digest i.bytes
              ∧ (∀ t, t < i.tiles → s.isolated t = false → (s'.tile t).core.cls = i.classOf t ∧ (s'.tile t).core.halt = true
                ∧ (s'.tile t).core.run = .halted)
              ∧ ∀ g, g < 8 → (s'.group g).loaded = i.groups.any fun x => x.number == g))

/-- R213, R304, R327, R330, R398, R400, R403, R576: SET_SEEDS writes the seeds that its mask names, starts the key's derivation and the
arming, and completes when neither is left; SET_SCALES stores its records and the loss scale, or none of them when a record is faulty or
cannot be read; and a fence completes once nothing holds it back. The model's choices here: logs 39, 55, 56 and 67. -/
def Obligations.SeedsScalesAndFencesComplete : Prop :=
  ∀ (s : State) (n : Nat) (h : Held) (hr : HostReply),
    (s.starts 0x09 n h →
        let keyed := natBit (h.field 0x18 1) 0
        let free := natBit (h.field 0x18 1) 1
        ∃ s', exec (.setSeeds n) s = .next s' ∧ s'.random.key = s.random.key
          ∧ s'.random.keyedSeed = (if keyed then BitVec.ofNat 64 (h.field 8 8) else s.random.keyedSeed)
          ∧ s'.random.freeSeed = (if free then BitVec.ofNat 64 (h.field 0x10 8) else s.random.freeSeed)
          ∧ s'.random.keyBusy = (keyed || s.random.keyBusy) ∧ s'.random.keyValid = (!keyed && s.random.keyValid)
          ∧ (free = false ∨ s.freeMode = false → s'.tiles = s.tiles)
          ∧ (∀ i, free = true → s.freeMode = true → s.image = some i → ∀ t, t < i.tiles → (s'.tile t).rn.arming = true)
          ∧ (if s'.randomBusy then s'.held? n = some { h with phase := .running } else Completed s' n h .ok))
      ∧ (s.starts 0x0A n h →
        let count := h.field 0x10 2
        let r (i : Nat) := s.getHost (h.field 8 8 + 136 * i) 136
        let good := ∀ i, i < count → leAt (r i) 0 2 < 8192 ∧ ∀ o, 2 ≤ o → o < 8 → leAt (r i) o 1 = 0
        (s.hostAnswer hr = .ok ∨ count = 0 → good → ∃ s', exec (.setScales n hr) s = .next s' ∧ Completed s' n h .ok ∧ s'.tiles = s.tiles
          ∧ (((List.range count).map fun i => leAt (r i) 0 2).Nodup → ∀ i, i < count →
            s'.scaleEntry (leAt (r i) 0 2) = (s.scaleEntry (leAt (r i) 0 2)).store ((r i).drop 8))
          ∧ (∀ k, (∀ i, i < count → leAt (r i) 0 2 ≠ k) → s'.scaleEntry k = s.scaleEntry k)
          ∧ s'.scale.k = (if natBit (h.field 0x12 1) 0 then min (h.field 0x13 1) 24 else s.scale.k)
          ∧ s'.scale.clean = (if natBit (h.field 0x12 1) 0 then
              (if s.raiseInterval ≤ h.field 0x14 4 then 0 else h.field 0x14 4) else s.scale.clean))
        ∧ (s.hostAnswer hr = .ok → ¬ good → ∃ s', exec (.setScales n hr) s = .next s' ∧ Completed s' n h .badPacket ∧ s'.scale = s.scale)
        ∧ (∀ e, s.hostAnswer hr = .fail e → count ≠ 0 →
          ∃ s', exec (.setScales n hr) s = .next s' ∧ Completed s' n h .hostError ∧ s'.scale = s.scale))
      ∧ (s.starts 0x0C n h → ∃ s', exec (.fenceCommand n) s = .next s' ∧ Completed s' n h .ok ∧ s'.tiles = s.tiles ∧ s'.mm = s.mm)

/-! ### Drains and restores -/

/-- R344, R414, R433, R468, R477 to R480: a DRAIN begins its snapshot of U between steps, or waits for the running step, and one whose
partner has no entry in state up or no such path completes with that status; the finished snapshot is the newest home copy and ships;
each chunk of an identity with an entry is kept with its leaf, and of another is dropped; a verified drain turns replay protection on,
one that did not verify does not; a write held by the drain lands once nothing holds it.
The model's choices here: logs 93, 94, 95, 96 and 127. -/
def Obligations.DrainsSnapshotShipAndVerify : Prop :=
  ∀ (s : State) (n : Nat) (h : Held),
    (s.starts 0x05 n h → s.res.drain = none →
        let path := s.pathEntry (h.field 8 2) (h.field 0x0A 1)
        (s.freeMode = true ∨ s.drainBroken = true → ∃ s', exec (.drain n) s = .next s' ∧ Completed s' n h .badPacket
          ∧ s'.res.drain = none ∧ s'.res.protect = s.res.protect)
        ∧ (s.freeMode = false → s.drainBroken = false →
          (∀ e, path = .error e → e.1 ≠ .ok → ∃ s', exec (.drain n) s = .next s' ∧ Completed s' n h e.1 ∧ s'.res.drain = none
            ∧ s'.res.protect = s.res.protect)
          ∧ ∀ i, path = .ok i → ∃ s' d, exec (.drain n) s = .next s' ∧ s'.res.drain = some d
            ∧ d.n = some n ∧ d.partner = i ∧ d.begun = s.step.isNone ∧ d.shipping = false
            ∧ (s.step = none → d.u = s.train.u ∧ d.lastStep = s.res.lastStep ∧ d.k = s.scale.k ∧ d.scaleEntries = s.scale.entries)
            ∧ s'.held? n = some { h with phase := .running } ∧ s'.tiles = s.tiles ∧ s'.mm = s.mm))
      ∧ (∀ d s1 d1 s3 body, s.res.drain = some d → d.begun = true → d.shipping = false →
        readRegions (d.bankRegions.filter fun r => !d.regions.contains r) s d = (s1, some d1) →
        let base := s1.homeSlot d1.slot
        let s2 := (s1.mainPut (base + copyBodyAt) (NMap.getRun 0 d1.log 0 (2 ^ 20))).mainPut (base + copyScaleAt)
          ((List.range 8192).flatMap fun n => (NMap.get ScaleEntry.init d1.scaleEntries n).bytes)
        s2.mainRead 5 (base + copyBodyAt) (bodyBytes d1.bankLen) = (s3, .ok body) →
        ∃ s', exec .drainSnapshotDone s = .next s' ∧ s'.res.drain = some { d1 with shipping := true } ∧ s'.res.homeValid = true
          ∧ s'.res.homeNewest = (d1.slot == 1) ∧ s'.res.lastU = d1.u ∧ s'.tiles = s1.tiles)
      ∧ (∀ manifest index chunk leaf, s.admits (BitVec.ofNat 64 (leAt manifest 8 8)) = false →
        ∃ s', exec (.drainChunkReceive manifest index chunk leaf) s = .next s' ∧ s'.mm = s.mm ∧ s'.res = s.res
          ∧ s'.link = { s.link with drops := BitVec.ofNat 32 (satInc 32 s.link.drops.toNat 1) })
      ∧ (∀ p f index chunk leaf, let id := BitVec.ofNat 64 (leAt f.manifest 8 8)
        s.admits id = true → s.fillOf id = some (p, f) → f.bad = false → index < bodyChunks (leAt f.manifest 0x20 8) →
        ∃ s', exec (.drainChunkReceive f.manifest index chunk leaf) s = .next s'
          ∧ s'.fillOf id = some (p, { f with
              leaves := NMap.put f.leaves index (digestLeaf index chunk), bad := digestLeaf index chunk != leaf })
          ∧ s'.tiles = s.tiles)
      ∧ (∀ d outcome, s.res.drain = some d → d.shipping = true →
        (d.n = some n → s.held? n = some h → s.freeMode = false → ∃ s', exec (.drainVerified none outcome) s = .next s'
          ∧ s'.res.drain = none ∧ s'.tiles = s.tiles ∧
          match outcome with
          | .verified => Completed s' n h .ok ∧ s'.res.protect = true ∧ s'.res.lastOk = true
          | .mismatch _ => Completed s' n h .digestMismatch ∧ s'.res.protect = s.res.protect ∧ s'.res.lastOk = false
          | .noSlot => Completed s' n h .notReady ∧ s'.res.protect = s.res.protect ∧ s'.res.lastOk = false)
        ∧ (d.n = none → ∃ s', exec (.drainVerified none outcome) s = .next s' ∧ s'.res.drain = none
          ∧ s'.host.event.getLsbD 12 = true ∧ s'.res.protect = s.res.protect))
      ∧ (∀ id p f o, s.fillOf id = some (p, f) → s.owner f.slot = some o →
        let bankLen := leAt f.manifest 0x20 8
        let leaves := f.leaves.map (·.2)
        f.bad = false → leaves.length = bodyChunks bankLen → rootOf (bodyBytes bankLen) leaves = (f.manifest.drop 0x30).take 32 →
        ∃ s', exec (.drainVerified (some id) .verified) s = .next s' ∧ s'.owner f.slot = some { o with newest := true, complete := true }
          ∧ NMap.get none s'.res.fills p = none ∧ s'.tiles = s.tiles)
      ∧ ∀ w, s.res.drain = none → s.train.held = [w] → 1 ≤ w.data.length →
        let s1 : State := { s with train := { s.train with
          held := [], holdNs := BitVec.ofNat 32 (satInc 32 s.train.holdNs.toNat (s.now - w.since)) } }
        let data := match w.bit with | some b => [putBit ((s.mainBytes w.addr 1).headD 0) b.1 b.2] | none => w.data
        ∃ s', exec (.bankHoldRelease (w.addr / 2 ^ 21)) s = .next s' ∧ s'.train = s1.train ∧ s'.mm = (s1.mainWrite w.addr data).1.mm

/-- R323, R403, R485 to R487: a RESTORE whose checks hold keeps the copy's manifest and goes on, and one that a check refuses completes
with its status; the verified copy, from a partner or from main memory, sets U, k and the last step from it; a copy that does not verify
completes DIGEST_MISMATCH and the image may not run; one that does not come completes NOT_READY.
The model's choices here: log 102. -/
def Obligations.RestoresCheckThenApply : Prop :=
  ∀ (s : State) (n : Nat) (h : Held),
    (s.starts 0x06 n h → (∀ m, s.image = none → ∃ s', exec (.restore n m) s = .next s' ∧ Completed s' n h .notReady) ∧
        ∀ m i partner s1 bs, s.image = some i →
        (∀ e, s.restorePath h = .error e → ∃ s', exec (.restore n m) s = .next s' ∧ Completed s' n h e.1)
        ∧ (s.restorePath h = .ok partner → s.restoreManifest h m = (s1, .ok bs) → s1.host.held = s.host.held →
          (s1.restoreFault h i bs = none → ∃ s' r, exec (.restore n m) s = .next s' ∧ s'.res.restore = some r ∧ r.n = n
            ∧ r.manifest = bs ∧ r.partner = partner ∧ s'.held? n = some { h with phase := .running } ∧ s'.train = s1.train)
          ∧ ∀ e, s1.restoreFault h i bs = some e → ∃ s', exec (.restore n m) s = .next s' ∧ Completed s' n h e.1
            ∧ s'.res = s1.res ∧ s'.train = s1.train))
      ∧ ∀ r copy, s.underway 0x06 n h → s.res.restore = some r → r.n = n →
        let len := bodyBytes (leAt r.manifest 0x20 8)
        let last := leAt r.manifest 0x18 8
        let ends (bs : List Byte) :=
          (copyFault r (fit 0 len bs) (bs.drop len) = none → ∃ s', exec (.restoreComplete n copy) s = .next s'
            ∧ Completed s' n h .ok ∧ s'.train.u = BitVec.ofNat 64 (leAt r.manifest 0x10 8) ∧ s'.scale.k = leAt r.manifest 0x83 1
            ∧ s'.res.lastStep = BitVec.ofNat 64 last
            ∧ s'.lastDone = (if last = 2 ^ 64 - 1 then none else some (BitVec.ofNat 64 last)) ∧ s'.res.restore = none
            ∧ s'.res.state = (if s.res.state = .restoreRequired ∧ r.partner = none then .restoreRequired else .replay))
          ∧ (∀ a, copyFault r (fit 0 len bs) (bs.drop len) = some a → ∃ s', exec (.restoreComplete n copy) s = .next s'
            ∧ Completed s' n h .digestMismatch ∧ s'.runnable = false ∧ s'.res.state = .restoreRequired ∧ s'.train.u = s.train.u)
        (∀ bs, r.partner.isSome = true → copy = some bs → ends bs)
        ∧ (r.partner.isSome = true → copy = none → ∃ s', exec (.restoreComplete n copy) s = .next s' ∧ Completed s' n h .notReady
          ∧ s'.res.restore = none ∧ s'.train = s.train)
        ∧ ∀ s1 bs, r.partner = none → { s with res := { s.res with restore := none } }.mainRead 5 (r.address + copyBodyAt)
            (bodyAndLeaves (leAt r.manifest 0x20 8)) = (s1, .ok bs) → ends bs

/-! ### Partners -/

/-- R411, R413, R414, R468, R484, R492: PAIR with the own identity makes the self entry, PAIR with another device sends a handshake, and
one whose entry or rank is taken, or whose port is gated, is refused; the answer within 100 ms brings the entry up, or empties it again
when the feed groups are shared and that is not allowed; without one the entry empties; a handshake for this device on a road is
answered; UNPAIR empties an entry, and that of the drain partner takes replay protection with it.
The model's choices here: logs 77 and 78. -/
def Obligations.PairingFillsAndEmptiesEntries : Prop :=
  ∀ (s : State) (n : Nat) (h : Held),
    let i := h.field 8 2
    let rank := h.field 0x0C 1
    let id := BitVec.ofNat 64 (h.field 0x10 8)
    let port := h.field 0x0B 1
    let leaves (s' : State) (p : Nat) (unit : List Byte) := ∃ k : LinkPacket, k.units = [fit 0 64 unit]
      ∧ ((1, k) ∈ (s'.road p).waiting ∨ ∃ f ∈ (s'.road p).replay, k ∈ f.packets)
    (s.step = none → s.link.pairing = none → s.starts 0x07 n h →
        let refused (st : CmdStatus) := ∃ s', exec (.pair n) s = .next s' ∧ Completed s' n h st ∧ s'.link = s.link
        ((s.partner i).state ≠ 0 ∨ s.rankTaken rank = true → refused .badPacket)
        ∧ ((s.partner i).state = 0 → s.rankTaken rank = false →
          (id = Config.identity → s.selfEntry ≠ none → refused .badPacket)
          ∧ (id = Config.identity → s.selfEntry = none → ∃ s', exec (.pair n) s = .next s'
            ∧ Completed s' n h .ok ∧ (s'.partner i).state = 2 ∧ (s'.partner i).path = 2 ∧ (s'.partner i).rank = rank
            ∧ (s'.partner i).identity = Config.identity ∧ ∀ k, k ≠ i → s'.partner k = s.partner k)
          ∧ (id ≠ Config.identity → (h.field 0x0A 1 = 0 ∧ s.pw.bootSel = 8) ∨ s.portGated port = true → refused .notReady)
          ∧ (id ≠ Config.identity → (h.field 0x0A 1 = 0 → s.pw.bootSel ≠ 8) → s.portGated port = false →
            ∃ s', exec (.pair n) s = .next s' ∧ s'.link.pairing = some ⟨n, i, h.flag 4, s.now, s.link.feedGroup⟩
              ∧ (s'.partner i).state = 1 ∧ (s'.partner i).rank = rank ∧ (s'.partner i).identity = id
              ∧ (∀ k, k ≠ i → s'.partner k = s.partner k) ∧ s'.held? n = some { h with phase := .running }
              ∧ (h.field 0x0A 1 ≠ 1 → (s.road port).state = .up →
                leaves s' port (handshakeUnit Config.identity id s.link.feedGroup 1 false))
              ∧ (h.field 0x0A 1 = 1 → s.ethUp (port - 8) = true → ∃ f, (s'.ethPort (port - 8)).out = some f
                ∧ f.dest = BitVec.ofNat 128 (h.field 0x18 16)))))
      ∧ (∀ pr p feed hops src, s.link.pairing = some pr → s.held? pr.n = some h → p < 12 → (s.partner pr.index).port = p →
        let c := Instr.pairingHandshakeReceive p true (s.partner pr.index).identity Config.identity feed ⟨hops, src⟩
        let shared := sharedFeed pr.feed feed
        let empties (st : CmdStatus) := ∃ s', exec c s = .next s' ∧ Completed s' pr.n h st ∧ s'.link.pairing = none
          ∧ s'.partner pr.index = Partner.init
        (pr.since + 100000000 ≤ s.now → empties .notReady)
        ∧ (s.now < pr.since + 100000000 → shared = true → pr.allowShared = false → empties .partnerSharesFeed)
        ∧ (s.now < pr.since + 100000000 → shared = false ∨ pr.allowShared = true → ∃ s', exec c s = .next s'
          ∧ Completed s' pr.n h .ok ∧ s'.link.pairing = none ∧ (s'.partner pr.index).state = 2
          ∧ (s'.partner pr.index).flags = (if shared then 3 else 0)
          ∧ (s'.partner pr.index).feedGroup = BitVec.ofNat 8 (feed.toNat % 256)))
      ∧ (∀ p identity feed hops src, p < 8 → ∃ s', exec (.pairingHandshakeReceive p false identity Config.identity feed ⟨hops, src⟩) s
          = .next s' ∧ leaves s' p (handshakeUnit Config.identity identity s.link.feedGroup hops true) ∧ s'.link.partners = s.link.partners)
      ∧ (∀ pr, s.link.pairing = some pr → s.held? pr.n = some h → pr.since + 100000000 ≤ s.now →
        ∃ s', exec .pairAnswerTimeout s = .next s' ∧ Completed s' pr.n h .notReady ∧ s'.partner pr.index = Partner.init
          ∧ s'.link.pairing = none)
      ∧ (s.step = none → s.starts 0x08 n h → (∀ d, s.res.drain = some d → d.n ≠ some n) → ∃ s', exec (.unpair n) s = .next s'
          ∧ Completed s' n h .ok ∧ s'.partner i = Partner.init ∧ (∀ k, k ≠ i → s'.partner k = s.partner k)
          ∧ s'.res.protect = (if s.res.partner.toNat = i then false else s.res.protect))

/-- R414, R432, R441: a commit writes the PARTNER_DATA words into the selected entry and an empty write clears it; a partner's feed
notice sets its flag and raises the event, and one from no partner is dropped and counted.
The model's choices here: logs 77 and 81. -/
def Obligations.ExpertEntriesAndFeedNotices : Prop :=
  ∀ (s : State),
    let i := s.link.select.toNat
    let staged := s.link.staged.foldl (fun b w => patch b (4 * w.1) (leBytes 4 w.2.toNat)) ((s.partner i).bytes i)
    (s.pw.diagReady = true → ∃ s', exec .partnerCommit s = .next s'
        ∧ s'.partner i = Partner.parse staged ∧ s'.link.staged = [] ∧ ∀ k, k ≠ i → s'.partner k = s.partner k)
      ∧ (s.pw.diagReady = true → ∃ s', exec .partnerEmpty s = .next s' ∧ s'.partner i = Partner.init
        ∧ ∀ k, k ≠ i → s'.partner k = s.partner k)
      ∧ (∀ identity feed time recovered k p, s.upPartners.find? (fun p => p.2.identity == identity) = some (k, p) →
        ∃ s', exec (.feedWarningReceive identity feed time recovered) s = .next s' ∧ s'.partner k = { p with flags := p.flags ||| 4 }
          ∧ s'.host.event.getLsbD 5 = true ∧ s'.tiles = s.tiles)
      ∧ (∀ identity feed time recovered, s.upPartners.find? (fun p => p.2.identity == identity) = none →
        exec (.feedWarningReceive identity feed time recovered) s = .next { s with
          link := { s.link with drops := BitVec.ofNat 32 (satInc 32 s.link.drops.toNat 1) } })

/-! ### Transfers -/

/-- R267, R400, R402, R403: a COPY between host memory, main memory and a tile writes exactly its bytes and completes; one that names
no such place or an isolated one is refused; QUERY writes whole records into the host's buffer, READ_TELEMETRY writes the oldest
records and removes them; where the host does not answer they complete HOST_ERROR.
The model's choices here: logs 68, 69 and 70. -/
def Obligations.TransfersMoveTheirBytes : Prop :=
  ∀ (s : State) (n : Nat) (h : Held) (hr : HostReply),
    let len := h.field 0x18 8
    let sides := s.copySides h
    let free (x : Nat) (consumer : BitVec 4) := s.inMain x len = true ∧ ((linePieces x len).any fun p => s.memIsolated p.1) = false
      ∧ s.disturbed consumer x len = false
    let reads (a : CopySide) (bs : List Byte) : Prop := match a with
      | .host x => s.hostAnswer hr = .ok ∧ bs = s.getHost x len
      | .main x => free x 4 ∧ bs = s.mainBytes x len
      | .tile t off => s.isolated t = false ∧ (s.tile t).mem.ready = true ∧ (s.tile t).readable off len
          ∧ bs = (List.range len).map fun k => s.dataByte t (off + k)
    let copies (s' : State) := exec (.copyComplete n hr) s = .next s' ∧ Completed s' n h .ok
    (s.starts 0x0B n h →
        (sides.1 = none ∨ sides.2 = none → ∃ s', exec (.copy n) s = .next s' ∧ Completed s' n h .badPacket)
        ∧ ∀ a b, sides = (some a, some b) →
          (s.sideIsolated len a = true ∨ s.sideIsolated len b = true →
            ∃ s', exec (.copy n) s = .next s' ∧ Completed s' n h .notReady)
          ∧ (s.sideIsolated len a = false → s.sideIsolated len b = false → exec (.copy n) s = .next (s.setRunning n)))
      ∧ (∀ a bs, s.underway 0x0B n h → reads a bs →
        (∀ t off, sides = (some a, some (.tile t off)) → s.isolated t = false → (s.tile t).mem.ready = true →
          (s.tile t).touch off len = .ok → ∃ s', copies s' ∧ DataKept s s' t off len
            ∧ (∀ k, k < len → s'.dataByte t (off + k) = bs.getD k 0)
            ∧ (∀ u, u ≠ t → s'.tile u = s.tile u) ∧ (s'.tile t).core = (s.tile t).core ∧ s'.host.mem = s.host.mem)
        ∧ (∀ x, sides = (some a, some (.host x)) → s.hostAnswer hr = .ok → ∃ s', copies s' ∧ s'.getHost x len = bs
            ∧ (∀ y, y < x ∨ x + len ≤ y → NMap.get 0 s'.host.mem y = NMap.get 0 s.host.mem y) ∧ ∀ u, s'.tile u = s.tile u)
        ∧ (∀ x, sides = (some a, some (.main x)) → free x 6 → ∃ s', copies s' ∧ s'.mainBytes x len = bs
            ∧ (∀ y, y < x ∨ x + len ≤ y → NMap.get 0 s'.mm.bytes y = NMap.get 0 s.mm.bytes y) ∧ ∀ u, s'.tile u = s.tile u))
      ∧ (∀ x b e, s.underway 0x0B n h → sides = (some (.host x), some b) → s.hostAnswer hr = .fail e →
        ∃ s', exec (.copyComplete n hr) s = .next s' ∧ Completed s' n h .hostError ∧ s'.tiles = s.tiles)
      ∧ (s.starts 0x0D n h →
        let sel := h.field 8 2
        let first := if sel = 0 ∨ sel = 7 then 0 else h.field 0x0C 4
        let limit := s.recordCount sel
        let bs := takeRecordsOf s sel (rangeFrom first (min (h.field 0x10 4) (limit - first))) (h.field 0x20 4)
        let outside := indexed sel && limit ≤ first
        (outside = true → ∃ s', exec (.query n hr) s = .next s' ∧ Completed s' n h .badPacket)
        ∧ (outside = false → s.hostAnswer hr = .ok → ∃ s', exec (.query n hr) s = .next s' ∧ Completed s' n h .ok
          ∧ s'.getHost (h.field 0x18 8) bs.length = bs ∧ s'.tiles = s.tiles ∧ bs.length ≤ h.field 0x20 4)
        ∧ (∀ e, outside = false → s.hostAnswer hr = .fail e → bs ≠ [] →
          ∃ s', exec (.query n hr) s = .next s' ∧ Completed s' n h .hostError ∧ s'.host.mem = s.host.mem))
      ∧ (s.starts 0x0E n h →
        let r := takeTelemetry (h.field 8 4) (h.field 0x18 4 / 32) s.host.telemetry
        (s.hostAnswer hr = .ok → ∃ s', exec (.readTelemetry n hr) s = .next s' ∧ Completed s' n h .ok ∧ s'.host.telemetry = r.2
          ∧ s'.getHost (h.field 0x10 8) (32 * r.1.length) = r.1.flatMap Telemetry.bytes ∧ s'.tiles = s.tiles)
        ∧ (∀ e, s.hostAnswer hr = .fail e → r.1 ≠ [] → ∃ s', exec (.readTelemetry n hr) s = .next s' ∧ Completed s' n h .hostError
          ∧ s'.host.telemetry = s.host.telemetry))

/-! ### Haul roads and Ethernet -/

/-- R416, R417, R420 to R423, R427: a bad flit is answered by flits that ask for a resend and changes nothing else of the receiver, one
out of sequence is discarded, one without slots gives its credits and acknowledgement, and one in sequence delivers its packet; eight
retries or 100 µs of silence take a road down; it comes back up within 10 ms, on both halves or on one, or fails with its entries.
The model's choices here: logs 74, 75, 76 and 85. -/
def Obligations.RoadsReceiveRetrainAndFail : Prop :=
  ∀ (s : State) (p : Nat) (f : List Byte), p < 8 →
    let r := s.road p
    let good := crc32 (f.take 0x218) = BitVec.ofNat 32 (leAt f 0x218 4)
    let w := leAt f 0 8
    (r.state = .up → s.link.srefclk = true → f.length = 544 →
        (¬good → ∃ s', exec (.linkFlitReceive p f) s = .next s' ∧ s'.tiles = s.tiles ∧ s'.link.inbound = s.link.inbound
          ∧ (s'.road p).rxSeq = r.rxSeq ∧ (s'.road p).retrying = true ∧ (s'.road p).lastValid = r.lastValid
          ∧ (s'.road p).out ≠ [] ∧ ∀ o ∈ (s'.road p).out, natBit (leAt o 0 8) 39 = true)
        ∧ (good → bitsAt w 24 2 = 0 →
          exec (.linkFlitReceive p f) s = .next ((s.setRoad p (r.takeHeader s.now w)).replyRoad p (natBit w 39)))
        ∧ (good → bitsAt w 24 2 ≠ 0 → bitsAt w 52 12 ≠ r.rxSeq →
          exec (.linkFlitReceive p f) s = .next (s.setRoad p { r with lastValid := s.now }))
        ∧ (∀ e, good → bitsAt w 24 2 = 1 → bitsAt w 52 12 = r.rxSeq →
          let k := flitSlot f 0
          (PktHeader.parse k.header).vc = 0 → (PktHeader.parse k.header).destRank = s.ownRank →
          s.senderEntry p (PktHeader.parse k.header).srcRank = some e → ∃ s' last, exec (.linkFlitReceive p f) s = .next s'
            ∧ s'.link.inbound = s.link.inbound ++ [Inbound.mk p 0 k 0 last (some e)] ∧ (s'.road p).rxSeq = (r.rxSeq + 1) % 4096
            ∧ (s'.road p).retrying = false ∧ s'.tiles = s.tiles))
      ∧ (r.state = .up → 8 ≤ r.retries → exec (.linkRetryLimit p) s = .next (s.setRoad p { r with
          state := .down, lanes := 0, downSince := s.now }))
      ∧ (r.state = .up → r.lastValid + 100000 ≤ s.now → exec (.linkSilenceTimeout p) s = .next (s.setRoad p { r with
          state := .down, lanes := 0, downSince := s.now }))
      ∧ (∀ lanes, r.state = .training ∨ (r.state = .down ∧ s.now < r.downSince + 10000000) → lanes ≠ 0 → s.link.srefclk = true →
        ∃ s', exec (.linkRetrained p lanes) s = .next s' ∧ (s'.road p).state = .up ∧ (s'.road p).lanes = lanes ∧ s'.tiles = s.tiles)
      ∧ (r.state = .down → r.downSince + 10000000 ≤ s.now → ∃ s', exec (.linkFailed p) s = .next s' ∧ (s'.road p).state = .failed
        ∧ (s'.road p).replay = [] ∧ ∀ k ∈ s.entriesOn p, (s'.partner k).state = 3)

/-- R414, R434 to R440, R561: an Ethernet port drops and counts what is not for it and what comes from a device without an entry,
takes acknowledgements, slows down at an ece, delivers in PSN order, retransmits and counts and fails the entry at the eighth timeout,
sends its acknowledgement when its timer is due, raises its rate, honours a pause, answers for its own addresses, and follows its link
and the reference clock. The model's choices here: logs 79, 80, 82 and 84. -/
def Obligations.EthernetFollowsItsTransport : Prop :=
  ∀ (s : State) (e i : Nat) (ce : Bool) (sent : EthFrame), e < 4 → i < 4096 →
    let f := arrived ce sent
    let x := s.ethPort e
    let c := s.ethCtx i
    let p := s.partner i
    let d := f.payload
    let dropped := s.setEth e { x with drops := x.drops + 1 }
    let from' := s.link.partners.find? fun p => (p.2.state == 2 || p.2.state == 1) && p.2.path == 1 && p.2.port == 8 + e
      && p.2.identity.toNat == leAt d 0x10 8
    let seen := { c with ece := c.ece || f.ecn == 3 }
    (s.ethUp e = true → f.destMac ≠ Config.mac e ∨ (f.tag.map (·.1)).getD 0 ≠ x.vlan ∨ (f.dest ≠ mapped x.ipv4 ∧ f.dest ≠ x.ipv6)
          ∨ f.udp.map (·.2) ≠ some s.link.udpPort ∨ 9216 < frameBytes f ∨ d.length < 32 ∨ leAt d 0 1 ≠ 1 →
        exec (.datagramReceive e ce sent) s = .next dropped)
      ∧ (s.ethUp e = true → s.forPort e f = true →
        (leAt d 2 2 = 0 → from' = none → exec (.datagramReceive e ce sent) s = .next { s with
          link := { s.link with drops := BitVec.ofNat 32 (satInc 32 s.link.drops.toNat 1) } })
        ∧ (∀ q, leAt d 2 2 = 0 → from' = some (i, q) → leAt d 1 1 = 3 →
          (natBit (leAt d 8 4) 31 = false →
            exec (.datagramReceive e ce sent) s = .next ((s.setCtx i (seen.takeAck (leAt d 8 4 % 2 ^ 24) (leAt d 12 4))).pumpCtx i))
          ∧ (natBit (leAt d 8 4) 31 = true → (∀ t, c.lastCut = some t → t + 50000 ≤ s.now) →
            ∃ s', exec (.datagramReceive e ce sent) s = .next s' ∧ (s'.partner i).rateMbps = max 1000 (p.rateMbps * 7 / 8)
              ∧ (s'.ethCtx i).lastCut = some s.now))
        ∧ (∀ q k j, from' = some (i, q) → leAt d 1 1 = 0 → natBit (leAt d 8 4) 31 = false → c.rxPsn < 2 ^ 24 → c.early = [] →
          leAt d 4 4 % 2 ^ 24 = (c.rxPsn + 1) % 2 ^ 24 → parseSlots (leAt d 2 2) (d.drop 32) = [k] →
          (PktHeader.parse k.header).vc = 0 → (PktHeader.parse k.header).destRank = s.ownRank →
          s.senderEntry (8 + e) (PktHeader.parse k.header).srcRank = some j → ∃ s', exec (.datagramReceive e ce sent) s = .next s'
            ∧ (s'.ethCtx i).rxPsn = (c.rxPsn + 1) % 2 ^ 24 ∧ s'.tiles = s.tiles
            ∧ s'.link.inbound = s.link.inbound ++ [Inbound.mk (8 + e) 0 k 0 true (some j)]))
      ∧ (∀ g, c.unacked.find? (fun g => !g.sacked) = some g → g.sentAt + 100000 * 2 ^ c.timeouts ≤ s.now →
        c.unacked.find? (fun y => y.psn == g.psn) = some g → ∃ s', exec (.retransmitTimeout i g.psn) s = .next s'
          ∧ (s'.partner i).retransmits = satInc 32 p.retransmits 1
          ∧ (8 ≤ c.timeouts + 1 → (s'.partner i).state = 3)
          ∧ (c.timeouts + 1 < 8 → (s'.ethCtx i).timeouts = c.timeouts + 1 ∧ s'.tiles = s.tiles
            ∧ (s'.ethCtx i).unacked = c.unacked.map (fun y => if y.psn = g.psn then { y with sentAt := s.now } else y)
            ∧ (g.frame ≠ none → (s'.ethPort (p.port - 8)).out = g.frame)))
      ∧ (c.sinceAck ≠ 0 → c.ackFrom + 10000 ≤ s.now → ∃ s' g, exec (.ackTimer i) s = .next s'
          ∧ s'.ethCtx i = { c with sinceAck := 0, ece := false, acksSent := c.acksSent + 1 }
          ∧ (s'.ethPort (p.port - 8)).out = some g ∧ leAt g.payload 1 1 = 3
          ∧ (c.rxPsn < 2 ^ 24 → leAt g.payload 8 4 = c.rxPsn + if c.ece then 2 ^ 31 else 0))
      ∧ (p.state = 2 → p.path = 1 → c.rateSince + 50000 ≤ s.now → ∃ s', exec (.rateTimer i) s = .next s'
        ∧ (s'.partner i).rateMbps = min (s.ethPort (p.port - 8)).rateMbps (p.rateMbps + 5000) ∧ (s'.ethCtx i).rateSince = s.now)
      ∧ (∀ quanta, s.ethUp e = true → x.pfcEnable = true →
        (quanta ≠ 0 → exec (.pauseFrameReceive e s.link.pfcPriority.toNat quanta) s = .next (s.setEth e { x with
          paused := s.now + ceilDiv (quanta.toNat * 512 * 1000) x.rateMbps }))
        ∧ (quanta = 0 → ∃ s', exec (.pauseFrameReceive e s.link.pfcPriority.toNat quanta) s = .next s' ∧ (s'.ethPort e).paused = 0))
      ∧ (∀ v6 a, s.ethUp e = true → let own := if v6 then a = x.ipv6 else a.setWidth 32 = x.ipv4
        (own → exec (.arpNdRequest e v6 a) s = .next (s.setEth e { x with answers := x.answers + 1 }))
        ∧ (¬ own → exec (.arpNdRequest e v6 a) s = .next dropped))
      ∧ (∀ mode, exec (.ethernetLinkChange e false mode) s = .next (s.setEth e { x with state := 0 }))
      ∧ (∀ mode, x.enable = true → s.link.srefclk = true → s.portGated (8 + e) = false → s.portInReset (8 + e) = false →
        s.deviceAsleep = false → mode ≠ 3 → ∃ s', exec (.ethernetLinkChange e true mode) s = .next s' ∧ (s'.ethPort e).state = 2
          ∧ (s'.ethPort e).mode = mode ∧ (s'.ethPort e).awaited = none)
      ∧ (s.link.srefclk = true → ∃ s', exec (.srefclkChange false) s = .next s' ∧ s'.link.srefclk = false
        ∧ (∀ k, k < 4 → (s'.ethPort k).state = 0)
        ∧ ∀ k, k < 8 → (s'.road k).state = (if (s.road k).state = .blockReset then .blockReset else .disabled))
      ∧ (s.link.srefclk = false → s.deviceAsleep = false → ∃ s', exec (.srefclkChange true) s = .next s' ∧ s'.link.srefclk = true
        ∧ (∀ k, k < 4 → (s'.ethPort k).state =
          if (s.ethPort k).enable && !s.portGated (8 + k) && !s.portInReset (8 + k) then 1 else 0)
        ∧ ∀ k, k < 8 → (s.road k).state = .disabled → s.pw.bootSel ≠ 8 → s.portGated k = false →
          (s'.road k).state = (if (s.entriesOn k).isEmpty then .training else .down))

/-! ### Resets and dawn -/

/-- R498 to R500, R503, R509, R521, R526, R527, R529, R530, R556: a reset of the device ends the step, the image and the commands
in flight, disables the queues, clears ready, and diagnostics but where dawn starts at D4, records its kind and detail, and after a dawn that
ended or is held starts dawn where its kind says; it clears tile memory or keeps the bytes of resident pages, and only a reset of power level loses main memory.
The model's choices here: logs 105, 106 and 107. -/
def Obligations.ResetsEndWorkAndRestartDawn : Prop :=
  ∀ (s : State) (n : Nat) (h : Held) (v : Word32) (f up : Bool) (b : Nat) (g : Prop) (c : Instr) (k : ResetKind)
    (d stage : Nat) (keep : Bool),
    (g, c, k, d, stage, keep) ∈ ([(s.starts 0x11 n h, .resetDevice n, .command, b2n (h.flag 2), 4, h.flag 2),
        (s.pw.diagReady = true ∧ v.getLsbD 31 = true, .deviceReset v, .command, b2n (v.getLsbD 30), 4, v.getLsbD 30),
        ((if up then s.pw.aux else s.pw.v48) = false, .powerOnReset up, .powerOn, 0, 0, false),
        (True, .supplyReset .input f, .supply, 0, 0, false), (b < 6, .supplyReset (.core b) f, .supply, b + 1, 0, false),
        (b < 6, .thermalReset b, .thermal, b, 0, false), (s.pw.perst = false, .perstNAssert, .perstN, 0, 0, false),
        (True, .hotReset, .hotReset, 0, 0, false), (True, .flr, .flr, 0, 4, false), (True, .watchdogReset, .watchdog, 0, 3, true),
        (s.sec.debugScope.getLsbD 2 = true, .debugReset, .debug, 0, 3, false)] :
        List (Prop × Instr × ResetKind × Nat × Nat × Bool)) → g →
    ∃ s', exec c s = .next s' ∧ s'.step = none ∧ s'.image = none ∧ s'.runnable = false ∧ s'.host.held = [] ∧ s'.host.done = []
      ∧ (∀ q, (s'.queue q).state = .disabled) ∧ s'.host.event = 0 ∧ s'.pw.ready = false
      ∧ s'.pw.diagReady = decide (s'.pw.standing = .dawn ∧ s'.pw.stage = 4) ∧ s'.pw.service = (if s'.pw.diagReady then 1 else 0)
      ∧ s'.pw.kind = k ∧ s'.pw.detail = BitVec.ofNat 8 d ∧ (s.pw.standing = .ended ∨ s.pw.standing = .hold → s'.pw.stage = stage)
      ∧ s'.pending = s.pending ∧ (keep = false → s'.tiles = [])
      ∧ (keep = true → s.pw.fieldBench = none → ∀ t a, NMap.wf 0 (s.tile t).pages.attr = true →
          s'.dataByte t a = if (s.tile t).pageAttr (a / 4096) = 1 then s.dataByte t a else 0)
      ∧ (k.level = 4 → s'.mm.bytes = [])
      ∧ (k.level < 4 → s.pw.d3cold = false → s.pw.fieldBench = none → s'.mm.bytes = s.mm.bytes)

/-- R373, R491, R492, R501 to R505, R526, R537 to R541: dawn goes on from stage to stage, boots a valid bank or waits for a recovery
image, and ends in full service with ready set when every bench is complete, in field mode on the lowest complete bench, or in
diagnostic service; BOOT_SEL ends it early; a recovery hold is left on release.
The model's choices here: logs 11, 85 and 108. -/
def Obligations.DawnRunsToService : Prop :=
  ∀ (s : State) (i : DawnInput),
    let p := s.pw
    let done := exec (.dawnStageComplete i) s
    (p.perst = true → exec .perstNRelease s = .next { s with pw := { p with
        perst := false, standing := if p.standing = .inReset then .dawn else p.standing } })
      ∧ (p.standing = .hot → ∃ s', exec .thermalCooled s = .next s' ∧ s'.pw.stage = 0
        ∧ s'.pw.standing = (if p.perst then .inReset else .dawn) ∧ ∀ b, (s'.bench b).thermal = 0)
      ∧ (p.standing = .dawn →
        (p.stage = 0 → done = .next { s with pw := { p with v48 := true, stage := 1 } })
        ∧ (p.stage = 1 → done = .next { s with pw := { p with bootSel := BitVec.ofNat 4 (min 15 (i.millivolts / 100)), stage := 2 } })
        ∧ (p.stage = 2 → ∃ s', done = .next s' ∧ s'.pw.optionDefault = !i.optionOk
          ∧ (i.optionOk = true → s'.slot 2 = shake32 Config.optBytes ∧ s'.res.recoveryBase = Config.optRecoveryBase)
          ∧ s'.slot 3 = fuseMeasure s.sec.counter
          ∧ (p.bootSel = 0 → s'.pw.standing = .ended ∧ s'.pw.stage = 2) ∧ (p.bootSel ≠ 0 → s'.pw.standing = .dawn ∧ s'.pw.stage = 3))
        ∧ (p.stage = 3 →
          (p.bootSel = 12 ∨ p.bootSel = 13 → ∃ s', done = .next s' ∧ s'.pw.standing = .recovery ∧ s'.sec.recStatus = 1
            ∧ s'.sec.recSideband = decide (p.bootSel = 12))
          ∧ (∀ b f, p.bootSel ≠ 12 → p.bootSel ≠ 13 → s.sec.selectBank (decide (p.bootSel = 14)) = some (b, f) →
            ∃ s', done = .next s' ∧ s'.pw.stage = 4 ∧ s'.pw.standing = .dawn
            ∧ s'.pw.diagReady = true ∧ s'.pw.service = 1 ∧ s'.sec.bootBank = b ∧ s'.sec.fallback = f ∧ s'.sec.recovery = false
            ∧ s'.sec.debugScope = 0)
          ∧ (p.bootSel ≠ 12 → p.bootSel ≠ 13 → s.sec.selectBank (decide (p.bootSel = 14)) = none → ∃ s', done = .next s'
            ∧ s'.pw.standing = .recovery ∧ s'.sec.recStatus = 1 ∧ s'.sec.recSideband = false))
        ∧ (p.stage = 4 → ∃ s', done = .next s' ∧ s'.mm.trained = true ∧ s'.mm.chanFail = i.failedChannels.filter (· < 128)
          ∧ (p.fillDue = true → s'.mm.bytes = []) ∧ s'.random.keyValid = true
          ∧ (p.holdsDawn = true → s'.pw.standing = .hold ∧ s'.host.event.getLsbD 9 = true ∧ s'.mod.alert = true)
          ∧ (p.holdsDawn = false → p.diagOnly = true → s'.pw.standing = .ended ∧ s'.pw.stage = 4)
          ∧ (p.holdsDawn = false → p.diagOnly = false → s'.pw.standing = .dawn ∧ s'.pw.stage = 5))
        ∧ (p.stage = 5 → ∃ s', done = .next s' ∧ s'.pw.stage = 6 ∧ s'.pw.benchFailed = i.failedBenches.filter (· < 6))
        ∧ (p.stage = 6 →
          let whole := (List.range 6).all s.benchComplete
          (p.bootSel ≠ 9 → whole = true → ∃ s', done = .next s' ∧ s'.pw.standing = .ended
            ∧ s'.pw.service = 2 ∧ s'.pw.ready = true ∧ s'.host.event.getLsbD 10 = true ∧ s'.tiles = s.tiles ∧ s'.mm = s.mm)
          ∧ (∀ b, p.bootSel = 9 ∨ whole = false → (List.range 6).find? s.benchComplete = some b → ∃ s', done = .next s'
            ∧ s'.pw.standing = .ended ∧ s'.pw.service = 3 ∧ s'.pw.fieldBench = some b ∧ s'.pw.ready = true
            ∧ s'.host.event.getLsbD 10 = true)
          ∧ ((List.range 6).find? s.benchComplete = none → ∃ s', done = .next s' ∧ s'.pw.standing = .ended ∧ s'.pw.service = 1
            ∧ s'.pw.ready = false)))
      ∧ (p.standing = .hold → exec .releaseHold s = .next { s with pw :=
          if p.diagOnly then { p with history := [], standing := .ended } else { p with history := [], standing := .dawn, stage := 5 } })
      ∧ (p.standing = .recovery → s.sec.recSideband = false →
        (∃ s', exec .recoveryPieceReady s = .next s' ∧ s'.sec.recStatus = 1 ∧ s'.pw = p
          ∧ s.sec.recReceived <+: s'.sec.recReceived)
        ∧ (∀ e, s.sec.recFault = some e → exec .recoveryFinish s = .next { s with
            sec := { (if e = 4 then s.sec.setBank s.sec.recTarget s.sec.recReceived else s.sec) with
              recStatus := e, recReceived := [] } })
        ∧ (s.sec.recFault = none → ∃ s', exec .recoveryFinish s = .next s' ∧ s'.sec.bank s.sec.recTarget = s.sec.recReceived
          ∧ s'.pw.stage = 4 ∧ s'.pw.standing = .dawn ∧ s'.pw.diagReady = true ∧ s'.sec.recovery = true ∧ s'.sec.recStatus = 2))

/-! ### Power, temperature and block resets -/

/-- R299, R400, R460, R514 to R520, R531: SET_POWER divides the benches of its scope, starts dusk or the way back, or is refused; dusk
ends with the benches held or their tiles and the image lost, and for the whole device with the DRAMs in self-refresh; the way back
ends with the tiles switched on; D3hot starts device Midnight and D0 leaves it; POWER_CONTROL acts as written.
The model's choices here: log 109. -/
def Obligations.PowerCommandsChangeTheirBenches : Prop :=
  ∀ (s : State) (n : Nat) (h : Held),
    let scope := h.field 0x0A 1
    let bs := scopeBenches scope (h.field 0x0B 1)
    let l := levelOf (h.field 8 1)
    let d := if h.field 8 1 = 1 then divisionOf (h.field 9 1) else 0
    let may := ∀ b ∈ bs, (s.bench b).level.mayGo l = true
    (s.pw.transition = none → s.starts 0x0F n h →
        let starts := ∃ s', exec (.setPower n) s = .next s' ∧ s'.pw.transition = some ⟨some n, bs, l, scope == 0, true⟩
          ∧ s'.held? n = some { h with phase := .running }
        (¬ may → ∃ s', exec (.setPower n) s = .next s' ∧ Completed s' n h .badPacket ∧ s'.pw = s.pw)
        ∧ (may → s.refusesPower n bs (scope == 0) l = true → ∃ s', exec (.setPower n) s = .next s' ∧ Completed s' n h .notReady
            ∧ s'.host.event.getLsbD 6 = true ∧ s'.pw = s.pw)
        ∧ (s.refusesPower n bs (scope == 0) l = false →
          (l.isGated = false → s.gatedOf bs = [] → ∃ s', exec (.setPower n) s = .next s'
            ∧ Completed s' n h (if s.cappedBelow bs d then .powerCapped else .ok)
            ∧ s'.pw.cap = (if h.field 0x0C 2 = 0 then s.pw.cap else h.field 0x0C 2)
            ∧ ∀ b ∈ bs, (s'.bench b).requested = d ∧ (s'.bench b).level = (if d = 0 then .noon else .evening))
          ∧ (l.isGated = false → s.gatedOf bs ≠ [] → starts)
          ∧ (l.isGated = true → may → (∃ b ∈ bs, (s.bench b).level ≠ l) → starts)
          ∧ (l.isGated = true → may → (∀ b ∈ bs, (s.bench b).level = l) → l ≠ .midnight ∨ scope ≠ 0 ∨ s.deviceAsleep = true →
            ∃ s', exec (.setPower n) s = .next s' ∧ Completed s' n h .ok ∧ s'.pw.benches = s.pw.benches ∧ s'.tiles = s.tiles)))
      ∧ (∀ x, s.pw.transition = some x → x.n = some n → s.held? n = some h → (∀ d, s.res.drain = some d → d.n ≠ some n) →
        (x.level.isGated = true → x.checked = true → s.step = none ∧ s.quiet x.benches = true) →
        (x.level = .nightHold → ∃ s', exec .powerTransitionComplete s = .next s' ∧ Completed s' n h .ok
          ∧ s'.pw.transition = none ∧ s'.tiles = s.tiles ∧ ∀ b ∈ x.benches, (s'.bench b).level = .nightHold)
        ∧ (x.level = .midnight → ∃ s', exec .powerTransitionComplete s = .next s' ∧ Completed s' n h .ok
          ∧ s'.pw.transition = none ∧ s'.image = none ∧ s'.tiles = s.tiles.filter (fun p => !x.benches.contains (s.tb p.1))
          ∧ (∀ b ∈ x.benches, (s'.bench b).level = .midnight)
          ∧ ∀ g, (s.memGroup g).state = .service → (s'.memGroup g).state = (if x.device then .selfRefresh else .service))
        ∧ (x.level.isGated = false → ∃ s' st, exec .powerTransitionComplete s = .next s' ∧ Completed s' n h st
          ∧ (st = .ok ∨ st = .powerCapped) ∧ s'.pw.transition = none
          ∧ ∀ b ∈ x.benches, (s'.bench b).level = (if (s.bench b).requested = 0 then .noon else .evening)
            ∧ ((s.bench b).level = .midnight → ∀ t, t < s.tilesServed → s.tb t = b → (s'.tile t).mem.ready = false)))
      ∧ (s.pw.diagReady = true → s.host.d3hot = false → s.pw.transition = none → ∃ s', exec .d3hotWrite s = .next s'
        ∧ s'.host.d3hot = true ∧ s'.pw.transition = some ⟨none, [0, 1, 2, 3, 4, 5], .midnight, true, true⟩)
      ∧ (s.host.d3hot = true → (∀ x, s.pw.transition = some x → x.n = none) → ∃ s', exec .d0Write s = .next s'
        ∧ s'.host.d3hot = false
        ∧ s'.pw.transition = (if s.gatedOf [0, 1, 2, 3, 4, 5] = [] then none else some ⟨none, [0, 1, 2, 3, 4, 5], .noon, true, true⟩))
      ∧ ∀ (w : Word32), s.pw.diagReady = true →
        let mask := (w.extractLsb' 0 6).toNat
        let next := levelOf (w.extractLsb' 29 2).toNat
        let go := (setBits mask 6 0).filter fun b => (s.bench b).level.mayGo next
        (w.getLsbD 31 = false → ∃ s', exec (.powerControlApply w) s = .next s' ∧ s'.pw.ctlMask = w.extractLsb' 0 6
          ∧ s'.pw.benches = s.pw.benches ∧ s'.pw.transition = s.pw.transition)
        ∧ (w.getLsbD 31 = true → next.isGated = false → ∃ s', exec (.powerControlApply w) s = .next s'
          ∧ s'.pw.ctlMask = w.extractLsb' 0 6 ∧ ∀ b, b < 6 → w.getLsbD b = true → (s.bench b).level.isGated = false →
            let by' := if next = .noon then 0 else if w.extractLsb' 27 2 = 3 then 2 else w.extractLsb' 27 2
            (s'.bench b).requested = by' ∧ (s'.bench b).level = (if by' = 0 then .noon else .evening))
        ∧ (w.getLsbD 31 = true → next.isGated = true → s.pw.transition = none → go ≠ [] →
          ∃ s', exec (.powerControlApply w) s = .next s' ∧ s'.pw.benches = s.pw.benches ∧ s'.pw.transition =
            (if mask = 7 ∨ mask = 0x38 ∨ mask = 0x3F then some ⟨none, go, next, mask == 0x3F, false⟩ else none))

/-- R432, R512, R521 to R526, R567: a rail's warning divides its benches by 2 until the release, which closes the entry, counts the event
and raises twilight; the ninth event within 1 s lowers the cap; power over the cap slows the bench that draws most, room below it
speeds one up; 100 and 108 °C divide a bench, and 10 ms below 97 °C undo one step. The model's choices here: log 110. -/
def Obligations.TwilightCapAndHeatDivideBenches : Prop :=
  ∀ (s : State) (rail : Rail) (x mv : Nat), railCode rail < 7 →
    let c := railCode rail
    ((∀ o ∈ s.pw.openTwilight, o.1 ≠ c) → ∃ s', exec (.twilightStart rail mv) s = .next s'
        ∧ s'.pw.openTwilight = s.pw.openTwilight ++ [(c, s.pw.twiNext)] ∧ s'.mod.alert = true
        ∧ (∀ b ∈ railBenches c, (s'.bench b).twilight = 1)
        ∧ s'.pw.cap = (if s.pw.twiTimes.length = 8 ∧ s.now ≤ s.pw.twiTimes.headD 0 + 10 ^ 9 then max 1200 (s.pw.cap * 9 / 10)
          else s.pw.cap))
      ∧ (∀ o, s.pw.openTwilight.find? (fun o => o.1 == c) = some o → ∃ s', exec (.twilightRelease rail mv) s = .next s'
        ∧ s'.pw.openTwilight = s.pw.openTwilight.filter (·.1 != c)
        ∧ s'.pw.twiCount = BitVec.ofNat 32 (satInc 32 s.pw.twiCount.toNat 1) ∧ s'.host.event.getLsbD 4 = true
        ∧ (∀ b, b < 6 → (s'.bench b).twilight = (if ∃ p ∈ s.pw.openTwilight, p.1 ≠ c ∧ b ∈ railBenches p.1 then 1 else 0))
        ∧ ∀ e, NMap.get none s.pw.twiLog o.2 = some e → NMap.get none s'.pw.twiLog o.2 = some { e with
            recovered := true, duration := min (s.now - e.time - 20000) (2 ^ 32 - 1), lowest := min e.lowest mv })
      ∧ (∀ b below, b < 6 →
        let slowed := (List.range 6).filter fun j => (s.bench j).cap != 0
        (s.pw.cap < x → (∀ t, s.pw.lastSlow = some t → t + 1000000 ≤ s.now) → (s.bench b).cap ≠ 2 →
          ∃ s', exec (.powerSample x b below) s = .next s'
          ∧ (s'.bench b).cap = slower (s.bench b).cap ∧ s'.pw.inputW = x ∧ s'.pw.lastSlow = some s.now
          ∧ ∀ k, k ≠ b → s'.bench k = s.bench k)
        ∧ (100 * x < 95 * s.pw.cap → slowed ≠ [] → ∃ s' k, exec (.powerSample x b true) s = .next s' ∧ k ∈ slowed
          ∧ (s'.bench k).cap = faster (s.bench k).cap ∧ s'.pw.inputW = x ∧ ∀ j, j ≠ k → s'.bench j = s.bench j)
        ∧ ∃ s', exec (.thermalThreshold b x) s = .next s' ∧ (s'.bench b).junction = x
          ∧ (100 ≤ x → 1 ≤ (s'.bench b).thermal.toNat) ∧ (108 ≤ x → 2 ≤ (s'.bench b).thermal.toNat)
          ∧ (s.bench b).thermal.toNat ≤ (s'.bench b).thermal.toNat
          ∧ ((s'.bench b).thermal ≠ 0 → s'.mod.alert = true) ∧ ∀ k, k ≠ b → s'.bench k = s.bench k)
      ∧ ∀ b, b < 6 → x < 97 → ∃ s', exec (.thermalSpeedup b x) s = .next s' ∧ (s'.bench b).thermal = faster (s.bench b).thermal
        ∧ (s'.bench b).junction = x ∧ ∀ k, k ≠ b → s'.bench k = s.bench k

/-- R131, R423, R441, R461, R506 to R508, R514, R530: a block reset that overlaps none runs at once and isolates its tiles, one that
overlaps another waits, and RESET_BLOCK of a gated block is NOT_READY; at its end the memory of the block's tiles is clear and their
lanes are to be armed, a port trains and a controller group serves again. The model's choices here: log 111. -/
def Obligations.BlockResetsIsolateAndClear : Prop :=
  ∀ (s : State) (k i : Nat),
    let free := ∀ b ∈ s.pw.blockResets, s.overlaps b.kind b.index k i = false
    let begun (s' : State) (m : Option Nat) :=
      (free → s'.pw.blockResets = s.pw.blockResets ++ [⟨k, i, m, true⟩] ∧ (k < 3 → ∀ t, s.inBlock k i t = true → s'.isolated t = true))
        ∧ (¬ free → s'.pw.blockResets = s.pw.blockResets ++ [⟨k, i, m, false⟩] ∧ s'.tiles = s.tiles)
    (∀ n h, s.starts 0x10 n h → h.field 8 1 = k → h.field 0x0C 2 = i →
        let none' := s.pw.fieldBench.isSome && decide (k = 0) && decide (256 ≤ i)
        (none' = true → ∃ s', exec (.resetBlock n) s = .next s' ∧ Completed s' n h .badPacket ∧ s'.tiles = s.tiles)
        ∧ (none' = false → s.blockGated k i = true → ∃ s', exec (.resetBlock n) s = .next s' ∧ Completed s' n h .notReady
          ∧ s'.tiles = s.tiles)
        ∧ (none' = false → s.blockGated k i = false → ∃ s', exec (.resetBlock n) s = .next s' ∧ begun s' (some n)))
      ∧ (∀ w : Word32, s.pw.diagReady = true → w.getLsbD 31 = true → (w.extractLsb' 27 3).toNat = k → (w.extractLsb' 0 11).toNat = i →
        i < blockCount k → ∃ s', exec (.blockResetStart w) s = .next s' ∧ begun s' none)
      ∧ ∀ m, s.pw.blockResets = [⟨k, i, m, true⟩] → ∃ s', exec (.blockResetComplete k i) s = .next s' ∧ s'.pw.blockResets = []
          ∧ (∀ n h, m = some n → s.held? n = some h → Completed s' n h .ok)
          ∧ (k < 3 → (∀ t, t < s.tilesServed → s.inBlock k i t = true →
              (∀ a, s'.dataByte t a = 0) ∧ (s'.tile t).rn.arming = true ∧ (s'.tile t).core.fault.valid = false)
            ∧ ∀ t, s.inBlock k i t = false → s'.tile t = s.tile t)
          ∧ (k = 3 → s.link.srefclk = true → s.deviceAsleep = false →
            (i < 8 → s.pw.bootSel ≠ 8 → (s'.road i).state = .training ∧ (s'.road i).retryCount = 0)
            ∧ (8 ≤ i → (s'.ethPort (i - 8)).state = if (s.ethPort (i - 8)).enable then 1 else 0))
          ∧ (k = 4 → s.mm.chanFail = [] → s.deviceAsleep = false → (s'.memGroup i).state = .service)

/-! ### Queues and messages -/

/-- R372, R375, R388 to R398, R404, R408, R409, R513: a fetched packet in sequence is held and journalled, one that is refused or out of
sequence completes at once, and an access that fails stops its queue, as does any while Bus Master Enable is 0; a completion is
written at the queue's tail and interrupts, or is kept in the journal; doorbells move the pointers or stop the queue; enabling takes
the configuration and queues the reports of lost commands, disabling waits for the commands in flight; unmasking sends what waited.
The model's choices here: logs 8, 64, 65 and 66. -/
def Obligations.QueuesFetchAndAnswer : Prop :=
  ∀ (s : State) (q : Nat) (r : HostReply), q < 64 →
    let x := s.queue q
    (s.host.pcie.busMaster = true → s.hostAnswer r = r) ∧ (s.host.pcie.busMaster = false → s.hostAnswer r = .fail .masterOff)
      ∧ (∀ k, s.fetchQueue = some q → s.journalSlot = some k → s.pw.diagReady = true → s.host.d3hot = false →
        s.host.held.length < 256 → (∀ h ∈ s.host.held, h.n < s.host.nextStart) →
        let p := s.getHost (x.sqBase.toNat + 64 * x.sqHead) 64
        (s.hostAnswer r = .ok → leAt p 4 4 = x.nextSeq.toNat → s.refuse q p = none → ∃ s', exec (.packetFetch r) s = .next s'
          ∧ s'.host.held = s.host.held ++ [Held.mk s.host.nextStart q p k .waiting] ∧ s'.host.done = s.host.done
          ∧ s'.queue q = { x with sqHead := (x.sqHead + 1) % x.entries, nextSeq := x.nextSeq + 1 }
          ∧ NMap.get (Journal.mk [] 0 false []) s'.host.journal k = Journal.mk p q false [] ∧ s'.tiles = s.tiles)
        ∧ (∀ st o, s.hostAnswer r = .ok → leAt p 4 4 = x.nextSeq.toNat → s.refuse q p = some (st, o) →
          ∃ s' d, exec (.packetFetch r) s = .next s' ∧ s'.host.held = s.host.held ∧ s'.host.done = s.host.done ++ [d]
          ∧ d.queue = q ∧ d.status = st.code ∧ d.detail = o % 2 ^ 64 ∧ d.seq = leAt p 4 4 ∧ d.tag = leAt p 2 2)
        ∧ (s.hostAnswer r = .ok → leAt p 4 4 ≠ x.nextSeq.toNat → ∃ s' d, exec (.packetFetch r) s = .next s'
          ∧ s'.host.held = s.host.held ∧ s'.host.done = s.host.done ++ [d] ∧ d.queue = q ∧ d.status = 1
          ∧ d.detail = 2 ^ 63 + x.nextSeq.toNat ∧ (s'.queue q).nextSeq = x.nextSeq
          ∧ (s'.queue q).sqHead = (x.sqHead + 1) % x.entries)
        ∧ ∀ e, s.hostAnswer r = .fail e → ∃ s', exec (.packetFetch r) s = .next s' ∧ (s'.queue q).state = .error
          ∧ (s'.queue q).error = 1 ∧ s'.host.event.getLsbD 8 = true ∧ s'.host.held = s.host.held)
      ∧ (s.fetchQueue = none ∨ s.pw.diagReady = false ∨ s.host.d3hot = true ∨ 256 ≤ s.host.held.length →
        exec (.packetFetch r) s = .next s)
      ∧ (∀ d, s.host.done.find? (fun d => d.queue == q) = some d → x.hasRoom = true → x.state ≠ .disabled →
        (s.hostAnswer r = .ok → ∃ s', exec (.completionWrite q r) s = .next s'
          ∧ s'.getHost (x.cqBase.toNat + 32 * x.cqTail) 32 = d.reply x.sqHead x.phase
          ∧ s'.queue q = { x with cqTail := (x.cqTail + 1) % x.entries
                                  phase := if x.cqTail + 1 = x.entries then !x.phase else x.phase }
          ∧ s'.host.done = dropDone q s.host.done
          ∧ (x.irqEnable = true → d.irq = true →
            ((s.msix x.vector.toNat).unmasked = true →
              NMap.get 0 s'.host.sent x.vector.toNat = NMap.get 0 s.host.sent x.vector.toNat + 1)
            ∧ ((s.msix x.vector.toNat).unmasked = false → x.vector.toNat ∈ s'.host.pba))
          ∧ (x.irqEnable = false ∨ d.irq = false → s'.host.sent = s.host.sent ∧ s'.host.pba = s.host.pba))
        ∧ (∀ e, s.hostAnswer r = .fail e → x.state ≠ .error → ∃ s', exec (.completionWrite q r) s = .next s'
          ∧ (s'.queue q).state = .error ∧ (s'.queue q).error = 2 ∧ s'.host.mem = s.host.mem
          ∧ s'.host.done = dropDone q s.host.done
          ∧ ∀ k, d.slot = some k → (NMap.get (Journal.mk [] 0 false []) s'.host.journal k).unwritten = true
            ∧ (NMap.get (Journal.mk [] 0 false []) s'.host.journal k).reply = d.reply x.sqHead x.phase))
      ∧ (∀ i ws, let landed := { s with host := { s.host with mem := ws.foldl (fun m w => NMap.set 0 m w.1 w.2) s.host.mem } }
        (x.state = .active ∨ x.state = .error → i % 4096 ≤ x.lastEntry.toNat →
          exec (.sqTailDoorbell q i ws) s = .next (landed.setQueue q { x with sqTail := i % 4096 })
          ∧ exec (.cqHeadDoorbell q i) s = .next (s.setQueue q { x with cqHead := i % 4096 }))
        ∧ (x.state = .disabled → exec (.sqTailDoorbell q i ws) s = .next landed ∧ exec (.cqHeadDoorbell q i) s = .next s)
        ∧ (x.state = .active → x.lastEntry.toNat < i % 4096 →
          ∀ c ∈ [Instr.sqTailDoorbell q i ws, .cqHeadDoorbell q i], ∃ s', exec c s = .next s'
          ∧ (s'.queue q).state = .error ∧ (s'.queue q).error = 3 ∧ s'.host.event.getLsbD 8 = true))
      ∧ (∀ v : Word32, s.pw.diagReady = true → x.enable = false →
        let y := { x with
          priority := if q = 0 then 0 else v.extractLsb' 29 2, vector := v.extractLsb' 22 7, irqEnable := v.getLsbD 21
          lastEntry := if v.extractLsb' 0 12 = 0 then 1 else v.extractLsb' 0 12 }
        (v.getLsbD 31 = false → exec (.queueDisable q v) s = .next (s.setQueue q y))
        ∧ (v.getLsbD 31 = true → ∃ s', exec (.queueEnable q v) s = .next s'
          ∧ s'.queue q = { y with
            enable := true, state := .active, error := 0, sqHead := 0, sqTail := 0, cqTail := 0, cqHead := 0, phase := true
            nextSeq := 0, lost := .none }
          ∧ (∀ k, k ≠ q → s'.queue k = s.queue k) ∧ s'.host.done = s.host.done ++ lostReports q x.lost s.host.journal))
      ∧ (∀ v : Word32, s.pw.diagReady = true → x.enable = true →
        (v.getLsbD 31 = true → exec (.queueEnable q v) s = .next s)
        ∧ (v.getLsbD 31 = false → ∃ s', exec (.queueDisable q v) s = .next s'
          ∧ s'.queue q = { x with enable := false, state := if s.inFlight q = 0 then .disabled else .disabling }
          ∧ ∀ k, k ≠ q → s'.queue k = s.queue k))
      ∧ (x.state = .disabling → s.inFlight q = 0 → exec (.queueDrained q) s = .next (s.setQueue q { x with state := .disabled }))
      ∧ ∀ v, v < 128 → ∃ s', exec (.msixUnmask v) s = .next s' ∧ s'.msix v = { s.msix v with unmasked := true }
        ∧ (∀ w, w ≠ v → s'.msix w = s.msix w)
        ∧ (v ∈ s.host.pba → ¬ v ∈ s'.host.pba ∧ (s.host.pcie.busMaster = true →
          NMap.get 0 s'.host.sent v = NMap.get 0 s.host.sent v + 1))
        ∧ (¬ v ∈ s.host.pba → s'.host.pba = s.host.pba ∧ s'.host.sent = s.host.sent)

/-! ### Registers -/

/-- R38, R84, R86, R88, R104, R131, R133, R137, R333, R371 to R384, R528, R576: an access of BAR0 that is no aligned word or pair of words is
an Unsupported Request, a pair is two words, and offsets that nothing decodes ignore writes; configuration space and the MSI-X table
hold what is written; a window write of a tile out of service, or while firmware rewrites the tiles, is counted; a broadcast is the
same write at every tile of its selector in service; run control halts and releases, a halted tile single-steps, clears its fault
and takes code, ring and error words; scale and seed words are stored between steps only.
The model's choices here: logs 8, 9, 18, 19, 22, 71 and 126. -/
def Obligations.RegisterWritesReachTheirRegister : Prop :=
  ∀ (s : State) (t : Nat) (v : Word32), t < tileCount →
    let c := s.tile t
    let b4 := leBytes 4 v.toNat
    let bar0 (o : Nat) : Out := exec (.registerWrite (.bar0 o) b4) s
    let windows (r : RingNo) (k i : Nat) (w : Word64) : List Instr :=
      [.haltWrite t v, .singleStep t, .clearFault t, .codeWindowWrite t i w, .ringDescWrite t r.toNat k v, .eccInjectArm t v]
    let same (s' : State) : Prop := ∀ u, s'.tile u = s.tile u
    let others (s' : State) : Prop := ∀ u, u ≠ t → s'.tile u = s.tile u
    (∀ o bs, ¬ (bs.length = 4 ∧ o % 4 = 0) → ¬ (bs.length = 8 ∧ o % 8 = 0) →
        exec (.registerWrite (.bar0 o) bs) s = .next (s.logAer .unsupported))
      ∧ (∀ o bs s', bs.length = 8 → o % 8 = 0 → exec (.registerWrite (.bar0 o) (bs.take 4)) s = .next s' →
        exec (.registerWrite (.bar0 o) bs) s = exec (.registerWrite (.bar0 (o + 4)) (bs.drop 4)) s')
      ∧ (s.configOpen = false → (∀ r, exec (.registerWrite (.config r) b4) s = .next (s.setReply .retry))
        ∧ ∀ n : Word64, exec (.registerWrite .time (leBytes 8 n.toNat)) s = .next s)
      ∧ (s.configOpen = true →
        (∃ s', exec (.registerWrite (.config .command) b4) s = .next s' ∧ s'.host.pcie.busMaster = v.getLsbD 2)
        ∧ (∃ s', exec (.registerWrite (.config .bar2Size) b4) s = .next s' ∧ s'.host.bar2Log2 =
          if v.extractLsb' 8 6 < 10 ∨ 21 < v.extractLsb' 8 6 then s.host.bar2Log2 else 20 + (v.extractLsb' 8 6).toNat)
        ∧ (∀ n : Word64, ∃ s', exec (.registerWrite .time (leBytes 8 n.toNat)) s = .next s' ∧ s'.now = n.toNat)
        ∧ ∀ k, k < 128 →
          (∃ s', exec (.registerWrite (.bar4 (16 * k + 8)) b4) s = .next s' ∧ s'.msix k = { s.msix k with data := v })
          ∧ ∃ s', exec (.registerWrite (.bar4 (16 * k + 12)) b4) s = .next s'
            ∧ s'.msix k = { s.msix k with unmasked := !v.getLsbD 0 })
      ∧ (s.pw.diagReady = false → ∀ (r : RingNo) k i w n, k < 4 → i < 256 → n < 8192 →
        ∀ d ∈ windows r k i w ++ [.seedKeyedWrite v, .seedFreeWrite v, .scaleEntryWrite n k v, .broadcastWrite k (4 * i) v],
        exec d s = .next s)
      ∧ (s.pw.diagReady = true →
        (∀ k, k < 16 → ∃ s', bar0 (0x14_0040 + 4 * k) = .next s' ∧ NMap.get 0 s'.pw.bkp k = v
          ∧ ∀ j, j ≠ k → NMap.get 0 s'.pw.bkp j = NMap.get 0 s.pw.bkp j)
        ∧ (∃ s', bar0 0x010 = .next s' ∧ s'.host.event = s.host.event &&& ~~~v.setWidth 13)
        ∧ (∀ o, o % 4 = 0 → 0x40_0000 ≤ o → o < 0x100_0000 → bar0 o = .next s)
        ∧ bar0 (0x100_0000 + 0x1000 * t) = exec (.haltWrite t v) s
        ∧ (∀ (r : RingNo) k i w, k < 4 → i < 256 →
          (s.dropsExpert = true → ∀ d ∈ windows r k i w, exec d s = .next s.countDropped)
          ∧ (s.dropsExpert = false → s.inService t = false → ∀ d ∈ windows r k i w, exec d s = .next s.countTileErr))
        ∧ (∀ w o, w < 16 → o < 0x1000 →
          (o % 4 ≠ 0 → exec (.broadcastWrite w o v) s = .next (s.logAer .unsupported))
          ∧ (o % 4 = 0 → s.dropsExpert = true → exec (.broadcastWrite w o v) s = .next s.countDropped)
          ∧ (o % 4 = 0 → s.dropsExpert = false → s.bcastTiles (NMap.get 0xE000_0000 s.host.bcast w) = none →
            exec (.broadcastWrite w o v) s = .next s.countTileErr)
          ∧ ∀ ts, s.dropsExpert = false → s.bcastTiles (NMap.get 0xE000_0000 s.host.bcast w) = some ts →
            (o % 4 = 0 → exec (.broadcastWrite w o v) s = writeTiles o v.toNat ts s)
            ∧ (o = 0x038 → ∃ s', exec (.broadcastWrite w o v) s = .next s' ∧ ∀ u, s'.tile u =
              if u ∈ ts ∧ s.inService u = true then { s.tile u with core := { (s.tile u).core with codePage := v.setWidth 5 } }
              else s.tile u))
        ∧ (s.dropsExpert = false → s.inService t = true →
          (v.getLsbD 2 = false → v.getLsbD 3 = false → c.core.run ≠ .faulted → ∃ s', exec (.haltWrite t v) s = .next s'
            ∧ (s'.tile t).core.halt = v.getLsbD 0 ∧ (s'.tile t).core.codeWindow = v.getLsbD 1 ∧ (s'.tile t).mem = c.mem
            ∧ (s'.tile t).core.pc = c.core.pc ∧ (∀ r, (s'.tile t).sreg r = c.sreg r)
            ∧ (∀ r, RingKept (c.ring r) ((s'.tile t).ring r))
            ∧ (v.getLsbD 0 = true → (s'.tile t).core.run ≠ .running ∧ (s'.tile t).core.run ≠ .stalled)
            ∧ (v.getLsbD 0 = false → (s'.tile t).core.run ≠ .halted) ∧ others s')
          ∧ (c.core.halt = false → exec (.singleStep t) s = .next s)
          ∧ (c.core.halt = true → c.core.run = .halted ∨ c.core.run = .stalled →
            let w := NMap.get 0 c.mem.code c.core.pc
            (∃ s', exec (.singleStep t) s = .next s' ∧ (s'.tile t).core.run ≠ .running ∧ (s'.tile t).core.halt = true ∧ others s')
            ∧ (∀ i x, decodeInsn t w = some i → insnOf i = some x → exec (.singleStep t) s = noting t (issue true t x s))
            ∧ ∀ d a b, c.core.run = .halted → c.core.pc < c.core.codeLen → (flipsIn c.mem.eccCode c.core.pc 1).isEmpty = true →
              c.anyPending [d, a, b] [] = false → decodeInsn t w = some (.add t d a (.reg b)) →
              ∃ s', exec (.singleStep t) s = .next s' ∧ (∀ r, (s'.tile t).sreg r = (c.setS d (c.sreg a + c.sreg b)).sreg r)
                ∧ (s'.tile t).core.pc = c.core.pc + 1 ∧ (s'.tile t).core.run = .halted)
          ∧ (∃ s', exec (.clearFault t) s = .next s' ∧ (s'.tile t).core.fault = .empty ∧ (s'.tile t).core.run ≠ .faulted
            ∧ (s'.tile t).mem = c.mem ∧ (s'.tile t).core.pc = c.core.pc ∧ others s')
          ∧ (∀ k (w : Word64), k < 256 →
            (c.core.codeWindow = false ∨ c.core.halt = false → exec (.codeWindowWrite t k w) s = .next s)
            ∧ (c.core.codeWindow = true → c.core.halt = true →
              ∃ s', exec (.codeWindowWrite t k w) s = .next s' ∧ NMap.get 0 (s'.tile t).mem.code (256 * c.core.codePage.toNat + k) = w
              ∧ (∀ j, j ≠ 256 * c.core.codePage.toNat + k → NMap.get 0 (s'.tile t).mem.code j = NMap.get 0 c.mem.code j)
              ∧ s'.expertCode = true ∧ (s'.tile t).mem.data = c.mem.data ∧ others s'))
          ∧ (∀ (r : RingNo) k, k < 4 →
            (c.core.halt = false ∨ (c.ring r).claimed ≠ 0 ∨ (c.ring r).reserved ≠ 0 →
              ∃ s', exec (.ringDescWrite t r.toNat k v) s = .next s' ∧ same s')
            ∧ (c.core.halt = true → (c.ring r).claimed = 0 → (c.ring r).reserved = 0 →
              ∃ s', exec (.ringDescWrite t r.toNat k v) s = .next s' ∧ let x := c.ring r; let y := (s'.tile t).ring r
                y.base = (if k = 0 then v.extractLsb' 0 15 else x.base) ∧ y.size = (if k = 0 then v.extractLsb' 16 16 else x.size)
                ∧ y.head = (if k = 1 then v else x.head) ∧ y.tail = (if k = 2 then v else x.tail)
                ∧ y.countPrefixed = (if k = 3 then v.getLsbD 1 else x.countPrefixed)
                ∧ y.stallThreshold = (if k = 3 then v.extractLsb' 16 16 else x.stallThreshold)
                ∧ (let want := if k = 3 then v.getLsbD 0 else x.valid
                  y.valid = ({ y with valid := want }.wellFormed c.pageAttr && want))
                ∧ (∀ q, q ≠ r → (s'.tile t).ring q = c.ring q) ∧ others s'))
          ∧ (c.core.halt = false → ∃ s', exec (.eccInjectArm t v) s = .next s' ∧ same s')
          ∧ (c.core.halt = true →
            let code := v.getLsbD 30
            let word := (v.extractLsb' 3 18).toNat
            let flips : BitVec 2 := if v.extractLsb' 28 2 = 1 then 1 else if v.extractLsb' 28 2 = 2 then 3 else 0
            ∃ s', exec (.eccInjectArm t v) s = .next s' ∧ (s'.tile t).mem.data = c.mem.data ∧ (s'.tile t).mem.code = c.mem.code
              ∧ (s'.tile t).mem.inject.getLsbD 31 = false ∧ others s'
              ∧ (v.getLsbD 31 = true → flips ≠ 0 →
                (code = true → NMap.get 0 (s'.tile t).mem.eccCode (word % 8192) = NMap.get 0 c.mem.eccCode (word % 8192) ^^^ flips)
                ∧ (code = false → NMap.get 0 (s'.tile t).mem.eccData word = NMap.get 0 c.mem.eccData word ^^^ flips))
              ∧ (v.getLsbD 31 = false ∨ flips = 0 →
                (s'.tile t).mem.eccCode = c.mem.eccCode ∧ (s'.tile t).mem.eccData = c.mem.eccData)))
        ∧ ∀ n k, n < 8192 → k < 32 →
          (s.dropsExpert = true → ∀ d ∈ [Instr.scaleEntryWrite n k v, .seedKeyedWrite v, .seedFreeWrite v],
            exec d s = .next s.countDropped)
          ∧ (s.dropsExpert = false → s.step.isSome = true →
            ∀ d ∈ [Instr.scaleEntryWrite n k v, .seedKeyedWrite v, .seedFreeWrite v], exec d s = .next s)
          ∧ (s.dropsExpert = false → s.step = none →
            (∃ s', exec (.scaleEntryWrite n k v) s = .next s' ∧ s'.scaleEntry n = (if k = 2 then s.scaleEntry n else
              (s.scaleEntry n).store (patch (s.scaleEntry n).bytes (4 * k) (leBytes 4 v.toNat)))
              ∧ ∀ j, j ≠ n → s'.scaleEntry j = s.scaleEntry j)
            ∧ (∃ s', exec (.seedKeyedWrite v) s = .next s' ∧ s'.random.keyedSeed = v ++ s.random.keyedSeed.setWidth 32
              ∧ s'.random.keyBusy = true ∧ s'.random.keyValid = false ∧ s'.random.freeSeed = s.random.freeSeed)
            ∧ ∃ s', exec (.seedFreeWrite v) s = .next s' ∧ s'.random.freeSeed = v ++ s.random.freeSeed.setWidth 32
              ∧ s'.random.freeArmed = false ∧ s'.random.keyedSeed = s.random.keyedSeed
              ∧ ∀ u i, s.image = some i → s.freeMode = true → u < i.tiles → (s'.tile u).rn.arming = true))

/-! ### Main memory -/

/-- R374, R385, R445, R447, R450 to R457, R459, R461, R464: the aperture reads and writes the bytes at its base, refuses and logs what it
does not reach, and aborts the read, or drops the write, whose line stays uncorrectable; a line read is tried twice, counted and
recorded as its checks say and waits for its consumer, and a write merges into what the read of its line gives; refresh and
retraining change no contents; the scrub checks the line it reaches. The model's choices here: logs 9, 86, 88, 89, 90 and 91. -/
def Obligations.MemoryAccessesReachTheirBytes : Prop :=
  ∀ (s : State) (o n a : Nat) (bs : List Byte) (consumer : BitVec 4) (c : LineCheck),
    let b := s.host.bar2Base.toNat + o
    let reach (n : Nat) : Prop := s.pw.diagReady = true ∧ s.host.d3hot = false ∧ o + n ≤ 2 ^ s.host.bar2Log2
    let clear (a n : Nat) : Prop := s.inMain a n = true ∧ ∀ p ∈ linePieces a n, s.memIsolated p.1 = false
    let noted (s' : State) : Prop := s'.mm.ueCount = BitVec.ofNat 32 (satInc 32 s.mm.ueCount.toNat 1) ∧ s'.host.event.getLsbD 11 = true
    let bad (l : Nat) : Prop := s.mm.cur.unchecked = false ∧ s.mm.served = [] ∧ NMap.get 0 s.mm.checks l ≠ 0
    let l := a / 64
    let w := bs.take (64 - a % 64)
    let u := s.upsetLine l c.upset
    let got (d : List Byte) : Prop :=
      u.lineReads l c.first = some d ∨ u.lineReads l c.first = none ∧ u.lineReads l c.second = some d
    let lost : Prop := u.lineReads l c.first = none ∧ u.lineReads l c.second = none
    let counted (s' : State) : Prop :=
      s'.mm.linkCe = (if c.linkCorrected then BitVec.ofNat 32 (satInc 32 s.mm.linkCe.toNat 1) else s.mm.linkCe)
        ∧ (u.lineReads l c.first ≠ none ∨ u.lineReads l c.second = none → s'.mm.retryOk = s.mm.retryOk)
        ∧ (u.lineReads l c.first = none → u.lineReads l c.second ≠ none →
          s'.mm.retryOk = BitVec.ofNat 32 (satInc 32 s.mm.retryOk.toNat 1))
        ∧ (¬ lost → s'.mm.ueCount = s.mm.ueCount) ∧ (lost → noted s')
    let logged (s' : State) (k : BitVec 4) : Prop := s.mm.ueLog.valid = false →
      s'.mm.ueLog = ⟨true, k, (s.channel (64 * l)).1⟩ ∧ s'.mm.ueAddr = 64 * l
    (reach n → clear b n →
        (s.disturbed 3 b n = false →
          exec (.bar2Read o n) s = .next ((s.fetchChecks b n false).setReply (.data (NMap.getRun 0 s.mm.bytes b n))))
        ∧ ((∃ p ∈ linePieces b n, bad (p.1 / 64)) → ∃ s', exec (.bar2Read o n) s = .next s' ∧ s'.host.reply = .abort ∧ noted s'
          ∧ AerError.completerAbort ∈ s'.host.pcie.aer ∧ s'.mm.bytes = s.mm.bytes))
      ∧ (¬ reach n ∨ ¬ clear b n → exec (.bar2Read o n) s = .next ((s.logAer .unsupported).setReply .unsupported))
      ∧ (reach bs.length → clear b bs.length →
        (s.disturbed 6 b bs.length = false →
          ∃ s', exec (.bar2Write o bs) s = .next s' ∧ NMap.getRun 0 s'.mm.bytes b bs.length = bs
          ∧ (∀ k, k < b ∨ b + bs.length ≤ k → NMap.get 0 s'.mm.bytes k = NMap.get 0 s.mm.bytes k)
          ∧ (∀ p ∈ linePieces b bs.length, NMap.get 0 s'.mm.checks (p.1 / 64) = 0) ∧ s'.tiles = s.tiles)
        ∧ (bad (b / 64) → 0 < bs.length → b % 64 + bs.length ≤ 64 → bs.length < 64 →
          ∃ s', exec (.bar2Write o bs) s = .next s' ∧ s'.mm.bytes = s.mm.bytes ∧ s'.host.aerDrops = s.host.aerDrops + 1 ∧ noted s'))
      ∧ (¬ reach bs.length ∨ ¬ clear b bs.length → exec (.bar2Write o bs) s = .next s.aerDrop)
      ∧ (s.inMain a 1 = false ∨ s.memIsolated a = true → ∀ x, exec (.mainMemoryAccess a x consumer c) s = .next s)
      ∧ (s.inMain a 1 = true → s.memIsolated a = false →
        (∃ s', exec (.mainMemoryAccess a none consumer c) s = .next s' ∧ s'.mm.bytes = u.mm.bytes ∧ s'.tiles = s.tiles ∧ counted s'
          ∧ (∀ d, got d → consumer < 7 → NMap.get none s'.mm.served (16 * l + consumer.toNat) = some d)
          ∧ (lost → logged s' consumer ∧ (consumer < 7 → NMap.get (some []) s'.mm.served (16 * l + consumer.toNat) = none))
          ∧ (s.mm.cur.unchecked = false → s.checkKey (2048 * (a / 2048)) ∈ s'.mm.cache))
        ∧ ∃ s', exec (.mainMemoryAccess a (some bs) consumer c) s = .next s' ∧ s'.tiles = s.tiles
          ∧ (w.length = 64 → NMap.getRun 0 s'.mm.bytes a 64 = w ∧ s'.mm.ueCount = s.mm.ueCount)
          ∧ (w.length < 64 → counted s' ∧ (∀ d, got d → NMap.getRun 0 s'.mm.bytes (64 * l) 64 = patch d (a % 64) w)
            ∧ (lost → s'.mm.bytes = u.mm.bytes ∧ logged s' 6))
          ∧ (w.length = 64 ∨ ¬ lost → NMap.get 0 s'.mm.checks l = 0
            ∧ ∀ k, k / 64 ≠ l → NMap.get 0 s'.mm.bytes k = NMap.get 0 s.mm.bytes k))
      ∧ (∀ ch bank rate, ch < 128 →
        (s.channelUp ch = false → exec (.dramRefresh ⟨ch, bank, rate⟩) s = .next s ∧ exec (.channelRetrain ch) s = .next s)
        ∧ (s.channelUp ch = true →
          (∃ s', exec (.dramRefresh ⟨ch, bank, rate⟩) s = .next s' ∧ s'.mm.bytes = s.mm.bytes ∧ (s'.memGroup (ch / 4)).refreshRate = rate
            ∧ NMap.get 0 s'.mm.refreshes (64 * ch + bank % 64) = NMap.get 0 s.mm.refreshes (64 * ch + bank % 64) + 1)
          ∧ ∃ s', exec (.channelRetrain ch) s = .next s' ∧ NMap.get 0 s'.mm.retrained ch = s.now ∧ s'.mm.bytes = s.mm.bytes))
      ∧ (s.mm.cur.unchecked = true ∨ s.inMain a 1 = false ∨ s.memIsolated a = true → exec (.patrolScrub a c) s = .next s)
      ∧ (s.mm.cur.unchecked = false → s.inMain a 1 = true → s.memIsolated a = false →
        ∃ s', exec (.patrolScrub a c) s = .next s' ∧ s'.mm.bytes = u.mm.bytes ∧ NMap.get 0 s'.mm.scrubPos (s.channel a).1 = l
          ∧ counted s' ∧ (lost → logged s' 7) ∧ s'.mm.served = s.mm.served)

/-! ### The root of trust and the sideband -/

/-- R539, R541, R545 to R550: an update completes with the status of the first check that fails, or erases the bank and begins its
write, which ends with the image in the bank and OK, or BAD_PACKET, and holds back a second one; reports are signed in order with
the body of their moment and delivered whole; a challenge is fresh, serves one response and lasts 60 s, a response that answers it
unlocks what it names, and three rejections end it. The model's choices here: logs 8, 113, 115 and 116. -/
def Obligations.RootOfTrustUpdatesAttestsUnlocks : Prop :=
  ∀ (s : State) (n : Nat) (h : Held) (r : HostReply),
    let len := h.field 0x10 8
    let b := s.getHost (h.field 8 8) len
    let south := s.sec.target (h.field 0x18 1)
    let otherOk := bankValid s.sec.counter (s.sec.bank !south)
    let badLen : Prop := len < fwLength 64 ∨ fwLength (7 * 2 ^ 20) < len ∨ (len - fwLength 0) % 64 ≠ 0
    let ends (st : CmdStatus) : Prop := ∃ s', exec (.updateFirmware n r) s = .next s' ∧ Completed s' n h st ∧ s'.sec = s.sec
    let heads : Prop := ∀ q rest, s.sec.signing = q :: rest → q.body.isSome = true
    let ask (q : SignRequest) : List SignRequest :=
      if s.sec.signing = [] then [{ q with body := some (s.reportBody q.nonce) }] else s.sec.signing ++ [q]
    (s.sec.write.isSome = true → exec (.updateFirmware n r) s = .next s)
      ∧ (s.sec.write = none → s.starts 0x14 n h →
        (badLen → ends .badPacket)
        ∧ (∀ e, ¬ badLen → s.hostAnswer r = .fail e → (otherOk = false → ends .notReady) ∧ (otherOk = true → ends .hostError))
        ∧ (¬ badLen → s.hostAnswer r = .ok →
          (len ≠ fwLength (fwBody b) ∨ firstFault (fwFaults s.sec.counter b) ≠ none → ends .badPacket)
          ∧ (len = fwLength (fwBody b) → firstFault (fwFaults s.sec.counter b) = none →
            (otherOk = false → ends .notReady)
            ∧ (otherOk = true → ∃ s', exec (.updateFirmware n r) s = .next s' ∧ s'.sec.write = some ⟨n, south, b⟩
              ∧ s'.sec.bank south = [] ∧ s'.sec.bank (!south) = s.sec.bank (!south) ∧ s'.sec.counter = s.sec.counter
              ∧ s'.held? n = some { h with phase := .running }))))
      ∧ (∀ w, s.sec.write = some w → w.n = n → s.held? n = some h →
        (bankValid s.sec.counter w.image = true → ∃ s', exec (.firmwareWriteComplete n) s = .next s' ∧ Completed s' n h .ok
          ∧ s'.sec.bank w.bankB = w.image ∧ s'.sec.bank (!w.bankB) = s.sec.bank (!w.bankB) ∧ s'.sec.write = none
          ∧ s.sec.counter ≤ s'.sec.counter)
        ∧ (bankValid s.sec.counter w.image = false → ∃ s', exec (.firmwareWriteComplete n) s = .next s'
          ∧ Completed s' n h .badPacket ∧ s'.sec.bank w.bankB = w.image ∧ s'.sec.write = none ∧ s'.sec.counter = s.sec.counter))
      ∧ (s.starts 0x13 n h →
        (h.field 0x30 4 < 80240 → ∃ s', exec (.attest n) s = .next s' ∧ Completed s' n h .badPacket ∧ s'.sec = s.sec)
        ∧ (80240 ≤ h.field 0x30 4 → heads → ∃ s', exec (.attest n) s = .next s'
          ∧ s'.held? n = some { h with phase := .running }
          ∧ s'.sec.signing = ask ⟨some n, (h.packet.drop 8).take 32, h.field 0x28 8, none⟩))
      ∧ (s.sec.signing = [] → exec (.attestSignDone r) s = .next s)
      ∧ (∀ q rest body, s.sec.signing = q :: rest → q.body = some body → body.length = 512 →
        (∃ s', exec (.attestSignDone r) s = .next s' ∧ s'.sec.signing.length = rest.length
          ∧ ∀ x y, s'.sec.signing = x :: y → x.body.isSome = true)
        ∧ (q.n = none → ∃ s', exec (.attestSignDone r) s = .next s' ∧ s'.host.reply = .data (fullReport body))
        ∧ (q.n = some n → s.held? n = some h →
          (s.hostAnswer r = .ok → ∃ s', exec (.attestSignDone r) s = .next s' ∧ Completed s' n h .ok
            ∧ s'.getHost q.buffer 80240 = fullReport body)
          ∧ ∀ e, s.hostAnswer r = .fail e → ∃ s', exec (.attestSignDone r) s = .next s' ∧ Completed s' n h .hostError
            ∧ s'.host.mem = s.host.mem))
      ∧ (∀ (vendor : BitVec 16) (kind : Byte) p,
        (s.pw.diagReady = false → exec (.doeRequest ⟨vendor, kind, p⟩) s = .next s)
        ∧ (s.pw.diagReady = true →
          (vendor = 1 → kind = 0 → exec (.doeRequest ⟨vendor, kind, p⟩) s = .next (s.setReply (.data (doeDiscovery (leAt p 0 1)))))
          ∧ (vendor = Config.vendorId → kind = 1 →
            (p.length ≠ 32 → exec (.doeRequest ⟨vendor, kind, p⟩) s = .next (s.setReply (.data [])))
            ∧ (p.length = 32 → heads → exec (.doeRequest ⟨vendor, kind, p⟩) s = .next { s with
              sec := { s.sec with signing := ask ⟨none, p, 0, none⟩ } }))
          ∧ (¬ (vendor = 1 ∧ kind = 0) → ¬ (vendor = Config.vendorId ∧ kind = 1) → exec (.doeRequest ⟨vendor, kind, p⟩) s = .next s)))
      ∧ (s.rootReady = false → ∀ e p, exec (.unlockChallengeRead e) s = .next s ∧ exec (.unlockResponse p) s = .next s)
      ∧ (s.rootReady = true → ∀ e : BitVec 256,
        (s.sec.rejected < 3 → exec (.unlockChallengeRead e) s = .next ({ s with
            sec := { s.sec with challenge := some ⟨e, s.now⟩ } }.setReply (.data (leBytes 8 Config.identity.toNat ++ leBytes 32 e.toNat))))
        ∧ (3 ≤ s.sec.rejected → exec (.unlockChallengeRead e) s = .next ({ s with
            sec := { s.sec with challenge := none } }.setReply (.data (List.replicate 40 0))))
        ∧ ∀ p, (s.unlockOk p = true → ∃ s', exec (.unlockResponse p) s = .next s' ∧ s'.sec.unlocked = true
            ∧ s'.sec.debugScope = s.sec.debugScope ||| BitVec.ofNat 3 (leAt p 0 4) ∧ s'.sec.challenge = none
            ∧ s'.slot 6 = shake32 (s.slot 6 ++ p.take 48) ∧ s'.sec.rejected = s.sec.rejected)
          ∧ (s.unlockOk p = false → exec (.unlockResponse p) s = .next { s with
            sec := { s.sec with challenge := none, rejected := s.sec.rejected + 1 } })
          ∧ (s.sec.challenge = none → s.unlockOk p = false)
          ∧ ∀ c, s.sec.challenge = some c → c.time + 60 * 10 ^ 9 < s.now ∨ leAt p 16 32 ≠ c.bytes.toNat → s.unlockOk p = false)
      ∧ (s.sec.challenge = none → exec .unlockTimeout s = .next s)
      ∧ ∀ c, s.sec.challenge = some c →
        (s.now < c.time + 60 * 10 ^ 9 → exec .unlockTimeout s = .next s)
        ∧ (c.time + 60 * 10 ^ 9 ≤ s.now → exec .unlockTimeout s = .next { s with sec := { s.sec with challenge := none } })

/-- R532, R540, R564 to R567: while it is served the sideband writes the feed group and the EID and answers with the readings of the last
refresh; a refresh takes the readings and the junctions, and asserts ALERT_N where one crosses its threshold; vendor messages carry
the recovery image, and in diagnostic service commands and their replies; an event poll or an alert response releases ALERT_N.
The model's choices here: logs 117, 118 and 119. -/
def Obligations.SidebandServesTheBoard : Prop :=
  ∀ (s : State) (k : Nat) (rs : List Nat) (m : List Byte), k < 13 →
    (s.sidebandUp = false → (∀ v, exec (.feedGroupWrite v) s = .next s) ∧ (∀ e, exec (.mctpControl e) s = .next s)
        ∧ exec (.pldmSensorRead k) s = .next s)
      ∧ (s.sidebandUp = true →
        (∀ v, exec (.feedGroupWrite v) s = .next { s with link := { s.link with feedGroup := v } })
        ∧ (∀ e, exec (.mctpControl (some e)) s = .next ({ s with mod := { s.mod with eid := e } }.setReply (.data [e])))
        ∧ exec (.mctpControl none) s = .next (s.setReply (.data [s.mod.eid]))
        ∧ exec (.pldmSensorRead k) s = .next (s.setReply (.data (leBytes 4 (NMap.get 0 s.mod.sensors k)))))
      ∧ (let now := (s.readJunctions rs).sensorNow rs k
        ∃ s', exec (.sensorRefresh rs) s = .next s' ∧ NMap.get 0 s'.mod.sensors k = now
        ∧ (∀ b, b < 6 → (s'.bench b).junction = rs.getD (3 + b) (s.bench b).junction)
        ∧ (k = 1 → now = s.pw.inputW) ∧ (k = 11 → now = s.pw.cap) ∧ (k = 12 → now = s.pw.twiCount.toNat)
        ∧ (3 ≤ k → k ≤ 8 → now = (s'.bench (k - 3)).junction) ∧ (k = 0 ∨ k = 2 ∨ k = 9 ∨ k = 10 → now = rs.getD k 0)
        ∧ (∀ x, Config.sensorThreshold k = some x → (NMap.get 0 s.mod.sensors k ≤ x ↔ x < now) → s'.mod.alert = true)
        ∧ ((∀ j, Config.sensorThreshold j = none) → s'.mod.alert = s.mod.alert))
      ∧ (s.mod.alert = false → exec .alertResponseRead s = .next s)
      ∧ (s.mod.alert = true → ∃ s', exec .alertResponseRead s = .next s' ∧ s'.mod.alert = false ∧ s'.mod.conditions = []
        ∧ s'.host.reply = .data [0x62])
      ∧ (s.mod.conditions = [] → exec .pldmEventPoll s = .next s)
      ∧ (∀ c cs, s.mod.conditions = c :: cs → ∃ s', exec .pldmEventPoll s = .next s' ∧ s'.mod.conditions = cs
        ∧ (cs = [] → s'.mod.alert = false) ∧ (cs ≠ [] → s'.mod.alert = s.mod.alert) ∧ s'.host.reply = .data [BitVec.ofNat 8 c])
      ∧ (s.pw.standing = .recovery → s.sec.recSideband = true →
        exec (.sidebandVendorPacket m) s = .next (if m = [] then s.finishRecovery else s.takePiece m))
      ∧ (¬ (s.pw.standing = .recovery ∧ s.sec.recSideband = true) →
        (s.pw.service ≠ 1 ∨ m.length ≠ 0 ∧ m.length ≠ 64 → exec (.sidebandVendorPacket m) s = .next s)
        ∧ (s.pw.service = 1 → m = [] →
          ((∀ d ∈ s.host.done, d.queue ≠ 64) → exec (.sidebandVendorPacket m) s = .next (s.setReply (.data [])))
          ∧ ∀ d, s.host.done.find? (fun d => d.queue == 64) = some d → ∃ s', exec (.sidebandVendorPacket m) s = .next s'
            ∧ s'.host.done = dropDone 64 s.host.done ∧ s'.host.reply = .data (d.reply 0 false))
        ∧ (s.pw.service = 1 → m.length = 64 → (∀ h ∈ s.host.held, h.n < s.host.nextStart) →
          (leAt m 0 1 ∈ [0x0D, 0x0E, 0x13, 0x14] →
            (s.refuse 0 m = none → ∃ s' h, exec (.sidebandVendorPacket m) s = .next s' ∧ s'.host.held = s.host.held ++ [h]
              ∧ h.packet = m ∧ h.phase = .waiting ∧ h.queue = 64 ∧ s'.host.done = s.host.done)
            ∧ ∀ st o, s.refuse 0 m = some (st, o) → ∃ s' d, exec (.sidebandVendorPacket m) s = .next s'
              ∧ s'.host.held = s.host.held ∧ s'.host.done = s.host.done ++ [d] ∧ d.status = st.code ∧ d.queue = 64)
          ∧ (¬ leAt m 0 1 ∈ [0x0D, 0x0E, 0x13, 0x14] → ∃ s' d, exec (.sidebandVendorPacket m) s = .next s'
            ∧ s'.host.held = s.host.held ∧ s'.host.done = s.host.done ++ [d] ∧ d.status = 1 ∧ d.queue = 64)))

/-! ### The whole block -/

/-- R498, R501, R527, R375, R379, R388: after a power-on reset dawn stands at D0, service 0 and nothing ready, every queue is
disabled, no image is loaded, tile and main memory are clear, and the memories are in canonical form.
The model's choices here: log 5. -/
def Obligations.ResetLeavesTheStatedValues : Prop :=
  let s := State.reset
  s.pw.standing = .dawn ∧ s.pw.stage = 0 ∧ s.pw.service = 0 ∧ s.pw.ready = false ∧ s.pw.diagReady = false ∧ s.pw.kind = .powerOn
    ∧ (∀ q, (s.queue q).state = .disabled) ∧ s.host.event = 0 ∧ s.host.bar2Log2 = 36 ∧ s.image = none ∧ s.step = none
    ∧ (∀ t a, s.dataByte t a = 0) ∧ (∀ t r, (s.tile t).sreg r = 0) ∧ s.mm.bytes = [] ∧ s.random.keyedSeed = 0
    ∧ (∀ i, (s.partner i).state = 0) ∧ s.pw.cap = 3000 ∧ s.sec.counter ≤ 64 ∧ s.memOk = true ∧ s.pending = []

/-- Decoding what encoding wrote gives back the instruction, with every operand at every value, for every tile instruction. -/
def Obligations.DecodeReadsWhatEncodeWrites : Prop :=
  ∀ (i : Instr) (w : Word64), encodeInsn i = some w → ∃ t, i.units = [(t, 1536)] ∧ decodeInsn t w = some i

/-- R45, R47: a tile instruction changes nothing outside its tile but the running step's record of faulted tiles, and keeps every
memory in its canonical form. -/
def Obligations.TileInstructionsKeepToTheirTile : Prop :=
  ∀ (i : Instr) (s s' : State) (t : Nat), (encodeInsn i).isSome = true ∨ (∃ w, i = .illegalInsn t w) → i.units = [(t, 1536)] →
    exec i s = .next s' →
    s' = { s with tiles := s'.tiles, step := s'.step } ∧ (∀ u, u ≠ t → s'.tile u = s.tile u) ∧ (s.memOk = true → s'.memOk = true)

/-- R538: after D6 and after an update that completes with OK, the counter is the lower security version of the two banks where
both are valid and that is higher; whatever step the block takes it never falls, and it stays in the 64 fuses. -/
def Obligations.RollbackCounterFollowsTheBanks : Prop :=
  let checked (x : Security) : Nat :=
    if bankValid x.counter x.bankA && bankValid x.counter x.bankB then
      max x.counter (min (leAt x.bankA 0x0C 4) (leAt x.bankB 0x0C 4))
    else x.counter
  ∀ (s : State),
    (∀ i, s.pw.standing = .dawn → s.pw.stage = 6 → ∃ s', exec (.dawnStageComplete i) s = .next s' ∧ s'.sec.counter = checked s.sec)
      ∧ (∀ w h, s.sec.write = some w → s.held? w.n = some h → bankValid s.sec.counter w.image = true →
        ∃ s', exec (.firmwareWriteComplete w.n) s = .next s' ∧ Completed s' w.n h .ok
          ∧ s'.sec.counter = checked (s.sec.setBank w.bankB w.image))
      ∧ ∀ s', s.sec.counter ≤ 64 → step s = .next s' → s.sec.counter ≤ s'.sec.counter ∧ s'.sec.counter ≤ 64
end

