-- ==== Sys2Proof/Laws/Map.lean ====
section
/-! SUPPORT. Laws of the sparse maps: reads after writes, and the canonical form. -/
namespace Sys2Proof.NMap
variable {α : Type}

/-! ### Reads after writes -/

@[simp] theorem get_nil (d : α) (k : Nat) : get d [] k = d := rfl

@[simp] theorem get_put_same (d : α) (m : NMap α) (k : Nat) (v : α) : get d (put m k v) k = v := by
  induction m with
  | nil => simp [put, get]
  | cons p m ih =>
    obtain ⟨j, w⟩ := p
    simp only [put]
    split
    · simp [get]
    · split
      · simp [get]
      · simp [get, *]

@[simp] theorem get_put_other (d : α) (m : NMap α) {k j : Nat} (v : α) (h : j ≠ k) : get d (put m k v) j = get d m j := by
  induction m with
  | nil => simp [put, get, Ne.symm h]
  | cons p m ih =>
    obtain ⟨i, w⟩ := p
    simp only [put]
    split
    · simp [get, Ne.symm h]
    · split
      · subst_vars; simp [get, Ne.symm h]
      · simp [get, ih]

@[simp] theorem get_drop_same (d : α) (m : NMap α) (k : Nat) : get d (drop m k) k = d := by
  induction m with
  | nil => rfl
  | cons p m ih =>
    obtain ⟨j, w⟩ := p
    simp only [drop]
    split
    · exact ih
    · simp [get, *]

@[simp] theorem get_drop_other (d : α) (m : NMap α) {k j : Nat} (h : j ≠ k) : get d (drop m k) j = get d m j := by
  induction m with
  | nil => rfl
  | cons p m ih =>
    obtain ⟨i, w⟩ := p
    simp only [drop]
    split
    · subst_vars; simp [get, Ne.symm h, ih]
    · simp [get, ih]

@[simp] theorem get_set_same [DecidableEq α] (d : α) (m : NMap α) (k : Nat) (v : α) : get d (set d m k v) k = v := by
  unfold set
  split
  · simp [*]
  · simp

@[simp] theorem get_set_other [DecidableEq α] (d : α) (m : NMap α) {k j : Nat} (v : α) (h : j ≠ k) :
    get d (set d m k v) j = get d m j := by
  unfold set
  split <;> simp [h]

/-- A byte outside a written run reads as before. -/
theorem get_setRun_outside [DecidableEq α] (d : α) (m : NMap α) (k j : Nat) (vs : List α) (h : j < k ∨ k + vs.length ≤ j) :
    get d (setRun d m k vs) j = get d m j := by
  induction vs generalizing m k with
  | nil => rfl
  | cons v vs ih =>
    simp only [List.length_cons] at h
    rw [setRun, ih _ _ (by omega), get_set_other _ _ _ (by omega)]

/-- A byte of a written run reads as written. -/
theorem get_setRun_inside [DecidableEq α] (d : α) (m : NMap α) (k i : Nat) (vs : List α) (h : i < vs.length) :
    get d (setRun d m k vs) (k + i) = vs[i] := by
  induction vs generalizing m k i with
  | nil => simp at h
  | cons v vs ih =>
    cases i with
    | zero => rw [setRun, get_setRun_outside _ _ _ _ _ (by omega)]; simp
    | succ i =>
      have := ih (set d m k v) (k + 1) i (by simpa using h)
      rw [setRun, show k + (i + 1) = k + 1 + i by omega, this]; rfl

/-- A run read back is the run written. -/
theorem getRun_setRun [DecidableEq α] (d : α) (m : NMap α) (k : Nat) (vs : List α) :
    getRun d (setRun d m k vs) k vs.length = vs := by
  induction vs generalizing m k with
  | nil => rfl
  | cons v vs ih =>
    simp only [List.length_cons, getRun, setRun]
    rw [ih, get_setRun_outside _ _ _ _ _ (by omega)]; simp

@[simp] theorem length_getRun (d : α) (m : NMap α) (k n : Nat) : (getRun d m k n).length = n := by
  induction n generalizing k with
  | zero => rfl
  | succ n ih => simp [getRun, ih]

/-! ### The canonical form -/

theorem sortedFrom_le {m : NMap α} {lo lo' : Nat} (h : lo' ≤ lo) (hm : sortedFrom lo m = true) : sortedFrom lo' m = true := by
  cases m with
  | nil => rfl
  | cons p m => simp [sortedFrom] at hm ⊢; exact ⟨by omega, hm.2⟩

theorem sortedFrom_put {m : NMap α} {lo k : Nat} {v : α} (hk : lo ≤ k) (hm : sortedFrom lo m = true) :
    sortedFrom lo (put m k v) = true := by
  induction m generalizing lo with
  | nil => simp [put, sortedFrom, hk]
  | cons p m ih =>
    obtain ⟨j, w⟩ := p
    simp [sortedFrom] at hm
    simp only [put]
    split
    · simp [sortedFrom, hk, hm.2]; omega
    · split
      · simp [sortedFrom]; exact ⟨hk, by subst_vars; exact hm.2⟩
      · simp [sortedFrom]; exact ⟨hm.1, ih (by omega) hm.2⟩

theorem sortedFrom_drop {m : NMap α} {lo k : Nat} (hm : sortedFrom lo m = true) : sortedFrom lo (drop m k) = true := by
  induction m generalizing lo with
  | nil => rfl
  | cons p m ih =>
    obtain ⟨j, w⟩ := p
    simp [sortedFrom] at hm
    simp only [drop]
    split
    · exact ih (sortedFrom_le (by omega) hm.2)
    · simp [sortedFrom]; exact ⟨hm.1, ih hm.2⟩

theorem mem_drop {m : NMap α} {k : Nat} {p : Nat × α} (h : p ∈ drop m k) : p ∈ m := by
  induction m with
  | nil => exact h
  | cons q m ih =>
    obtain ⟨j, w⟩ := q
    simp only [drop] at h
    split at h
    · exact .tail _ (ih h)
    · cases h with
      | head => exact .head _
      | tail _ h => exact .tail _ (ih h)

theorem mem_put {m : NMap α} {k : Nat} {v : α} {p : Nat × α} (h : p ∈ put m k v) : p = (k, v) ∨ p ∈ m := by
  induction m with
  | nil => simp [put] at h; exact .inl h
  | cons q m ih =>
    obtain ⟨j, w⟩ := q
    simp only [put] at h
    split at h
    · cases h with
      | head => exact .inl rfl
      | tail _ h => exact .inr h
    · split at h
      · cases h with
        | head => exact .inl rfl
        | tail _ h => exact .inr (.tail _ h)
      · cases h with
        | head => exact .inr (.head _)
        | tail _ h => exact (ih h).imp id (.tail _)

/-- A write keeps the canonical form. -/
theorem wf_set [DecidableEq α] {d : α} {m : NMap α} {k : Nat} {v : α} (h : wf d m = true) : wf d (set d m k v) = true := by
  simp only [wf, Bool.and_eq_true, List.all_eq_true] at h ⊢
  unfold set
  split
  · exact ⟨sortedFrom_drop h.1, fun p hp => h.2 p (mem_drop hp)⟩
  · refine ⟨sortedFrom_put (by omega) h.1, fun p hp => ?_⟩
    rcases mem_put hp with rfl | hp
    · simpa
    · exact h.2 p hp

/-- A write of a run keeps the canonical form. -/
theorem wf_setRun [DecidableEq α] {d : α} {m : NMap α} {k : Nat} (vs : List α) (h : wf d m = true) :
    wf d (setRun d m k vs) = true := by
  induction vs generalizing m k with
  | nil => exact h
  | cons v vs ih => exact ih (wf_set h)

theorem sortedFrom_filter {m : NMap α} {lo : Nat} (f : Nat × α → Bool) (h : sortedFrom lo m = true) :
    sortedFrom lo (m.filter f) = true := by
  induction m generalizing lo with
  | nil => rfl
  | cons p m ih =>
    obtain ⟨j, w⟩ := p
    simp [sortedFrom] at h
    simp only [List.filter]
    split
    · simp [sortedFrom]; exact ⟨h.1, ih h.2⟩
    · exact ih (sortedFrom_le (by omega) h.2)

/-- Dropping entries keeps the canonical form. -/
theorem wf_filter [DecidableEq α] {d : α} {m : NMap α} (f : Nat × α → Bool) (h : wf d m = true) : wf d (m.filter f) = true := by
  simp only [wf, Bool.and_eq_true, List.all_eq_true] at h ⊢
  exact ⟨sortedFrom_filter f h.1, fun p hp => h.2 p (List.mem_filter.mp hp).1⟩

theorem wf_dropRange [DecidableEq α] {d : α} {m : NMap α} (lo n : Nat) (h : wf d m = true) : wf d (dropRange m lo n) = true :=
  wf_filter _ h

theorem wf_drop [DecidableEq α] {d : α} {m : NMap α} (k : Nat) (h : wf d m = true) : wf d (drop m k) = true := by
  simp only [wf, Bool.and_eq_true, List.all_eq_true] at h ⊢
  exact ⟨sortedFrom_drop h.1, fun p hp => h.2 p (mem_drop hp)⟩

@[simp] theorem wf_nil [DecidableEq α] (d : α) : wf d ([] : NMap α) = true := rfl

/-- Two maps in canonical form that read the same are the same map. -/
theorem get_of_lt {m : NMap α} {d : α} {lo k : Nat} (h : sortedFrom lo m = true) (hk : k < lo) : get d m k = d := by
  induction m generalizing lo with
  | nil => rfl
  | cons p m ih =>
    obtain ⟨j, w⟩ := p
    simp [sortedFrom] at h
    have : j ≠ k := by omega
    simp only [get, this, if_false]
    exact ih h.2 (by omega)

end Sys2Proof.NMap

namespace Sys2Proof.Memory

/-- Every write to a byte memory keeps its canonical form. -/
theorem wf_write {m : Mem} {a : Nat} {b : Byte} (h : wf m = true) : wf (NMap.set 0 m a b) = true := NMap.wf_set h

/-- Every write of a run of bytes keeps the canonical form. -/
theorem wf_writeRun {m : Mem} {a : Nat} (bs : List Byte) (h : wf m = true) : wf (NMap.setRun 0 m a bs) = true :=
  NMap.wf_setRun bs h

end Sys2Proof.Memory
end

