-- ==== Sys2Proof/Laws/Issue.lean ====
section
/-! SUPPORT. What one issue of a tile instruction can do (R45, R47, R59, R79): the one lemma for every body, and what each kind
of answer leaves. -/
namespace Sys2Proof.Machine

/-! ### Tiles -/

@[simp] theorem State.tile_setTile (s : State) (t : Nat) (x : Tile) : (s.setTile t x).tile t = x := by
  simp [State.tile, State.setTile]
@[simp] theorem State.tile_setTile_other (s : State) {t u : Nat} (x : Tile) (h : u ≠ t) : (s.setTile t x).tile u = s.tile u := by
  simp [State.tile, State.setTile, h]
@[simp] theorem State.setTile_tiles_self (s : State) (t : Nat) (x : Tile) :
    { s with tiles := (s.setTile t x).tiles } = s.setTile t x := rfl
@[simp] theorem State.tile_modTile (s : State) (t : Nat) (f : Tile → Tile) : (s.modTile t f).tile t = f (s.tile t) := by
  simp [State.modTile]
@[simp] theorem State.tile_modTile_other (s : State) {t u : Nat} (f : Tile → Tile) (h : u ≠ t) :
    (s.modTile t f).tile u = s.tile u := by
  simp [State.modTile, h]

theorem OnlyTile.setTile (s : State) (t : Nat) (x : Tile) : OnlyTile s (s.setTile t x) t :=
  ⟨rfl, fun _ h => by simp [h]⟩

/-! ### Rings -/

theorem RingKept.rfl' (x : Ring) : RingKept x x := ⟨rfl, rfl, rfl, rfl, rfl, rfl, rfl⟩
theorem RingKept.trans {x y z : Ring} (a : RingKept x y) (b : RingKept y z) : RingKept x z := by
  obtain ⟨a1, a2, a3, a4, a5, a6, a7⟩ := a
  obtain ⟨b1, b2, b3, b4, b5, b6, b7⟩ := b
  exact ⟨b1.trans a1, b2.trans a2, b3.trans a3, b4.trans a4, b5.trans a5, b6.trans a6, b7.trans a7⟩

theorem RingKept.dropWaiter (x : Ring) (w : Bool × BitVec 2) : RingKept x (x.dropWaiter w) := by
  unfold Ring.dropWaiter
  dsimp only
  split <;> exact RingKept.rfl' _

theorem RingKept.coreWaits (x : Ring) (w : Option (Bool × BitVec 2)) : RingKept x (x.coreWaits w) := by
  unfold Ring.coreWaits
  dsimp only
  split <;> split <;> (try split) <;> exact RingKept.rfl' _

@[simp] theorem Tile.ring_setRing (c : Tile) (r : RingNo) (x : Ring) : (c.setRing r x).ring r = x := by
  exact Vector.getElem_set_self (xs := c.rings) r.isLt
@[simp] theorem Tile.ring_setRing_other (c : Tile) {r q : RingNo} (x : Ring) (h : q ≠ r) : (c.setRing r x).ring q = c.ring q := by
  have : q.toNat ≠ r.toNat := fun e => h (BitVec.eq_of_toNat_eq e)
  exact Vector.getElem_set_ne (xs := c.rings) r.isLt q.isLt (Ne.symm this)

/-- Leaving a stall drops the S-core's waiters, and changes nothing else of the tile. -/
theorem Tile.leaveStall_spec (c old : Tile) :
    (∀ r, RingKept (c.ring r) ((c.leaveStall old).ring r)) ∧ c.leaveStall old = { c with rings := (c.leaveStall old).rings } := by
  unfold Tile.leaveStall
  split
  · refine ⟨fun r => ?_, rfl⟩
    have e : (c.waitsNowhere.ring r) = (c.ring r).coreWaits none := by
      exact Vector.getElem_map (xs := c.rings) (f := fun x => x.coreWaits none) r.isLt
    rw [e]
    exact RingKept.coreWaits _ _
  · exact ⟨fun _ => RingKept.rfl' _, rfl⟩

/-! ### Check bits of a clean word -/

theorem TileMem.checkWords_clean {m : TileMem} {code : Bool} {k : BitVec 3} {lo n : Nat}
    (h : (flipsIn (if code then m.eccCode else m.eccData) lo n).isEmpty = true) : m.checkWords code k lo n = (m, true) := by
  have e : flipsIn (if code then m.eccCode else m.eccData) lo n = [] := by simpa using h
  simp [TileMem.checkWords, e, TileMem.recordCe]

/-! ### Issue -/

/-- The tile as its S-core takes an instruction. -/
def State.taking (s : State) (t : Nat) : Tile := (s.tile t).resume

/-- A tile that takes an instruction issues its body. -/
theorem issue_takes {s : State} {t : Nat} {i : Insn} (h : s.takes t i.scalars i.vectors = true) :
    issue false t i s = .next (s.settle false t (s.tile t) i.word (i.body s t (s.taking t))) := by
  simp only [State.takes, Bool.and_eq_true, decide_eq_true_eq, Bool.not_eq_eq_eq_not, Bool.not_true] at h
  obtain ⟨⟨⟨⟨⟨h1, h2⟩, h3⟩, h4⟩, h5⟩, h6⟩ := h
  have hc := TileMem.checkWords_clean (m := (s.tile t).mem) (code := true) (k := 5) (n := 1) h5
  have hp : (s.tile t).resume.anyPending i.scalars i.vectors = false := h6
  have ht : ¬ tileCount ≤ t := by omega
  have hl : ¬ (s.tile t).core.codeLen ≤ (s.tile t).core.pc := by omega
  unfold issue
  simp only [ht, if_false, h2, h3, hl, hc]
  simp [State.taking, hp]

/-- An instruction that completes leaves the tile as its effect says. -/
theorem issued_done {s : State} {t : Nat} {old c : Tile} {word : Word64} (hr : c.core.run = .running)
    (hk : c.core.stallKind = .none) (hg : c.core.stallRing = 0) :
    Issued s (s.settle false t old word (.done c)) t c (old.core.pc + 1) := by
  obtain ⟨h1, h2⟩ := Tile.leaveStall_spec c old
  have e : s.settle false t old word (.done c) = s.setTile t (c.issued old (old.core.pc + 1)) := by
    simp [State.settle, Tile.afterStep]
  have hi : c.issued old (old.core.pc + 1) = { c with
      core := { c.core with pc := old.core.pc + 1, held := none }, rings := (c.leaveStall old).rings } := by
    unfold Tile.issued
    rw [h2]
  rw [e, hi]
  refine ⟨OnlyTile.setTile .., fun r => ?_, ?_⟩
  · rw [State.tile_setTile]; exact h1 r
  · rw [State.tile_setTile, ← hr, ← hk, ← hg]

/-- A jump inside the class goes on at its target. -/
theorem issued_jump {s : State} {t : Nat} {old c : Tile} {word : Word64} {g : Nat} (hg : g < old.core.codeLen)
    (hr : c.core.run = .running) (hk : c.core.stallKind = .none) (hz : c.core.stallRing = 0) :
    Issued s (s.settle false t old word (.jump c g)) t c g := by
  obtain ⟨h1, h2⟩ := Tile.leaveStall_spec c old
  have e : s.settle false t old word (.jump c g) = s.setTile t (c.issued old g) := by
    simp [State.settle, Tile.afterStep, hg]
  have hi : c.issued old g = { c with
      core := { c.core with pc := g, held := none }, rings := (c.leaveStall old).rings } := by
    unfold Tile.issued
    rw [h2]
  rw [e, hi]
  refine ⟨OnlyTile.setTile .., fun r => ?_, ?_⟩
  · rw [State.tile_setTile]; exact h1 r
  · rw [State.tile_setTile, ← hr, ← hk, ← hz]

end Sys2Proof.Machine
end

