-- ==== Sys2Proof/Laws/State.lean ====
section
/-! SUPPORT. What each update of the state and of a tile leaves as it was, one lemma per field, and what reads what was written. -/
namespace Sys2Proof.Machine

/-! ### State.setTile -/
@[simp] theorem State.setTile_pending (s : State) (t : Nat) (x : Tile) : (s.setTile t x).pending = s.pending := rfl
@[simp] theorem State.setTile_freeCtr (s : State) (t : Nat) (x : Tile) : (s.setTile t x).freeCtr = s.freeCtr := rfl
@[simp] theorem State.setTile_clock (s : State) (t : Nat) (x : Tile) : (s.setTile t x).clock = s.clock := rfl
@[simp] theorem State.setTile_bell (s : State) (t : Nat) (x : Tile) : (s.setTile t x).bell = s.bell := rfl
@[simp] theorem State.setTile_step (s : State) (t : Nat) (x : Tile) : (s.setTile t x).step = s.step := rfl
@[simp] theorem State.setTile_image (s : State) (t : Nat) (x : Tile) : (s.setTile t x).image = s.image := rfl
@[simp] theorem State.setTile_runnable (s : State) (t : Nat) (x : Tile) : (s.setTile t x).runnable = s.runnable := rfl
@[simp] theorem State.setTile_unshadowed (s : State) (t : Nat) (x : Tile) : (s.setTile t x).unshadowed = s.unshadowed := rfl
@[simp] theorem State.setTile_expertCode (s : State) (t : Nat) (x : Tile) : (s.setTile t x).expertCode = s.expertCode := rfl
@[simp] theorem State.setTile_lastDone (s : State) (t : Nat) (x : Tile) : (s.setTile t x).lastDone = s.lastDone := rfl
@[simp] theorem State.setTile_scale (s : State) (t : Nat) (x : Tile) : (s.setTile t x).scale = s.scale := rfl
@[simp] theorem State.setTile_random (s : State) (t : Nat) (x : Tile) : (s.setTile t x).random = s.random := rfl
@[simp] theorem State.setTile_train (s : State) (t : Nat) (x : Tile) : (s.setTile t x).train = s.train := rfl
@[simp] theorem State.setTile_seqWindow (s : State) (t : Nat) (x : Tile) : (s.setTile t x).seqWindow = s.seqWindow := rfl
@[simp] theorem State.setTile_mm (s : State) (t : Nat) (x : Tile) : (s.setTile t x).mm = s.mm := rfl
@[simp] theorem State.setTile_host (s : State) (t : Nat) (x : Tile) : (s.setTile t x).host = s.host := rfl
@[simp] theorem State.setTile_link (s : State) (t : Nat) (x : Tile) : (s.setTile t x).link = s.link := rfl
@[simp] theorem State.setTile_res (s : State) (t : Nat) (x : Tile) : (s.setTile t x).res = s.res := rfl
@[simp] theorem State.setTile_pw (s : State) (t : Nat) (x : Tile) : (s.setTile t x).pw = s.pw := rfl
@[simp] theorem State.setTile_sec (s : State) (t : Nat) (x : Tile) : (s.setTile t x).sec = s.sec := rfl
@[simp] theorem State.setTile_mod (s : State) (t : Nat) (x : Tile) : (s.setTile t x).mod = s.mod := rfl

/-! ### State.modTile -/
@[simp] theorem State.modTile_pending (s : State) (t : Nat) (f : Tile → Tile) : (s.modTile t f).pending = s.pending := rfl
@[simp] theorem State.modTile_freeCtr (s : State) (t : Nat) (f : Tile → Tile) : (s.modTile t f).freeCtr = s.freeCtr := rfl
@[simp] theorem State.modTile_clock (s : State) (t : Nat) (f : Tile → Tile) : (s.modTile t f).clock = s.clock := rfl
@[simp] theorem State.modTile_bell (s : State) (t : Nat) (f : Tile → Tile) : (s.modTile t f).bell = s.bell := rfl
@[simp] theorem State.modTile_step (s : State) (t : Nat) (f : Tile → Tile) : (s.modTile t f).step = s.step := rfl
@[simp] theorem State.modTile_image (s : State) (t : Nat) (f : Tile → Tile) : (s.modTile t f).image = s.image := rfl
@[simp] theorem State.modTile_runnable (s : State) (t : Nat) (f : Tile → Tile) : (s.modTile t f).runnable = s.runnable := rfl
@[simp] theorem State.modTile_unshadowed (s : State) (t : Nat) (f : Tile → Tile) : (s.modTile t f).unshadowed = s.unshadowed :=
  rfl
@[simp] theorem State.modTile_expertCode (s : State) (t : Nat) (f : Tile → Tile) : (s.modTile t f).expertCode = s.expertCode :=
  rfl
@[simp] theorem State.modTile_lastDone (s : State) (t : Nat) (f : Tile → Tile) : (s.modTile t f).lastDone = s.lastDone := rfl
@[simp] theorem State.modTile_scale (s : State) (t : Nat) (f : Tile → Tile) : (s.modTile t f).scale = s.scale := rfl
@[simp] theorem State.modTile_random (s : State) (t : Nat) (f : Tile → Tile) : (s.modTile t f).random = s.random := rfl
@[simp] theorem State.modTile_train (s : State) (t : Nat) (f : Tile → Tile) : (s.modTile t f).train = s.train := rfl
@[simp] theorem State.modTile_seqWindow (s : State) (t : Nat) (f : Tile → Tile) : (s.modTile t f).seqWindow = s.seqWindow := rfl
@[simp] theorem State.modTile_mm (s : State) (t : Nat) (f : Tile → Tile) : (s.modTile t f).mm = s.mm := rfl
@[simp] theorem State.modTile_host (s : State) (t : Nat) (f : Tile → Tile) : (s.modTile t f).host = s.host := rfl
@[simp] theorem State.modTile_link (s : State) (t : Nat) (f : Tile → Tile) : (s.modTile t f).link = s.link := rfl
@[simp] theorem State.modTile_res (s : State) (t : Nat) (f : Tile → Tile) : (s.modTile t f).res = s.res := rfl
@[simp] theorem State.modTile_pw (s : State) (t : Nat) (f : Tile → Tile) : (s.modTile t f).pw = s.pw := rfl
@[simp] theorem State.modTile_sec (s : State) (t : Nat) (f : Tile → Tile) : (s.modTile t f).sec = s.sec := rfl
@[simp] theorem State.modTile_mod (s : State) (t : Nat) (f : Tile → Tile) : (s.modTile t f).mod = s.mod := rfl

/-! ### State.setGroup -/
@[simp] theorem State.setGroup_pending (s : State) (g : Nat) (x : BellGroup) : (s.setGroup g x).pending = s.pending := rfl
@[simp] theorem State.setGroup_freeCtr (s : State) (g : Nat) (x : BellGroup) : (s.setGroup g x).freeCtr = s.freeCtr := rfl
@[simp] theorem State.setGroup_clock (s : State) (g : Nat) (x : BellGroup) : (s.setGroup g x).clock = s.clock := rfl
@[simp] theorem State.setGroup_tiles (s : State) (g : Nat) (x : BellGroup) : (s.setGroup g x).tiles = s.tiles := rfl
@[simp] theorem State.setGroup_step (s : State) (g : Nat) (x : BellGroup) : (s.setGroup g x).step = s.step := rfl
@[simp] theorem State.setGroup_image (s : State) (g : Nat) (x : BellGroup) : (s.setGroup g x).image = s.image := rfl
@[simp] theorem State.setGroup_runnable (s : State) (g : Nat) (x : BellGroup) : (s.setGroup g x).runnable = s.runnable := rfl
@[simp] theorem State.setGroup_unshadowed (s : State) (g : Nat) (x : BellGroup) : (s.setGroup g x).unshadowed = s.unshadowed :=
  rfl
@[simp] theorem State.setGroup_expertCode (s : State) (g : Nat) (x : BellGroup) : (s.setGroup g x).expertCode = s.expertCode :=
  rfl
@[simp] theorem State.setGroup_lastDone (s : State) (g : Nat) (x : BellGroup) : (s.setGroup g x).lastDone = s.lastDone := rfl
@[simp] theorem State.setGroup_scale (s : State) (g : Nat) (x : BellGroup) : (s.setGroup g x).scale = s.scale := rfl
@[simp] theorem State.setGroup_random (s : State) (g : Nat) (x : BellGroup) : (s.setGroup g x).random = s.random := rfl
@[simp] theorem State.setGroup_train (s : State) (g : Nat) (x : BellGroup) : (s.setGroup g x).train = s.train := rfl
@[simp] theorem State.setGroup_seqWindow (s : State) (g : Nat) (x : BellGroup) : (s.setGroup g x).seqWindow = s.seqWindow := rfl
@[simp] theorem State.setGroup_mm (s : State) (g : Nat) (x : BellGroup) : (s.setGroup g x).mm = s.mm := rfl
@[simp] theorem State.setGroup_host (s : State) (g : Nat) (x : BellGroup) : (s.setGroup g x).host = s.host := rfl
@[simp] theorem State.setGroup_link (s : State) (g : Nat) (x : BellGroup) : (s.setGroup g x).link = s.link := rfl
@[simp] theorem State.setGroup_res (s : State) (g : Nat) (x : BellGroup) : (s.setGroup g x).res = s.res := rfl
@[simp] theorem State.setGroup_pw (s : State) (g : Nat) (x : BellGroup) : (s.setGroup g x).pw = s.pw := rfl
@[simp] theorem State.setGroup_sec (s : State) (g : Nat) (x : BellGroup) : (s.setGroup g x).sec = s.sec := rfl
@[simp] theorem State.setGroup_mod (s : State) (g : Nat) (x : BellGroup) : (s.setGroup g x).mod = s.mod := rfl

/-! ### State.setQueue -/
@[simp] theorem State.setQueue_pending (s : State) (q : Nat) (x : Queue) : (s.setQueue q x).pending = s.pending := rfl
@[simp] theorem State.setQueue_freeCtr (s : State) (q : Nat) (x : Queue) : (s.setQueue q x).freeCtr = s.freeCtr := rfl
@[simp] theorem State.setQueue_clock (s : State) (q : Nat) (x : Queue) : (s.setQueue q x).clock = s.clock := rfl
@[simp] theorem State.setQueue_tiles (s : State) (q : Nat) (x : Queue) : (s.setQueue q x).tiles = s.tiles := rfl
@[simp] theorem State.setQueue_bell (s : State) (q : Nat) (x : Queue) : (s.setQueue q x).bell = s.bell := rfl
@[simp] theorem State.setQueue_step (s : State) (q : Nat) (x : Queue) : (s.setQueue q x).step = s.step := rfl
@[simp] theorem State.setQueue_image (s : State) (q : Nat) (x : Queue) : (s.setQueue q x).image = s.image := rfl
@[simp] theorem State.setQueue_runnable (s : State) (q : Nat) (x : Queue) : (s.setQueue q x).runnable = s.runnable := rfl
@[simp] theorem State.setQueue_unshadowed (s : State) (q : Nat) (x : Queue) : (s.setQueue q x).unshadowed = s.unshadowed := rfl
@[simp] theorem State.setQueue_expertCode (s : State) (q : Nat) (x : Queue) : (s.setQueue q x).expertCode = s.expertCode := rfl
@[simp] theorem State.setQueue_lastDone (s : State) (q : Nat) (x : Queue) : (s.setQueue q x).lastDone = s.lastDone := rfl
@[simp] theorem State.setQueue_scale (s : State) (q : Nat) (x : Queue) : (s.setQueue q x).scale = s.scale := rfl
@[simp] theorem State.setQueue_random (s : State) (q : Nat) (x : Queue) : (s.setQueue q x).random = s.random := rfl
@[simp] theorem State.setQueue_train (s : State) (q : Nat) (x : Queue) : (s.setQueue q x).train = s.train := rfl
@[simp] theorem State.setQueue_seqWindow (s : State) (q : Nat) (x : Queue) : (s.setQueue q x).seqWindow = s.seqWindow := rfl
@[simp] theorem State.setQueue_mm (s : State) (q : Nat) (x : Queue) : (s.setQueue q x).mm = s.mm := rfl
@[simp] theorem State.setQueue_link (s : State) (q : Nat) (x : Queue) : (s.setQueue q x).link = s.link := rfl
@[simp] theorem State.setQueue_res (s : State) (q : Nat) (x : Queue) : (s.setQueue q x).res = s.res := rfl
@[simp] theorem State.setQueue_pw (s : State) (q : Nat) (x : Queue) : (s.setQueue q x).pw = s.pw := rfl
@[simp] theorem State.setQueue_sec (s : State) (q : Nat) (x : Queue) : (s.setQueue q x).sec = s.sec := rfl
@[simp] theorem State.setQueue_mod (s : State) (q : Nat) (x : Queue) : (s.setQueue q x).mod = s.mod := rfl

/-! ### State.putHost -/
@[simp] theorem State.putHost_pending (s : State) (a : Nat) (bs : List Byte) : (s.putHost a bs).pending = s.pending := rfl
@[simp] theorem State.putHost_freeCtr (s : State) (a : Nat) (bs : List Byte) : (s.putHost a bs).freeCtr = s.freeCtr := rfl
@[simp] theorem State.putHost_clock (s : State) (a : Nat) (bs : List Byte) : (s.putHost a bs).clock = s.clock := rfl
@[simp] theorem State.putHost_tiles (s : State) (a : Nat) (bs : List Byte) : (s.putHost a bs).tiles = s.tiles := rfl
@[simp] theorem State.putHost_bell (s : State) (a : Nat) (bs : List Byte) : (s.putHost a bs).bell = s.bell := rfl
@[simp] theorem State.putHost_step (s : State) (a : Nat) (bs : List Byte) : (s.putHost a bs).step = s.step := rfl
@[simp] theorem State.putHost_image (s : State) (a : Nat) (bs : List Byte) : (s.putHost a bs).image = s.image := rfl
@[simp] theorem State.putHost_runnable (s : State) (a : Nat) (bs : List Byte) : (s.putHost a bs).runnable = s.runnable := rfl
@[simp] theorem State.putHost_unshadowed (s : State) (a : Nat) (bs : List Byte) : (s.putHost a bs).unshadowed = s.unshadowed :=
  rfl
@[simp] theorem State.putHost_expertCode (s : State) (a : Nat) (bs : List Byte) : (s.putHost a bs).expertCode = s.expertCode :=
  rfl
@[simp] theorem State.putHost_lastDone (s : State) (a : Nat) (bs : List Byte) : (s.putHost a bs).lastDone = s.lastDone := rfl
@[simp] theorem State.putHost_scale (s : State) (a : Nat) (bs : List Byte) : (s.putHost a bs).scale = s.scale := rfl
@[simp] theorem State.putHost_random (s : State) (a : Nat) (bs : List Byte) : (s.putHost a bs).random = s.random := rfl
@[simp] theorem State.putHost_train (s : State) (a : Nat) (bs : List Byte) : (s.putHost a bs).train = s.train := rfl
@[simp] theorem State.putHost_seqWindow (s : State) (a : Nat) (bs : List Byte) : (s.putHost a bs).seqWindow = s.seqWindow := rfl
@[simp] theorem State.putHost_mm (s : State) (a : Nat) (bs : List Byte) : (s.putHost a bs).mm = s.mm := rfl
@[simp] theorem State.putHost_link (s : State) (a : Nat) (bs : List Byte) : (s.putHost a bs).link = s.link := rfl
@[simp] theorem State.putHost_res (s : State) (a : Nat) (bs : List Byte) : (s.putHost a bs).res = s.res := rfl
@[simp] theorem State.putHost_pw (s : State) (a : Nat) (bs : List Byte) : (s.putHost a bs).pw = s.pw := rfl
@[simp] theorem State.putHost_sec (s : State) (a : Nat) (bs : List Byte) : (s.putHost a bs).sec = s.sec := rfl
@[simp] theorem State.putHost_mod (s : State) (a : Nat) (bs : List Byte) : (s.putHost a bs).mod = s.mod := rfl

/-! ### State.setRunning -/
@[simp] theorem State.setRunning_pending (s : State) (n : Nat) : (s.setRunning n).pending = s.pending := rfl
@[simp] theorem State.setRunning_freeCtr (s : State) (n : Nat) : (s.setRunning n).freeCtr = s.freeCtr := rfl
@[simp] theorem State.setRunning_clock (s : State) (n : Nat) : (s.setRunning n).clock = s.clock := rfl
@[simp] theorem State.setRunning_tiles (s : State) (n : Nat) : (s.setRunning n).tiles = s.tiles := rfl
@[simp] theorem State.setRunning_bell (s : State) (n : Nat) : (s.setRunning n).bell = s.bell := rfl
@[simp] theorem State.setRunning_step (s : State) (n : Nat) : (s.setRunning n).step = s.step := rfl
@[simp] theorem State.setRunning_image (s : State) (n : Nat) : (s.setRunning n).image = s.image := rfl
@[simp] theorem State.setRunning_runnable (s : State) (n : Nat) : (s.setRunning n).runnable = s.runnable := rfl
@[simp] theorem State.setRunning_unshadowed (s : State) (n : Nat) : (s.setRunning n).unshadowed = s.unshadowed := rfl
@[simp] theorem State.setRunning_expertCode (s : State) (n : Nat) : (s.setRunning n).expertCode = s.expertCode := rfl
@[simp] theorem State.setRunning_lastDone (s : State) (n : Nat) : (s.setRunning n).lastDone = s.lastDone := rfl
@[simp] theorem State.setRunning_scale (s : State) (n : Nat) : (s.setRunning n).scale = s.scale := rfl
@[simp] theorem State.setRunning_random (s : State) (n : Nat) : (s.setRunning n).random = s.random := rfl
@[simp] theorem State.setRunning_train (s : State) (n : Nat) : (s.setRunning n).train = s.train := rfl
@[simp] theorem State.setRunning_seqWindow (s : State) (n : Nat) : (s.setRunning n).seqWindow = s.seqWindow := rfl
@[simp] theorem State.setRunning_mm (s : State) (n : Nat) : (s.setRunning n).mm = s.mm := rfl
@[simp] theorem State.setRunning_link (s : State) (n : Nat) : (s.setRunning n).link = s.link := rfl
@[simp] theorem State.setRunning_res (s : State) (n : Nat) : (s.setRunning n).res = s.res := rfl
@[simp] theorem State.setRunning_pw (s : State) (n : Nat) : (s.setRunning n).pw = s.pw := rfl
@[simp] theorem State.setRunning_sec (s : State) (n : Nat) : (s.setRunning n).sec = s.sec := rfl
@[simp] theorem State.setRunning_mod (s : State) (n : Nat) : (s.setRunning n).mod = s.mod := rfl

/-! ### State.setReply -/
@[simp] theorem State.setReply_pending (s : State) (r : Reply) : (s.setReply r).pending = s.pending := rfl
@[simp] theorem State.setReply_freeCtr (s : State) (r : Reply) : (s.setReply r).freeCtr = s.freeCtr := rfl
@[simp] theorem State.setReply_clock (s : State) (r : Reply) : (s.setReply r).clock = s.clock := rfl
@[simp] theorem State.setReply_tiles (s : State) (r : Reply) : (s.setReply r).tiles = s.tiles := rfl
@[simp] theorem State.setReply_bell (s : State) (r : Reply) : (s.setReply r).bell = s.bell := rfl
@[simp] theorem State.setReply_step (s : State) (r : Reply) : (s.setReply r).step = s.step := rfl
@[simp] theorem State.setReply_image (s : State) (r : Reply) : (s.setReply r).image = s.image := rfl
@[simp] theorem State.setReply_runnable (s : State) (r : Reply) : (s.setReply r).runnable = s.runnable := rfl
@[simp] theorem State.setReply_unshadowed (s : State) (r : Reply) : (s.setReply r).unshadowed = s.unshadowed := rfl
@[simp] theorem State.setReply_expertCode (s : State) (r : Reply) : (s.setReply r).expertCode = s.expertCode := rfl
@[simp] theorem State.setReply_lastDone (s : State) (r : Reply) : (s.setReply r).lastDone = s.lastDone := rfl
@[simp] theorem State.setReply_scale (s : State) (r : Reply) : (s.setReply r).scale = s.scale := rfl
@[simp] theorem State.setReply_random (s : State) (r : Reply) : (s.setReply r).random = s.random := rfl
@[simp] theorem State.setReply_train (s : State) (r : Reply) : (s.setReply r).train = s.train := rfl
@[simp] theorem State.setReply_seqWindow (s : State) (r : Reply) : (s.setReply r).seqWindow = s.seqWindow := rfl
@[simp] theorem State.setReply_mm (s : State) (r : Reply) : (s.setReply r).mm = s.mm := rfl
@[simp] theorem State.setReply_link (s : State) (r : Reply) : (s.setReply r).link = s.link := rfl
@[simp] theorem State.setReply_res (s : State) (r : Reply) : (s.setReply r).res = s.res := rfl
@[simp] theorem State.setReply_pw (s : State) (r : Reply) : (s.setReply r).pw = s.pw := rfl
@[simp] theorem State.setReply_sec (s : State) (r : Reply) : (s.setReply r).sec = s.sec := rfl
@[simp] theorem State.setReply_mod (s : State) (r : Reply) : (s.setReply r).mod = s.mod := rfl

/-! ### State.setPartner -/
@[simp] theorem State.setPartner_pending (s : State) (i : Nat) (p : Partner) : (s.setPartner i p).pending = s.pending := rfl
@[simp] theorem State.setPartner_freeCtr (s : State) (i : Nat) (p : Partner) : (s.setPartner i p).freeCtr = s.freeCtr := rfl
@[simp] theorem State.setPartner_clock (s : State) (i : Nat) (p : Partner) : (s.setPartner i p).clock = s.clock := rfl
@[simp] theorem State.setPartner_tiles (s : State) (i : Nat) (p : Partner) : (s.setPartner i p).tiles = s.tiles := rfl
@[simp] theorem State.setPartner_bell (s : State) (i : Nat) (p : Partner) : (s.setPartner i p).bell = s.bell := rfl
@[simp] theorem State.setPartner_step (s : State) (i : Nat) (p : Partner) : (s.setPartner i p).step = s.step := rfl
@[simp] theorem State.setPartner_image (s : State) (i : Nat) (p : Partner) : (s.setPartner i p).image = s.image := rfl
@[simp] theorem State.setPartner_runnable (s : State) (i : Nat) (p : Partner) : (s.setPartner i p).runnable = s.runnable := rfl
@[simp] theorem State.setPartner_unshadowed (s : State) (i : Nat) (p : Partner) : (s.setPartner i p).unshadowed = s.unshadowed :=
  rfl
@[simp] theorem State.setPartner_expertCode (s : State) (i : Nat) (p : Partner) : (s.setPartner i p).expertCode = s.expertCode :=
  rfl
@[simp] theorem State.setPartner_lastDone (s : State) (i : Nat) (p : Partner) : (s.setPartner i p).lastDone = s.lastDone := rfl
@[simp] theorem State.setPartner_scale (s : State) (i : Nat) (p : Partner) : (s.setPartner i p).scale = s.scale := rfl
@[simp] theorem State.setPartner_random (s : State) (i : Nat) (p : Partner) : (s.setPartner i p).random = s.random := rfl
@[simp] theorem State.setPartner_train (s : State) (i : Nat) (p : Partner) : (s.setPartner i p).train = s.train := rfl
@[simp] theorem State.setPartner_seqWindow (s : State) (i : Nat) (p : Partner) : (s.setPartner i p).seqWindow = s.seqWindow := rfl
@[simp] theorem State.setPartner_mm (s : State) (i : Nat) (p : Partner) : (s.setPartner i p).mm = s.mm := rfl
@[simp] theorem State.setPartner_host (s : State) (i : Nat) (p : Partner) : (s.setPartner i p).host = s.host := rfl
@[simp] theorem State.setPartner_res (s : State) (i : Nat) (p : Partner) : (s.setPartner i p).res = s.res := rfl
@[simp] theorem State.setPartner_pw (s : State) (i : Nat) (p : Partner) : (s.setPartner i p).pw = s.pw := rfl
@[simp] theorem State.setPartner_sec (s : State) (i : Nat) (p : Partner) : (s.setPartner i p).sec = s.sec := rfl
@[simp] theorem State.setPartner_mod (s : State) (i : Nat) (p : Partner) : (s.setPartner i p).mod = s.mod := rfl

/-! ### State.setRoad -/
@[simp] theorem State.setRoad_pending (s : State) (p : Nat) (r : Road) : (s.setRoad p r).pending = s.pending := rfl
@[simp] theorem State.setRoad_freeCtr (s : State) (p : Nat) (r : Road) : (s.setRoad p r).freeCtr = s.freeCtr := rfl
@[simp] theorem State.setRoad_clock (s : State) (p : Nat) (r : Road) : (s.setRoad p r).clock = s.clock := rfl
@[simp] theorem State.setRoad_tiles (s : State) (p : Nat) (r : Road) : (s.setRoad p r).tiles = s.tiles := rfl
@[simp] theorem State.setRoad_bell (s : State) (p : Nat) (r : Road) : (s.setRoad p r).bell = s.bell := rfl
@[simp] theorem State.setRoad_step (s : State) (p : Nat) (r : Road) : (s.setRoad p r).step = s.step := rfl
@[simp] theorem State.setRoad_image (s : State) (p : Nat) (r : Road) : (s.setRoad p r).image = s.image := rfl
@[simp] theorem State.setRoad_runnable (s : State) (p : Nat) (r : Road) : (s.setRoad p r).runnable = s.runnable := rfl
@[simp] theorem State.setRoad_unshadowed (s : State) (p : Nat) (r : Road) : (s.setRoad p r).unshadowed = s.unshadowed := rfl
@[simp] theorem State.setRoad_expertCode (s : State) (p : Nat) (r : Road) : (s.setRoad p r).expertCode = s.expertCode := rfl
@[simp] theorem State.setRoad_lastDone (s : State) (p : Nat) (r : Road) : (s.setRoad p r).lastDone = s.lastDone := rfl
@[simp] theorem State.setRoad_scale (s : State) (p : Nat) (r : Road) : (s.setRoad p r).scale = s.scale := rfl
@[simp] theorem State.setRoad_random (s : State) (p : Nat) (r : Road) : (s.setRoad p r).random = s.random := rfl
@[simp] theorem State.setRoad_train (s : State) (p : Nat) (r : Road) : (s.setRoad p r).train = s.train := rfl
@[simp] theorem State.setRoad_seqWindow (s : State) (p : Nat) (r : Road) : (s.setRoad p r).seqWindow = s.seqWindow := rfl
@[simp] theorem State.setRoad_mm (s : State) (p : Nat) (r : Road) : (s.setRoad p r).mm = s.mm := rfl
@[simp] theorem State.setRoad_host (s : State) (p : Nat) (r : Road) : (s.setRoad p r).host = s.host := rfl
@[simp] theorem State.setRoad_res (s : State) (p : Nat) (r : Road) : (s.setRoad p r).res = s.res := rfl
@[simp] theorem State.setRoad_pw (s : State) (p : Nat) (r : Road) : (s.setRoad p r).pw = s.pw := rfl
@[simp] theorem State.setRoad_sec (s : State) (p : Nat) (r : Road) : (s.setRoad p r).sec = s.sec := rfl
@[simp] theorem State.setRoad_mod (s : State) (p : Nat) (r : Road) : (s.setRoad p r).mod = s.mod := rfl

/-! ### State.setEth -/
@[simp] theorem State.setEth_pending (s : State) (e : Nat) (x : EthPort) : (s.setEth e x).pending = s.pending := rfl
@[simp] theorem State.setEth_freeCtr (s : State) (e : Nat) (x : EthPort) : (s.setEth e x).freeCtr = s.freeCtr := rfl
@[simp] theorem State.setEth_clock (s : State) (e : Nat) (x : EthPort) : (s.setEth e x).clock = s.clock := rfl
@[simp] theorem State.setEth_tiles (s : State) (e : Nat) (x : EthPort) : (s.setEth e x).tiles = s.tiles := rfl
@[simp] theorem State.setEth_bell (s : State) (e : Nat) (x : EthPort) : (s.setEth e x).bell = s.bell := rfl
@[simp] theorem State.setEth_step (s : State) (e : Nat) (x : EthPort) : (s.setEth e x).step = s.step := rfl
@[simp] theorem State.setEth_image (s : State) (e : Nat) (x : EthPort) : (s.setEth e x).image = s.image := rfl
@[simp] theorem State.setEth_runnable (s : State) (e : Nat) (x : EthPort) : (s.setEth e x).runnable = s.runnable := rfl
@[simp] theorem State.setEth_unshadowed (s : State) (e : Nat) (x : EthPort) : (s.setEth e x).unshadowed = s.unshadowed := rfl
@[simp] theorem State.setEth_expertCode (s : State) (e : Nat) (x : EthPort) : (s.setEth e x).expertCode = s.expertCode := rfl
@[simp] theorem State.setEth_lastDone (s : State) (e : Nat) (x : EthPort) : (s.setEth e x).lastDone = s.lastDone := rfl
@[simp] theorem State.setEth_scale (s : State) (e : Nat) (x : EthPort) : (s.setEth e x).scale = s.scale := rfl
@[simp] theorem State.setEth_random (s : State) (e : Nat) (x : EthPort) : (s.setEth e x).random = s.random := rfl
@[simp] theorem State.setEth_train (s : State) (e : Nat) (x : EthPort) : (s.setEth e x).train = s.train := rfl
@[simp] theorem State.setEth_seqWindow (s : State) (e : Nat) (x : EthPort) : (s.setEth e x).seqWindow = s.seqWindow := rfl
@[simp] theorem State.setEth_mm (s : State) (e : Nat) (x : EthPort) : (s.setEth e x).mm = s.mm := rfl
@[simp] theorem State.setEth_host (s : State) (e : Nat) (x : EthPort) : (s.setEth e x).host = s.host := rfl
@[simp] theorem State.setEth_res (s : State) (e : Nat) (x : EthPort) : (s.setEth e x).res = s.res := rfl
@[simp] theorem State.setEth_pw (s : State) (e : Nat) (x : EthPort) : (s.setEth e x).pw = s.pw := rfl
@[simp] theorem State.setEth_sec (s : State) (e : Nat) (x : EthPort) : (s.setEth e x).sec = s.sec := rfl
@[simp] theorem State.setEth_mod (s : State) (e : Nat) (x : EthPort) : (s.setEth e x).mod = s.mod := rfl

/-! ### State.setCtx -/
@[simp] theorem State.setCtx_pending (s : State) (i : Nat) (c : EthCtx) : (s.setCtx i c).pending = s.pending := rfl
@[simp] theorem State.setCtx_freeCtr (s : State) (i : Nat) (c : EthCtx) : (s.setCtx i c).freeCtr = s.freeCtr := rfl
@[simp] theorem State.setCtx_clock (s : State) (i : Nat) (c : EthCtx) : (s.setCtx i c).clock = s.clock := rfl
@[simp] theorem State.setCtx_tiles (s : State) (i : Nat) (c : EthCtx) : (s.setCtx i c).tiles = s.tiles := rfl
@[simp] theorem State.setCtx_bell (s : State) (i : Nat) (c : EthCtx) : (s.setCtx i c).bell = s.bell := rfl
@[simp] theorem State.setCtx_step (s : State) (i : Nat) (c : EthCtx) : (s.setCtx i c).step = s.step := rfl
@[simp] theorem State.setCtx_image (s : State) (i : Nat) (c : EthCtx) : (s.setCtx i c).image = s.image := rfl
@[simp] theorem State.setCtx_runnable (s : State) (i : Nat) (c : EthCtx) : (s.setCtx i c).runnable = s.runnable := rfl
@[simp] theorem State.setCtx_unshadowed (s : State) (i : Nat) (c : EthCtx) : (s.setCtx i c).unshadowed = s.unshadowed := rfl
@[simp] theorem State.setCtx_expertCode (s : State) (i : Nat) (c : EthCtx) : (s.setCtx i c).expertCode = s.expertCode := rfl
@[simp] theorem State.setCtx_lastDone (s : State) (i : Nat) (c : EthCtx) : (s.setCtx i c).lastDone = s.lastDone := rfl
@[simp] theorem State.setCtx_scale (s : State) (i : Nat) (c : EthCtx) : (s.setCtx i c).scale = s.scale := rfl
@[simp] theorem State.setCtx_random (s : State) (i : Nat) (c : EthCtx) : (s.setCtx i c).random = s.random := rfl
@[simp] theorem State.setCtx_train (s : State) (i : Nat) (c : EthCtx) : (s.setCtx i c).train = s.train := rfl
@[simp] theorem State.setCtx_seqWindow (s : State) (i : Nat) (c : EthCtx) : (s.setCtx i c).seqWindow = s.seqWindow := rfl
@[simp] theorem State.setCtx_mm (s : State) (i : Nat) (c : EthCtx) : (s.setCtx i c).mm = s.mm := rfl
@[simp] theorem State.setCtx_host (s : State) (i : Nat) (c : EthCtx) : (s.setCtx i c).host = s.host := rfl
@[simp] theorem State.setCtx_res (s : State) (i : Nat) (c : EthCtx) : (s.setCtx i c).res = s.res := rfl
@[simp] theorem State.setCtx_pw (s : State) (i : Nat) (c : EthCtx) : (s.setCtx i c).pw = s.pw := rfl
@[simp] theorem State.setCtx_sec (s : State) (i : Nat) (c : EthCtx) : (s.setCtx i c).sec = s.sec := rfl
@[simp] theorem State.setCtx_mod (s : State) (i : Nat) (c : EthCtx) : (s.setCtx i c).mod = s.mod := rfl

/-! ### State.writePiece -/
@[simp] theorem State.writePiece_pending (s : State) (lo : Nat) (bs : List Byte) : (s.writePiece lo bs).pending = s.pending := rfl
@[simp] theorem State.writePiece_freeCtr (s : State) (lo : Nat) (bs : List Byte) : (s.writePiece lo bs).freeCtr = s.freeCtr := rfl
@[simp] theorem State.writePiece_clock (s : State) (lo : Nat) (bs : List Byte) : (s.writePiece lo bs).clock = s.clock := rfl
@[simp] theorem State.writePiece_tiles (s : State) (lo : Nat) (bs : List Byte) : (s.writePiece lo bs).tiles = s.tiles := rfl
@[simp] theorem State.writePiece_bell (s : State) (lo : Nat) (bs : List Byte) : (s.writePiece lo bs).bell = s.bell := rfl
@[simp] theorem State.writePiece_step (s : State) (lo : Nat) (bs : List Byte) : (s.writePiece lo bs).step = s.step := rfl
@[simp] theorem State.writePiece_image (s : State) (lo : Nat) (bs : List Byte) : (s.writePiece lo bs).image = s.image := rfl
@[simp] theorem State.writePiece_runnable (s : State) (lo : Nat) (bs : List Byte) : (s.writePiece lo bs).runnable = s.runnable :=
  rfl
@[simp] theorem State.writePiece_unshadowed (s : State) (lo : Nat) (bs : List Byte) : (s.writePiece lo bs).unshadowed = s.unshadowed :=
  rfl
@[simp] theorem State.writePiece_expertCode (s : State) (lo : Nat) (bs : List Byte) : (s.writePiece lo bs).expertCode = s.expertCode :=
  rfl
@[simp] theorem State.writePiece_lastDone (s : State) (lo : Nat) (bs : List Byte) : (s.writePiece lo bs).lastDone = s.lastDone :=
  rfl
@[simp] theorem State.writePiece_scale (s : State) (lo : Nat) (bs : List Byte) : (s.writePiece lo bs).scale = s.scale := rfl
@[simp] theorem State.writePiece_random (s : State) (lo : Nat) (bs : List Byte) : (s.writePiece lo bs).random = s.random := rfl
@[simp] theorem State.writePiece_train (s : State) (lo : Nat) (bs : List Byte) : (s.writePiece lo bs).train = s.train := rfl
@[simp] theorem State.writePiece_seqWindow (s : State) (lo : Nat) (bs : List Byte) : (s.writePiece lo bs).seqWindow = s.seqWindow :=
  rfl
@[simp] theorem State.writePiece_host (s : State) (lo : Nat) (bs : List Byte) : (s.writePiece lo bs).host = s.host := rfl
@[simp] theorem State.writePiece_link (s : State) (lo : Nat) (bs : List Byte) : (s.writePiece lo bs).link = s.link := rfl
@[simp] theorem State.writePiece_res (s : State) (lo : Nat) (bs : List Byte) : (s.writePiece lo bs).res = s.res := rfl
@[simp] theorem State.writePiece_pw (s : State) (lo : Nat) (bs : List Byte) : (s.writePiece lo bs).pw = s.pw := rfl
@[simp] theorem State.writePiece_sec (s : State) (lo : Nat) (bs : List Byte) : (s.writePiece lo bs).sec = s.sec := rfl
@[simp] theorem State.writePiece_mod (s : State) (lo : Nat) (bs : List Byte) : (s.writePiece lo bs).mod = s.mod := rfl

/-! ### State.setBench -/
@[simp] theorem State.setBench_pending (s : State) (b : Nat) (k : BenchClock) : (s.setBench b k).pending = s.pending := rfl
@[simp] theorem State.setBench_freeCtr (s : State) (b : Nat) (k : BenchClock) : (s.setBench b k).freeCtr = s.freeCtr := rfl
@[simp] theorem State.setBench_clock (s : State) (b : Nat) (k : BenchClock) : (s.setBench b k).clock = s.clock := rfl
@[simp] theorem State.setBench_tiles (s : State) (b : Nat) (k : BenchClock) : (s.setBench b k).tiles = s.tiles := rfl
@[simp] theorem State.setBench_bell (s : State) (b : Nat) (k : BenchClock) : (s.setBench b k).bell = s.bell := rfl
@[simp] theorem State.setBench_step (s : State) (b : Nat) (k : BenchClock) : (s.setBench b k).step = s.step := rfl
@[simp] theorem State.setBench_image (s : State) (b : Nat) (k : BenchClock) : (s.setBench b k).image = s.image := rfl
@[simp] theorem State.setBench_runnable (s : State) (b : Nat) (k : BenchClock) : (s.setBench b k).runnable = s.runnable := rfl
@[simp] theorem State.setBench_unshadowed (s : State) (b : Nat) (k : BenchClock) : (s.setBench b k).unshadowed = s.unshadowed :=
  rfl
@[simp] theorem State.setBench_expertCode (s : State) (b : Nat) (k : BenchClock) : (s.setBench b k).expertCode = s.expertCode :=
  rfl
@[simp] theorem State.setBench_lastDone (s : State) (b : Nat) (k : BenchClock) : (s.setBench b k).lastDone = s.lastDone := rfl
@[simp] theorem State.setBench_scale (s : State) (b : Nat) (k : BenchClock) : (s.setBench b k).scale = s.scale := rfl
@[simp] theorem State.setBench_random (s : State) (b : Nat) (k : BenchClock) : (s.setBench b k).random = s.random := rfl
@[simp] theorem State.setBench_train (s : State) (b : Nat) (k : BenchClock) : (s.setBench b k).train = s.train := rfl
@[simp] theorem State.setBench_seqWindow (s : State) (b : Nat) (k : BenchClock) : (s.setBench b k).seqWindow = s.seqWindow := rfl
@[simp] theorem State.setBench_mm (s : State) (b : Nat) (k : BenchClock) : (s.setBench b k).mm = s.mm := rfl
@[simp] theorem State.setBench_host (s : State) (b : Nat) (k : BenchClock) : (s.setBench b k).host = s.host := rfl
@[simp] theorem State.setBench_link (s : State) (b : Nat) (k : BenchClock) : (s.setBench b k).link = s.link := rfl
@[simp] theorem State.setBench_res (s : State) (b : Nat) (k : BenchClock) : (s.setBench b k).res = s.res := rfl
@[simp] theorem State.setBench_sec (s : State) (b : Nat) (k : BenchClock) : (s.setBench b k).sec = s.sec := rfl
@[simp] theorem State.setBench_mod (s : State) (b : Nat) (k : BenchClock) : (s.setBench b k).mod = s.mod := rfl

/-! ### State.setSlot -/
@[simp] theorem State.setSlot_pending (s : State) (k : Nat) (d : List Byte) : (s.setSlot k d).pending = s.pending := rfl
@[simp] theorem State.setSlot_freeCtr (s : State) (k : Nat) (d : List Byte) : (s.setSlot k d).freeCtr = s.freeCtr := rfl
@[simp] theorem State.setSlot_clock (s : State) (k : Nat) (d : List Byte) : (s.setSlot k d).clock = s.clock := rfl
@[simp] theorem State.setSlot_tiles (s : State) (k : Nat) (d : List Byte) : (s.setSlot k d).tiles = s.tiles := rfl
@[simp] theorem State.setSlot_bell (s : State) (k : Nat) (d : List Byte) : (s.setSlot k d).bell = s.bell := rfl
@[simp] theorem State.setSlot_step (s : State) (k : Nat) (d : List Byte) : (s.setSlot k d).step = s.step := rfl
@[simp] theorem State.setSlot_image (s : State) (k : Nat) (d : List Byte) : (s.setSlot k d).image = s.image := rfl
@[simp] theorem State.setSlot_runnable (s : State) (k : Nat) (d : List Byte) : (s.setSlot k d).runnable = s.runnable := rfl
@[simp] theorem State.setSlot_unshadowed (s : State) (k : Nat) (d : List Byte) : (s.setSlot k d).unshadowed = s.unshadowed := rfl
@[simp] theorem State.setSlot_expertCode (s : State) (k : Nat) (d : List Byte) : (s.setSlot k d).expertCode = s.expertCode := rfl
@[simp] theorem State.setSlot_lastDone (s : State) (k : Nat) (d : List Byte) : (s.setSlot k d).lastDone = s.lastDone := rfl
@[simp] theorem State.setSlot_scale (s : State) (k : Nat) (d : List Byte) : (s.setSlot k d).scale = s.scale := rfl
@[simp] theorem State.setSlot_random (s : State) (k : Nat) (d : List Byte) : (s.setSlot k d).random = s.random := rfl
@[simp] theorem State.setSlot_train (s : State) (k : Nat) (d : List Byte) : (s.setSlot k d).train = s.train := rfl
@[simp] theorem State.setSlot_seqWindow (s : State) (k : Nat) (d : List Byte) : (s.setSlot k d).seqWindow = s.seqWindow := rfl
@[simp] theorem State.setSlot_mm (s : State) (k : Nat) (d : List Byte) : (s.setSlot k d).mm = s.mm := rfl
@[simp] theorem State.setSlot_host (s : State) (k : Nat) (d : List Byte) : (s.setSlot k d).host = s.host := rfl
@[simp] theorem State.setSlot_link (s : State) (k : Nat) (d : List Byte) : (s.setSlot k d).link = s.link := rfl
@[simp] theorem State.setSlot_res (s : State) (k : Nat) (d : List Byte) : (s.setSlot k d).res = s.res := rfl
@[simp] theorem State.setSlot_pw (s : State) (k : Nat) (d : List Byte) : (s.setSlot k d).pw = s.pw := rfl
@[simp] theorem State.setSlot_mod (s : State) (k : Nat) (d : List Byte) : (s.setSlot k d).mod = s.mod := rfl

/-! ### State.setRow -/
@[simp] theorem State.setRow_pending (s : State) (k : Nat) (r : RowRepair) : (s.setRow k r).pending = s.pending := rfl
@[simp] theorem State.setRow_freeCtr (s : State) (k : Nat) (r : RowRepair) : (s.setRow k r).freeCtr = s.freeCtr := rfl
@[simp] theorem State.setRow_clock (s : State) (k : Nat) (r : RowRepair) : (s.setRow k r).clock = s.clock := rfl
@[simp] theorem State.setRow_tiles (s : State) (k : Nat) (r : RowRepair) : (s.setRow k r).tiles = s.tiles := rfl
@[simp] theorem State.setRow_bell (s : State) (k : Nat) (r : RowRepair) : (s.setRow k r).bell = s.bell := rfl
@[simp] theorem State.setRow_step (s : State) (k : Nat) (r : RowRepair) : (s.setRow k r).step = s.step := rfl
@[simp] theorem State.setRow_image (s : State) (k : Nat) (r : RowRepair) : (s.setRow k r).image = s.image := rfl
@[simp] theorem State.setRow_runnable (s : State) (k : Nat) (r : RowRepair) : (s.setRow k r).runnable = s.runnable := rfl
@[simp] theorem State.setRow_unshadowed (s : State) (k : Nat) (r : RowRepair) : (s.setRow k r).unshadowed = s.unshadowed := rfl
@[simp] theorem State.setRow_expertCode (s : State) (k : Nat) (r : RowRepair) : (s.setRow k r).expertCode = s.expertCode := rfl
@[simp] theorem State.setRow_lastDone (s : State) (k : Nat) (r : RowRepair) : (s.setRow k r).lastDone = s.lastDone := rfl
@[simp] theorem State.setRow_scale (s : State) (k : Nat) (r : RowRepair) : (s.setRow k r).scale = s.scale := rfl
@[simp] theorem State.setRow_random (s : State) (k : Nat) (r : RowRepair) : (s.setRow k r).random = s.random := rfl
@[simp] theorem State.setRow_train (s : State) (k : Nat) (r : RowRepair) : (s.setRow k r).train = s.train := rfl
@[simp] theorem State.setRow_seqWindow (s : State) (k : Nat) (r : RowRepair) : (s.setRow k r).seqWindow = s.seqWindow := rfl
@[simp] theorem State.setRow_mm (s : State) (k : Nat) (r : RowRepair) : (s.setRow k r).mm = s.mm := rfl
@[simp] theorem State.setRow_host (s : State) (k : Nat) (r : RowRepair) : (s.setRow k r).host = s.host := rfl
@[simp] theorem State.setRow_link (s : State) (k : Nat) (r : RowRepair) : (s.setRow k r).link = s.link := rfl
@[simp] theorem State.setRow_pw (s : State) (k : Nat) (r : RowRepair) : (s.setRow k r).pw = s.pw := rfl
@[simp] theorem State.setRow_sec (s : State) (k : Nat) (r : RowRepair) : (s.setRow k r).sec = s.sec := rfl
@[simp] theorem State.setRow_mod (s : State) (k : Nat) (r : RowRepair) : (s.setRow k r).mod = s.mod := rfl

/-! ### State.setScaleEntry -/
@[simp] theorem State.setScaleEntry_pending (s : State) (n : Nat) (e : ScaleEntry) : (s.setScaleEntry n e).pending = s.pending :=
  rfl
@[simp] theorem State.setScaleEntry_freeCtr (s : State) (n : Nat) (e : ScaleEntry) : (s.setScaleEntry n e).freeCtr = s.freeCtr :=
  rfl
@[simp] theorem State.setScaleEntry_clock (s : State) (n : Nat) (e : ScaleEntry) : (s.setScaleEntry n e).clock = s.clock := rfl
@[simp] theorem State.setScaleEntry_tiles (s : State) (n : Nat) (e : ScaleEntry) : (s.setScaleEntry n e).tiles = s.tiles := rfl
@[simp] theorem State.setScaleEntry_bell (s : State) (n : Nat) (e : ScaleEntry) : (s.setScaleEntry n e).bell = s.bell := rfl
@[simp] theorem State.setScaleEntry_step (s : State) (n : Nat) (e : ScaleEntry) : (s.setScaleEntry n e).step = s.step := rfl
@[simp] theorem State.setScaleEntry_image (s : State) (n : Nat) (e : ScaleEntry) : (s.setScaleEntry n e).image = s.image := rfl
@[simp] theorem State.setScaleEntry_runnable (s : State) (n : Nat) (e : ScaleEntry) : (s.setScaleEntry n e).runnable = s.runnable :=
  rfl
@[simp] theorem State.setScaleEntry_unshadowed (s : State) (n : Nat) (e : ScaleEntry) : (s.setScaleEntry n e).unshadowed = s.unshadowed :=
  rfl
@[simp] theorem State.setScaleEntry_expertCode (s : State) (n : Nat) (e : ScaleEntry) : (s.setScaleEntry n e).expertCode = s.expertCode :=
  rfl
@[simp] theorem State.setScaleEntry_lastDone (s : State) (n : Nat) (e : ScaleEntry) : (s.setScaleEntry n e).lastDone = s.lastDone :=
  rfl
@[simp] theorem State.setScaleEntry_random (s : State) (n : Nat) (e : ScaleEntry) : (s.setScaleEntry n e).random = s.random := rfl
@[simp] theorem State.setScaleEntry_train (s : State) (n : Nat) (e : ScaleEntry) : (s.setScaleEntry n e).train = s.train := rfl
@[simp] theorem State.setScaleEntry_seqWindow (s : State) (n : Nat) (e : ScaleEntry) : (s.setScaleEntry n e).seqWindow = s.seqWindow :=
  rfl
@[simp] theorem State.setScaleEntry_mm (s : State) (n : Nat) (e : ScaleEntry) : (s.setScaleEntry n e).mm = s.mm := rfl
@[simp] theorem State.setScaleEntry_host (s : State) (n : Nat) (e : ScaleEntry) : (s.setScaleEntry n e).host = s.host := rfl
@[simp] theorem State.setScaleEntry_link (s : State) (n : Nat) (e : ScaleEntry) : (s.setScaleEntry n e).link = s.link := rfl
@[simp] theorem State.setScaleEntry_res (s : State) (n : Nat) (e : ScaleEntry) : (s.setScaleEntry n e).res = s.res := rfl
@[simp] theorem State.setScaleEntry_pw (s : State) (n : Nat) (e : ScaleEntry) : (s.setScaleEntry n e).pw = s.pw := rfl
@[simp] theorem State.setScaleEntry_sec (s : State) (n : Nat) (e : ScaleEntry) : (s.setScaleEntry n e).sec = s.sec := rfl
@[simp] theorem State.setScaleEntry_mod (s : State) (n : Nat) (e : ScaleEntry) : (s.setScaleEntry n e).mod = s.mod := rfl

/-! ### State.setTime -/
@[simp] theorem State.setTime_pending (s : State) (ns : Nat) : (s.setTime ns).pending = s.pending := rfl
@[simp] theorem State.setTime_freeCtr (s : State) (ns : Nat) : (s.setTime ns).freeCtr = s.freeCtr := rfl
@[simp] theorem State.setTime_tiles (s : State) (ns : Nat) : (s.setTime ns).tiles = s.tiles := rfl
@[simp] theorem State.setTime_bell (s : State) (ns : Nat) : (s.setTime ns).bell = s.bell := rfl
@[simp] theorem State.setTime_step (s : State) (ns : Nat) : (s.setTime ns).step = s.step := rfl
@[simp] theorem State.setTime_image (s : State) (ns : Nat) : (s.setTime ns).image = s.image := rfl
@[simp] theorem State.setTime_runnable (s : State) (ns : Nat) : (s.setTime ns).runnable = s.runnable := rfl
@[simp] theorem State.setTime_unshadowed (s : State) (ns : Nat) : (s.setTime ns).unshadowed = s.unshadowed := rfl
@[simp] theorem State.setTime_expertCode (s : State) (ns : Nat) : (s.setTime ns).expertCode = s.expertCode := rfl
@[simp] theorem State.setTime_lastDone (s : State) (ns : Nat) : (s.setTime ns).lastDone = s.lastDone := rfl
@[simp] theorem State.setTime_scale (s : State) (ns : Nat) : (s.setTime ns).scale = s.scale := rfl
@[simp] theorem State.setTime_random (s : State) (ns : Nat) : (s.setTime ns).random = s.random := rfl
@[simp] theorem State.setTime_train (s : State) (ns : Nat) : (s.setTime ns).train = s.train := rfl
@[simp] theorem State.setTime_seqWindow (s : State) (ns : Nat) : (s.setTime ns).seqWindow = s.seqWindow := rfl
@[simp] theorem State.setTime_mm (s : State) (ns : Nat) : (s.setTime ns).mm = s.mm := rfl
@[simp] theorem State.setTime_host (s : State) (ns : Nat) : (s.setTime ns).host = s.host := rfl
@[simp] theorem State.setTime_link (s : State) (ns : Nat) : (s.setTime ns).link = s.link := rfl
@[simp] theorem State.setTime_res (s : State) (ns : Nat) : (s.setTime ns).res = s.res := rfl
@[simp] theorem State.setTime_pw (s : State) (ns : Nat) : (s.setTime ns).pw = s.pw := rfl
@[simp] theorem State.setTime_sec (s : State) (ns : Nat) : (s.setTime ns).sec = s.sec := rfl
@[simp] theorem State.setTime_mod (s : State) (ns : Nat) : (s.setTime ns).mod = s.mod := rfl

/-! ### State.logAer -/
@[simp] theorem State.logAer_pending (s : State) (e : AerError) : (s.logAer e).pending = s.pending := rfl
@[simp] theorem State.logAer_freeCtr (s : State) (e : AerError) : (s.logAer e).freeCtr = s.freeCtr := rfl
@[simp] theorem State.logAer_clock (s : State) (e : AerError) : (s.logAer e).clock = s.clock := rfl
@[simp] theorem State.logAer_tiles (s : State) (e : AerError) : (s.logAer e).tiles = s.tiles := rfl
@[simp] theorem State.logAer_bell (s : State) (e : AerError) : (s.logAer e).bell = s.bell := rfl
@[simp] theorem State.logAer_step (s : State) (e : AerError) : (s.logAer e).step = s.step := rfl
@[simp] theorem State.logAer_image (s : State) (e : AerError) : (s.logAer e).image = s.image := rfl
@[simp] theorem State.logAer_runnable (s : State) (e : AerError) : (s.logAer e).runnable = s.runnable := rfl
@[simp] theorem State.logAer_unshadowed (s : State) (e : AerError) : (s.logAer e).unshadowed = s.unshadowed := rfl
@[simp] theorem State.logAer_expertCode (s : State) (e : AerError) : (s.logAer e).expertCode = s.expertCode := rfl
@[simp] theorem State.logAer_lastDone (s : State) (e : AerError) : (s.logAer e).lastDone = s.lastDone := rfl
@[simp] theorem State.logAer_scale (s : State) (e : AerError) : (s.logAer e).scale = s.scale := rfl
@[simp] theorem State.logAer_random (s : State) (e : AerError) : (s.logAer e).random = s.random := rfl
@[simp] theorem State.logAer_train (s : State) (e : AerError) : (s.logAer e).train = s.train := rfl
@[simp] theorem State.logAer_seqWindow (s : State) (e : AerError) : (s.logAer e).seqWindow = s.seqWindow := rfl
@[simp] theorem State.logAer_mm (s : State) (e : AerError) : (s.logAer e).mm = s.mm := rfl
@[simp] theorem State.logAer_link (s : State) (e : AerError) : (s.logAer e).link = s.link := rfl
@[simp] theorem State.logAer_res (s : State) (e : AerError) : (s.logAer e).res = s.res := rfl
@[simp] theorem State.logAer_pw (s : State) (e : AerError) : (s.logAer e).pw = s.pw := rfl
@[simp] theorem State.logAer_sec (s : State) (e : AerError) : (s.logAer e).sec = s.sec := rfl
@[simp] theorem State.logAer_mod (s : State) (e : AerError) : (s.logAer e).mod = s.mod := rfl

/-! ### Tile.setS -/
@[simp] theorem Tile.setS_mem (c : Tile) (r : SReg) (w : Word64) : (c.setS r w).mem = c.mem := by unfold Tile.setS; split <;> rfl
@[simp] theorem Tile.setS_rings (c : Tile) (r : SReg) (w : Word64) : (c.setS r w).rings = c.rings :=
  by unfold Tile.setS; split <;> rfl
@[simp] theorem Tile.setS_pages (c : Tile) (r : SReg) (w : Word64) : (c.setS r w).pages = c.pages :=
  by unfold Tile.setS; split <;> rfl
@[simp] theorem Tile.setS_mx (c : Tile) (r : SReg) (w : Word64) : (c.setS r w).mx = c.mx := by unfold Tile.setS; split <;> rfl
@[simp] theorem Tile.setS_slabs (c : Tile) (r : SReg) (w : Word64) : (c.setS r w).slabs = c.slabs :=
  by unfold Tile.setS; split <;> rfl
@[simp] theorem Tile.setS_mv (c : Tile) (r : SReg) (w : Word64) : (c.setS r w).mv = c.mv := by unfold Tile.setS; split <;> rfl
@[simp] theorem Tile.setS_sd (c : Tile) (r : SReg) (w : Word64) : (c.setS r w).sd = c.sd := by unfold Tile.setS; split <;> rfl
@[simp] theorem Tile.setS_rn (c : Tile) (r : SReg) (w : Word64) : (c.setS r w).rn = c.rn := by unfold Tile.setS; split <;> rfl
@[simp] theorem Tile.setS_rc (c : Tile) (r : SReg) (w : Word64) : (c.setS r w).rc = c.rc := by unfold Tile.setS; split <;> rfl
@[simp] theorem Tile.setS_nt (c : Tile) (r : SReg) (w : Word64) : (c.setS r w).nt = c.nt := by unfold Tile.setS; split <;> rfl

/-! ### Tile.setV -/
@[simp] theorem Tile.setV_mem (c : Tile) (r : VReg) (x : Vector Word32 32) : (c.setV r x).mem = c.mem := rfl
@[simp] theorem Tile.setV_rings (c : Tile) (r : VReg) (x : Vector Word32 32) : (c.setV r x).rings = c.rings := rfl
@[simp] theorem Tile.setV_pages (c : Tile) (r : VReg) (x : Vector Word32 32) : (c.setV r x).pages = c.pages := rfl
@[simp] theorem Tile.setV_mx (c : Tile) (r : VReg) (x : Vector Word32 32) : (c.setV r x).mx = c.mx := rfl
@[simp] theorem Tile.setV_slabs (c : Tile) (r : VReg) (x : Vector Word32 32) : (c.setV r x).slabs = c.slabs := rfl
@[simp] theorem Tile.setV_mv (c : Tile) (r : VReg) (x : Vector Word32 32) : (c.setV r x).mv = c.mv := rfl
@[simp] theorem Tile.setV_sd (c : Tile) (r : VReg) (x : Vector Word32 32) : (c.setV r x).sd = c.sd := rfl
@[simp] theorem Tile.setV_rn (c : Tile) (r : VReg) (x : Vector Word32 32) : (c.setV r x).rn = c.rn := rfl
@[simp] theorem Tile.setV_rc (c : Tile) (r : VReg) (x : Vector Word32 32) : (c.setV r x).rc = c.rc := rfl
@[simp] theorem Tile.setV_nt (c : Tile) (r : VReg) (x : Vector Word32 32) : (c.setV r x).nt = c.nt := rfl

/-! ### Tile.pendScalar -/
@[simp] theorem Tile.pendScalar_mem (c : Tile) (r : SReg) (b : Bool) : (c.pendScalar r b).mem = c.mem :=
  by unfold Tile.pendScalar; split <;> rfl
@[simp] theorem Tile.pendScalar_rings (c : Tile) (r : SReg) (b : Bool) : (c.pendScalar r b).rings = c.rings :=
  by unfold Tile.pendScalar; split <;> rfl
@[simp] theorem Tile.pendScalar_pages (c : Tile) (r : SReg) (b : Bool) : (c.pendScalar r b).pages = c.pages :=
  by unfold Tile.pendScalar; split <;> rfl
@[simp] theorem Tile.pendScalar_mx (c : Tile) (r : SReg) (b : Bool) : (c.pendScalar r b).mx = c.mx :=
  by unfold Tile.pendScalar; split <;> rfl
@[simp] theorem Tile.pendScalar_slabs (c : Tile) (r : SReg) (b : Bool) : (c.pendScalar r b).slabs = c.slabs :=
  by unfold Tile.pendScalar; split <;> rfl
@[simp] theorem Tile.pendScalar_mv (c : Tile) (r : SReg) (b : Bool) : (c.pendScalar r b).mv = c.mv :=
  by unfold Tile.pendScalar; split <;> rfl
@[simp] theorem Tile.pendScalar_sd (c : Tile) (r : SReg) (b : Bool) : (c.pendScalar r b).sd = c.sd :=
  by unfold Tile.pendScalar; split <;> rfl
@[simp] theorem Tile.pendScalar_rn (c : Tile) (r : SReg) (b : Bool) : (c.pendScalar r b).rn = c.rn :=
  by unfold Tile.pendScalar; split <;> rfl
@[simp] theorem Tile.pendScalar_rc (c : Tile) (r : SReg) (b : Bool) : (c.pendScalar r b).rc = c.rc :=
  by unfold Tile.pendScalar; split <;> rfl
@[simp] theorem Tile.pendScalar_nt (c : Tile) (r : SReg) (b : Bool) : (c.pendScalar r b).nt = c.nt :=
  by unfold Tile.pendScalar; split <;> rfl

/-! ### Tile.pendVector -/
@[simp] theorem Tile.pendVector_mem (c : Tile) (r : VReg) (b : Bool) : (c.pendVector r b).mem = c.mem := rfl
@[simp] theorem Tile.pendVector_rings (c : Tile) (r : VReg) (b : Bool) : (c.pendVector r b).rings = c.rings := rfl
@[simp] theorem Tile.pendVector_pages (c : Tile) (r : VReg) (b : Bool) : (c.pendVector r b).pages = c.pages := rfl
@[simp] theorem Tile.pendVector_mx (c : Tile) (r : VReg) (b : Bool) : (c.pendVector r b).mx = c.mx := rfl
@[simp] theorem Tile.pendVector_slabs (c : Tile) (r : VReg) (b : Bool) : (c.pendVector r b).slabs = c.slabs := rfl
@[simp] theorem Tile.pendVector_mv (c : Tile) (r : VReg) (b : Bool) : (c.pendVector r b).mv = c.mv := rfl
@[simp] theorem Tile.pendVector_sd (c : Tile) (r : VReg) (b : Bool) : (c.pendVector r b).sd = c.sd := rfl
@[simp] theorem Tile.pendVector_rn (c : Tile) (r : VReg) (b : Bool) : (c.pendVector r b).rn = c.rn := rfl
@[simp] theorem Tile.pendVector_rc (c : Tile) (r : VReg) (b : Bool) : (c.pendVector r b).rc = c.rc := rfl
@[simp] theorem Tile.pendVector_nt (c : Tile) (r : VReg) (b : Bool) : (c.pendVector r b).nt = c.nt := rfl

/-! ### Tile.resume -/
@[simp] theorem Tile.resume_mem (c : Tile) : (c.resume).mem = c.mem := rfl
@[simp] theorem Tile.resume_rings (c : Tile) : (c.resume).rings = c.rings := rfl
@[simp] theorem Tile.resume_pages (c : Tile) : (c.resume).pages = c.pages := rfl
@[simp] theorem Tile.resume_mx (c : Tile) : (c.resume).mx = c.mx := rfl
@[simp] theorem Tile.resume_slabs (c : Tile) : (c.resume).slabs = c.slabs := rfl
@[simp] theorem Tile.resume_mv (c : Tile) : (c.resume).mv = c.mv := rfl
@[simp] theorem Tile.resume_sd (c : Tile) : (c.resume).sd = c.sd := rfl
@[simp] theorem Tile.resume_rn (c : Tile) : (c.resume).rn = c.rn := rfl
@[simp] theorem Tile.resume_rc (c : Tile) : (c.resume).rc = c.rc := rfl
@[simp] theorem Tile.resume_nt (c : Tile) : (c.resume).nt = c.nt := rfl

/-! ### Tile.setWait -/
@[simp] theorem Tile.setWait_core (c : Tile) (w : Bool) (a : BitVec 3) (p : Nat) :
    (c.setWait w a p).core = { c.core with pageWait := some (w, a, BitVec.ofNat 9 p) } := rfl
@[simp] theorem Tile.setWait_pages (c : Tile) (w : Bool) (a : BitVec 3) (p : Nat) : (c.setWait w a p).pages = c.pages := rfl
@[simp] theorem Tile.setWait_mem (c : Tile) (w : Bool) (a : BitVec 3) (p : Nat) : (c.setWait w a p).mem = c.mem := rfl
@[simp] theorem Tile.setWait_rings (c : Tile) (w : Bool) (a : BitVec 3) (p : Nat) : (c.setWait w a p).rings = c.rings := rfl
@[simp] theorem Tile.setWait_mx (c : Tile) (w : Bool) (a : BitVec 3) (p : Nat) : (c.setWait w a p).mx = c.mx := rfl
@[simp] theorem Tile.setWait_slabs (c : Tile) (w : Bool) (a : BitVec 3) (p : Nat) : (c.setWait w a p).slabs = c.slabs := rfl
@[simp] theorem Tile.setWait_mv (c : Tile) (w : Bool) (a : BitVec 3) (p : Nat) : (c.setWait w a p).mv = c.mv := rfl
@[simp] theorem Tile.setWait_sd (c : Tile) (w : Bool) (a : BitVec 3) (p : Nat) : (c.setWait w a p).sd = c.sd := rfl
@[simp] theorem Tile.setWait_rn (c : Tile) (w : Bool) (a : BitVec 3) (p : Nat) : (c.setWait w a p).rn = c.rn := rfl
@[simp] theorem Tile.setWait_rc (c : Tile) (w : Bool) (a : BitVec 3) (p : Nat) : (c.setWait w a p).rc = c.rc := rfl
@[simp] theorem Tile.setWait_nt (c : Tile) (w : Bool) (a : BitVec 3) (p : Nat) : (c.setWait w a p).nt = c.nt := rfl

/-! ### Tile.setEntry -/
@[simp] theorem Tile.setEntry_core (c : Tile) (n : Nat) (e : PageEntry) : (c.setEntry n e).core = c.core := rfl
@[simp] theorem Tile.setEntry_mem (c : Tile) (n : Nat) (e : PageEntry) : (c.setEntry n e).mem = c.mem := rfl
@[simp] theorem Tile.setEntry_rings (c : Tile) (n : Nat) (e : PageEntry) : (c.setEntry n e).rings = c.rings := rfl
@[simp] theorem Tile.setEntry_mx (c : Tile) (n : Nat) (e : PageEntry) : (c.setEntry n e).mx = c.mx := rfl
@[simp] theorem Tile.setEntry_slabs (c : Tile) (n : Nat) (e : PageEntry) : (c.setEntry n e).slabs = c.slabs := rfl
@[simp] theorem Tile.setEntry_mv (c : Tile) (n : Nat) (e : PageEntry) : (c.setEntry n e).mv = c.mv := rfl
@[simp] theorem Tile.setEntry_sd (c : Tile) (n : Nat) (e : PageEntry) : (c.setEntry n e).sd = c.sd := rfl
@[simp] theorem Tile.setEntry_rn (c : Tile) (n : Nat) (e : PageEntry) : (c.setEntry n e).rn = c.rn := rfl
@[simp] theorem Tile.setEntry_rc (c : Tile) (n : Nat) (e : PageEntry) : (c.setEntry n e).rc = c.rc := rfl
@[simp] theorem Tile.setEntry_nt (c : Tile) (n : Nat) (e : PageEntry) : (c.setEntry n e).nt = c.nt := rfl

/-! ### Tile.setRing -/
@[simp] theorem Tile.setRing_core (c : Tile) (r : RingNo) (x : Ring) : (c.setRing r x).core = c.core := rfl
@[simp] theorem Tile.setRing_mem (c : Tile) (r : RingNo) (x : Ring) : (c.setRing r x).mem = c.mem := rfl
@[simp] theorem Tile.setRing_pages (c : Tile) (r : RingNo) (x : Ring) : (c.setRing r x).pages = c.pages := rfl
@[simp] theorem Tile.setRing_mx (c : Tile) (r : RingNo) (x : Ring) : (c.setRing r x).mx = c.mx := rfl
@[simp] theorem Tile.setRing_slabs (c : Tile) (r : RingNo) (x : Ring) : (c.setRing r x).slabs = c.slabs := rfl
@[simp] theorem Tile.setRing_mv (c : Tile) (r : RingNo) (x : Ring) : (c.setRing r x).mv = c.mv := rfl
@[simp] theorem Tile.setRing_sd (c : Tile) (r : RingNo) (x : Ring) : (c.setRing r x).sd = c.sd := rfl
@[simp] theorem Tile.setRing_rn (c : Tile) (r : RingNo) (x : Ring) : (c.setRing r x).rn = c.rn := rfl
@[simp] theorem Tile.setRing_rc (c : Tile) (r : RingNo) (x : Ring) : (c.setRing r x).rc = c.rc := rfl
@[simp] theorem Tile.setRing_nt (c : Tile) (r : RingNo) (x : Ring) : (c.setRing r x).nt = c.nt := rfl

/-! ### Tile.modRing -/
@[simp] theorem Tile.modRing_core (c : Tile) (r : RingNo) (f : Ring → Ring) : (c.modRing r f).core = c.core := rfl
@[simp] theorem Tile.modRing_mem (c : Tile) (r : RingNo) (f : Ring → Ring) : (c.modRing r f).mem = c.mem := rfl
@[simp] theorem Tile.modRing_pages (c : Tile) (r : RingNo) (f : Ring → Ring) : (c.modRing r f).pages = c.pages := rfl
@[simp] theorem Tile.modRing_mx (c : Tile) (r : RingNo) (f : Ring → Ring) : (c.modRing r f).mx = c.mx := rfl
@[simp] theorem Tile.modRing_slabs (c : Tile) (r : RingNo) (f : Ring → Ring) : (c.modRing r f).slabs = c.slabs := rfl
@[simp] theorem Tile.modRing_mv (c : Tile) (r : RingNo) (f : Ring → Ring) : (c.modRing r f).mv = c.mv := rfl
@[simp] theorem Tile.modRing_sd (c : Tile) (r : RingNo) (f : Ring → Ring) : (c.modRing r f).sd = c.sd := rfl
@[simp] theorem Tile.modRing_rn (c : Tile) (r : RingNo) (f : Ring → Ring) : (c.modRing r f).rn = c.rn := rfl
@[simp] theorem Tile.modRing_rc (c : Tile) (r : RingNo) (f : Ring → Ring) : (c.modRing r f).rc = c.rc := rfl
@[simp] theorem Tile.modRing_nt (c : Tile) (r : RingNo) (f : Ring → Ring) : (c.modRing r f).nt = c.nt := rfl

/-! ### Tile.setMember -/
@[simp] theorem Tile.setMember_core (c : Tile) (g : Nat) (m : Member) : (c.setMember g m).core = c.core := rfl
@[simp] theorem Tile.setMember_mem (c : Tile) (g : Nat) (m : Member) : (c.setMember g m).mem = c.mem := rfl
@[simp] theorem Tile.setMember_rings (c : Tile) (g : Nat) (m : Member) : (c.setMember g m).rings = c.rings := rfl
@[simp] theorem Tile.setMember_pages (c : Tile) (g : Nat) (m : Member) : (c.setMember g m).pages = c.pages := rfl
@[simp] theorem Tile.setMember_mx (c : Tile) (g : Nat) (m : Member) : (c.setMember g m).mx = c.mx := rfl
@[simp] theorem Tile.setMember_slabs (c : Tile) (g : Nat) (m : Member) : (c.setMember g m).slabs = c.slabs := rfl
@[simp] theorem Tile.setMember_mv (c : Tile) (g : Nat) (m : Member) : (c.setMember g m).mv = c.mv := rfl
@[simp] theorem Tile.setMember_rn (c : Tile) (g : Nat) (m : Member) : (c.setMember g m).rn = c.rn := rfl
@[simp] theorem Tile.setMember_rc (c : Tile) (g : Nat) (m : Member) : (c.setMember g m).rc = c.rc := rfl
@[simp] theorem Tile.setMember_nt (c : Tile) (g : Nat) (m : Member) : (c.setMember g m).nt = c.nt := rfl

/-! ### Tile.pushMx -/
@[simp] theorem Tile.pushMx_core (c : Tile) (i : MxItem) : (c.pushMx i).core = c.core := rfl
@[simp] theorem Tile.pushMx_mem (c : Tile) (i : MxItem) : (c.pushMx i).mem = c.mem := rfl
@[simp] theorem Tile.pushMx_rings (c : Tile) (i : MxItem) : (c.pushMx i).rings = c.rings := rfl
@[simp] theorem Tile.pushMx_pages (c : Tile) (i : MxItem) : (c.pushMx i).pages = c.pages := rfl
@[simp] theorem Tile.pushMx_slabs (c : Tile) (i : MxItem) : (c.pushMx i).slabs = c.slabs := rfl
@[simp] theorem Tile.pushMx_mv (c : Tile) (i : MxItem) : (c.pushMx i).mv = c.mv := rfl
@[simp] theorem Tile.pushMx_sd (c : Tile) (i : MxItem) : (c.pushMx i).sd = c.sd := rfl
@[simp] theorem Tile.pushMx_rn (c : Tile) (i : MxItem) : (c.pushMx i).rn = c.rn := rfl
@[simp] theorem Tile.pushMx_rc (c : Tile) (i : MxItem) : (c.pushMx i).rc = c.rc := rfl
@[simp] theorem Tile.pushMx_nt (c : Tile) (i : MxItem) : (c.pushMx i).nt = c.nt := rfl

/-! ### Tile.pushRn -/
@[simp] theorem Tile.pushRn_core (c : Tile) (i : RnItem) : (c.pushRn i).core = c.core := rfl
@[simp] theorem Tile.pushRn_mem (c : Tile) (i : RnItem) : (c.pushRn i).mem = c.mem := rfl
@[simp] theorem Tile.pushRn_rings (c : Tile) (i : RnItem) : (c.pushRn i).rings = c.rings := rfl
@[simp] theorem Tile.pushRn_pages (c : Tile) (i : RnItem) : (c.pushRn i).pages = c.pages := rfl
@[simp] theorem Tile.pushRn_mx (c : Tile) (i : RnItem) : (c.pushRn i).mx = c.mx := rfl
@[simp] theorem Tile.pushRn_slabs (c : Tile) (i : RnItem) : (c.pushRn i).slabs = c.slabs := rfl
@[simp] theorem Tile.pushRn_mv (c : Tile) (i : RnItem) : (c.pushRn i).mv = c.mv := rfl
@[simp] theorem Tile.pushRn_sd (c : Tile) (i : RnItem) : (c.pushRn i).sd = c.sd := rfl
@[simp] theorem Tile.pushRn_rc (c : Tile) (i : RnItem) : (c.pushRn i).rc = c.rc := rfl
@[simp] theorem Tile.pushRn_nt (c : Tile) (i : RnItem) : (c.pushRn i).nt = c.nt := rfl

/-! ### Tile.setRun -/
@[simp] theorem Tile.setRun_core (c : Tile) (slot : Nat) (r : Option MvRun) : (c.setRun slot r).core = c.core := rfl
@[simp] theorem Tile.setRun_mem (c : Tile) (slot : Nat) (r : Option MvRun) : (c.setRun slot r).mem = c.mem := rfl
@[simp] theorem Tile.setRun_rings (c : Tile) (slot : Nat) (r : Option MvRun) : (c.setRun slot r).rings = c.rings := rfl
@[simp] theorem Tile.setRun_pages (c : Tile) (slot : Nat) (r : Option MvRun) : (c.setRun slot r).pages = c.pages := rfl
@[simp] theorem Tile.setRun_mx (c : Tile) (slot : Nat) (r : Option MvRun) : (c.setRun slot r).mx = c.mx := rfl
@[simp] theorem Tile.setRun_slabs (c : Tile) (slot : Nat) (r : Option MvRun) : (c.setRun slot r).slabs = c.slabs := rfl
@[simp] theorem Tile.setRun_sd (c : Tile) (slot : Nat) (r : Option MvRun) : (c.setRun slot r).sd = c.sd := rfl
@[simp] theorem Tile.setRun_rn (c : Tile) (slot : Nat) (r : Option MvRun) : (c.setRun slot r).rn = c.rn := rfl
@[simp] theorem Tile.setRun_rc (c : Tile) (slot : Nat) (r : Option MvRun) : (c.setRun slot r).rc = c.rc := rfl
@[simp] theorem Tile.setRun_nt (c : Tile) (slot : Nat) (r : Option MvRun) : (c.setRun slot r).nt = c.nt := rfl

/-! ### Tile.modSend -/
@[simp] theorem Tile.modSend_core (c : Tile) (id : Nat) (f : SdItem → SdItem) : (c.modSend id f).core = c.core := rfl
@[simp] theorem Tile.modSend_mem (c : Tile) (id : Nat) (f : SdItem → SdItem) : (c.modSend id f).mem = c.mem := rfl
@[simp] theorem Tile.modSend_rings (c : Tile) (id : Nat) (f : SdItem → SdItem) : (c.modSend id f).rings = c.rings := rfl
@[simp] theorem Tile.modSend_pages (c : Tile) (id : Nat) (f : SdItem → SdItem) : (c.modSend id f).pages = c.pages := rfl
@[simp] theorem Tile.modSend_mx (c : Tile) (id : Nat) (f : SdItem → SdItem) : (c.modSend id f).mx = c.mx := rfl
@[simp] theorem Tile.modSend_slabs (c : Tile) (id : Nat) (f : SdItem → SdItem) : (c.modSend id f).slabs = c.slabs := rfl
@[simp] theorem Tile.modSend_mv (c : Tile) (id : Nat) (f : SdItem → SdItem) : (c.modSend id f).mv = c.mv := rfl
@[simp] theorem Tile.modSend_rn (c : Tile) (id : Nat) (f : SdItem → SdItem) : (c.modSend id f).rn = c.rn := rfl
@[simp] theorem Tile.modSend_rc (c : Tile) (id : Nat) (f : SdItem → SdItem) : (c.modSend id f).rc = c.rc := rfl
@[simp] theorem Tile.modSend_nt (c : Tile) (id : Nat) (f : SdItem → SdItem) : (c.modSend id f).nt = c.nt := rfl

/-! ### Reads after writes -/
@[simp] theorem State.queue_setQueue (s : State) (i : Nat) (x : Queue) : (s.setQueue i x).queue i = x := by
  simp [State.queue, State.setQueue]
@[simp] theorem State.queue_setQueue_other (s : State) {i j : Nat} (x : Queue) (h : j ≠ i) : (s.setQueue i x).queue j = s.queue j := by
  simp [State.queue, State.setQueue, h]
@[simp] theorem State.partner_setPartner (s : State) (i : Nat) (x : Partner) : (s.setPartner i x).partner i = x := by
  simp [State.partner, State.setPartner]
@[simp] theorem State.partner_setPartner_other (s : State) {i j : Nat} (x : Partner) (h : j ≠ i) : (s.setPartner i x).partner j = s.partner j := by
  simp [State.partner, State.setPartner, h]
@[simp] theorem State.road_setRoad (s : State) (i : Nat) (x : Road) : (s.setRoad i x).road i = x := by
  simp [State.road, State.setRoad]
@[simp] theorem State.road_setRoad_other (s : State) {i j : Nat} (x : Road) (h : j ≠ i) : (s.setRoad i x).road j = s.road j := by
  simp [State.road, State.setRoad, h]
@[simp] theorem State.ethPort_setEth (s : State) (i : Nat) (x : EthPort) : (s.setEth i x).ethPort i = x := by
  simp [State.ethPort, State.setEth]
@[simp] theorem State.ethPort_setEth_other (s : State) {i j : Nat} (x : EthPort) (h : j ≠ i) : (s.setEth i x).ethPort j = s.ethPort j := by
  simp [State.ethPort, State.setEth, h]
@[simp] theorem State.ethCtx_setCtx (s : State) (i : Nat) (x : EthCtx) : (s.setCtx i x).ethCtx i = x := by
  simp [State.ethCtx, State.setCtx]
@[simp] theorem State.ethCtx_setCtx_other (s : State) {i j : Nat} (x : EthCtx) (h : j ≠ i) : (s.setCtx i x).ethCtx j = s.ethCtx j := by
  simp [State.ethCtx, State.setCtx, h]
@[simp] theorem State.bench_setBench (s : State) (i : Nat) (x : BenchClock) : (s.setBench i x).bench i = x := by
  simp [State.bench, State.setBench]
@[simp] theorem State.bench_setBench_other (s : State) {i j : Nat} (x : BenchClock) (h : j ≠ i) : (s.setBench i x).bench j = s.bench j := by
  simp [State.bench, State.setBench, h]
@[simp] theorem State.row_setRow (s : State) (i : Nat) (x : RowRepair) : (s.setRow i x).row i = x := by
  simp [State.row, State.setRow]
@[simp] theorem State.row_setRow_other (s : State) {i j : Nat} (x : RowRepair) (h : j ≠ i) : (s.setRow i x).row j = s.row j := by
  simp [State.row, State.setRow, h]
@[simp] theorem State.slot_setSlot (s : State) (i : Nat) (x : List Byte) : (s.setSlot i x).slot i = x := by
  simp [State.slot, State.setSlot]
@[simp] theorem State.slot_setSlot_other (s : State) {i j : Nat} (x : List Byte) (h : j ≠ i) : (s.setSlot i x).slot j = s.slot j := by
  simp [State.slot, State.setSlot, h]
@[simp] theorem State.group_setGroup (s : State) (i : Nat) (x : BellGroup) : (s.setGroup i x).group i = x := by
  simp [State.group, State.setGroup]
@[simp] theorem State.group_setGroup_other (s : State) {i j : Nat} (x : BellGroup) (h : j ≠ i) : (s.setGroup i x).group j = s.group j := by
  simp [State.group, State.setGroup, h]
@[simp] theorem State.scaleEntry_setScaleEntry (s : State) (i : Nat) (x : ScaleEntry) : (s.setScaleEntry i x).scaleEntry i = x := by
  simp [State.scaleEntry, State.setScaleEntry]
@[simp] theorem State.scaleEntry_setScaleEntry_other (s : State) {i j : Nat} (x : ScaleEntry) (h : j ≠ i) : (s.setScaleEntry i x).scaleEntry j = s.scaleEntry j := by
  simp [State.scaleEntry, State.setScaleEntry, h]
@[simp] theorem State.now_setTime (s : State) (ns : Nat) : (s.setTime ns).now = ns := by
  simp only [State.now, State.setTime]
  omega
@[simp] theorem State.msix_setMsix_masked (s : State) (v : Nat) (x : MsixEntry) (h : x.unmasked = false) :
    (s.setMsix v x).msix v = x := by
  simp [State.setMsix, State.msix, h]

end Sys2Proof.Machine
end

