-- ==== Sys2Proof/Laws/Engine.lean ====
section
/-! SUPPORT. What one step of a tile's engine can do beyond its own effect (R131, R357), and when a tile takes an instruction. -/
namespace Sys2Proof.Machine

theorem OnlyTile.refl (s : State) (t : Nat) : OnlyTile s s t := ⟨rfl, fun _ _ => rfl⟩

theorem OnlyTile.trans {a b c : State} {t : Nat} (h1 : OnlyTile a b t) (h2 : OnlyTile b c t) : OnlyTile a c t := by
  obtain ⟨e1, u1⟩ := h1
  obtain ⟨e2, u2⟩ := h2
  refine ⟨?_, fun u hu => (u2 u hu).trans (u1 u hu)⟩
  rw [e2, e1]

theorem Noted.refl (c : Tile) : Noted c c := ⟨rfl, fun _ => rfl⟩

theorem Noted.trans {a b c : Tile} (h1 : Noted a b) (h2 : Noted b c) : Noted a c := by
  obtain ⟨e1, m1⟩ := h1
  obtain ⟨e2, m2⟩ := h2
  refine ⟨?_, fun g => ?_⟩
  · rw [e2, e1]
  · have x := m1 g
    have y := m2 g
    dsimp only at x y ⊢
    rw [y, x]

@[simp] theorem Tile.member_setMember (c : Tile) (g : Nat) (m : Member) : (c.setMember g m).member g = m := by
  simp [Tile.member, Tile.setMember]
@[simp] theorem Tile.member_setMember_other (c : Tile) {g k : Nat} (m : Member) (h : k ≠ g) :
    (c.setMember g m).member k = c.member k := by
  simp [Tile.member, Tile.setMember, h]

/-- Noting a member's arrival or condition changes those notes only. -/
theorem Noted.setMember (c : Tile) (g : Nat) (m : Member)
    (h : m = { c.member g with arriveTime := m.arriveTime, counted := m.counted, met := m.met, metTime := m.metTime }) :
    Noted c (c.setMember g m) := by
  refine ⟨rfl, fun k => ?_⟩
  by_cases hk : k = g
  · subst hk
    dsimp only
    rw [Tile.member_setMember]
    exact h
  · dsimp only
    rw [Tile.member_setMember_other _ _ hk]

/-- Storing a member's new notes. -/
theorem Noted.store (s : State) (t g : Nat) (m : Member)
    (h : m = { (s.tile t).member g with arriveTime := m.arriveTime, counted := m.counted, met := m.met, metTime := m.metTime }) :
    let s' := if m = (s.tile t).member g then s else s.setTile t ((s.tile t).setMember g m)
    OnlyTile s s' t ∧ Noted (s.tile t) (s'.tile t) := by
  dsimp only
  split
  · exact ⟨OnlyTile.refl s t, Noted.refl _⟩
  · rw [State.tile_setTile]
    exact ⟨OnlyTile.setTile .., Noted.setMember _ _ _ h⟩

/-- A run of such stores. -/
theorem Noted.foldl {f : State → Nat → State} {t : Nat}
    (hf : ∀ a g, OnlyTile a (f a g) t ∧ Noted (a.tile t) ((f a g).tile t)) (l : List Nat) (s : State) :
    OnlyTile s (l.foldl f s) t ∧ Noted (s.tile t) ((l.foldl f s).tile t) := by
  induction l generalizing s with
  | nil => exact ⟨OnlyTile.refl s t, Noted.refl _⟩
  | cons g l ih =>
    obtain ⟨k1, k2⟩ := hf s g
    obtain ⟨h1, h2⟩ := ih (f s g)
    exact ⟨k1.trans h1, k2.trans h2⟩

/-- What `noteMet` does: it changes no tile but its own, and of that one the bell members' notes. -/
theorem State.noteMet_spec (s : State) (t : Nat) : OnlyTile s (s.noteMet t) t ∧ Noted (s.tile t) ((s.noteMet t).tile t) := by
  unfold State.noteMet
  exact Noted.foldl (fun a g => Noted.store a t g _ (by dsimp only; split <;> split <;> rfl)) _ s

/-- An engine step of a tile that works runs its effect, and notes what its bells' members meet. -/
theorem engineStep_works {s : State} {t : Nat} (f : State → Nat → State) (h : s.works t = true) :
    engineStep t f s = .next ((f s t).noteMet t) := by
  simp only [State.works, Bool.and_eq_true, decide_eq_true_eq, Bool.not_eq_eq_eq_not, Bool.not_true] at h
  obtain ⟨⟨h1, h2⟩, h3⟩ := h
  have : ¬ tileCount ≤ t := by omega
  simp [engineStep, this, h2, h3]

/-- An engine step whose effect leaves the tile as c has worked. -/
theorem worked_of {s a : State} {t : Nat} {c : Tile} (h : OnlyTile s a t) (hc : a.tile t = c) : Worked s (a.noteMet t) t c := by
  obtain ⟨h1, h2⟩ := State.noteMet_spec a t
  exact ⟨h.trans h1, hc ▸ h2⟩

/-- A tile that takes an instruction that waits for some registers also takes one that waits for fewer. -/
theorem takes_mono {s : State} {t : Nat} {ss ss' : List SReg} {vs vs' : List VReg} (h : s.takes t ss vs = true)
    (h1 : ∀ r ∈ ss', r ∈ ss) (h2 : ∀ r ∈ vs', r ∈ vs) : s.takes t ss' vs' = true := by
  unfold State.takes at *
  simp only [Bool.and_eq_true, Bool.not_eq_eq_eq_not, Bool.not_true] at *
  refine ⟨h.1, ?_⟩
  have hp := h.2
  unfold Tile.anyPending at *
  simp only [Bool.or_eq_false_iff, List.any_eq_false] at *
  exact ⟨fun r hr => hp.1 r (h1 r hr), fun r hr => hp.2 r (h2 r hr)⟩

end Sys2Proof.Machine
end

