-- ==== Sys2Proof/Laws/Host.lean ====
section
/-! SUPPORT. What starting, ending and completing a command can do, and what events leave as it was (R379, R394, R404, R405, R408). -/
namespace Sys2Proof.Machine

/-- A packet that starts runs its row. -/
theorem startHeld_starts {s : State} {op n : Nat} {h : Held} (k : State → Held → State) (hs : s.starts op n h) :
    startHeld op n k s = .next (k s h) := by
  obtain ⟨h1, h2, h3, h4⟩ := hs
  simp [startHeld, h1, h2, h3, h4]

/-- A packet under way takes the row that ends it. -/
theorem endHeld_underway {s : State} {op n : Nat} {h : Held} (k : State → Held → State) (hs : s.underway op n h) :
    endHeld op n k s = .next (k s h) := by
  obtain ⟨h1, h2, h3⟩ := hs
  simp [endHeld, h1, h2, h3]

/-- A row of a command always answers a next state. -/
theorem startHeld_next (op n : Nat) (k : State → Held → State) (s : State) : ∃ s', startHeld op n k s = .next s' := by
  unfold startHeld
  split <;> (try split) <;> exact ⟨_, rfl⟩
theorem endHeld_next (op n : Nat) (k : State → Held → State) (s : State) : ∃ s', endHeld op n k s = .next s' := by
  unfold endHeld
  split <;> (try split) <;> exact ⟨_, rfl⟩

/-- A held command that completes is held no more, and its completion waits. -/
theorem complete_completed {s : State} {n : Nat} {h : Held} (st : CmdStatus) (detail result : Nat) (replayed : Bool)
    (hh : s.held? n = some h) : Completed (s.complete n st detail result replayed) n h st := by
  unfold State.complete Completed
  simp only [hh]
  refine ⟨?_, _, List.mem_append_right _ (List.mem_singleton.mpr rfl), rfl, rfl, rfl, rfl, rfl⟩
  simp [State.held?, List.find?_eq_none]

/-- The command goes on in a later row. -/
theorem held_setRunning {s : State} {n : Nat} {h : Held} (hh : s.held? n = some h) :
    (s.setRunning n).held? n = some { h with phase := .running } := by
  have e : ∀ l : List Held, (l.find? fun x => x.n == n) = some h →
      ((l.map fun x => if x.n = n then { x with phase := .running } else x).find? fun x => x.n == n)
        = some { h with phase := .running } := by
    intro l
    induction l with
    | nil => simp
    | cons x xs ih =>
      intro hx
      by_cases hn : x.n = n
      · simp [hn] at hx
        subst hx
        simp [hn]
      · rw [List.find?_cons_of_neg (by simp [hn])] at hx
        rw [List.map_cons, if_neg hn, List.find?_cons_of_neg (by simp [hn])]
        exact ih hx
  exact e _ hh

/-! ### complete -/
@[simp] theorem State.complete_pending (s : State) (n : Nat) (st : CmdStatus) (detail result : Nat) (replayed : Bool) : (s.complete n st detail result replayed).pending = s.pending := by
  unfold State.complete; split <;> rfl
@[simp] theorem State.complete_freeCtr (s : State) (n : Nat) (st : CmdStatus) (detail result : Nat) (replayed : Bool) : (s.complete n st detail result replayed).freeCtr = s.freeCtr := by
  unfold State.complete; split <;> rfl
@[simp] theorem State.complete_clock (s : State) (n : Nat) (st : CmdStatus) (detail result : Nat) (replayed : Bool) : (s.complete n st detail result replayed).clock = s.clock := by
  unfold State.complete; split <;> rfl
@[simp] theorem State.complete_tiles (s : State) (n : Nat) (st : CmdStatus) (detail result : Nat) (replayed : Bool) : (s.complete n st detail result replayed).tiles = s.tiles := by
  unfold State.complete; split <;> rfl
@[simp] theorem State.complete_bell (s : State) (n : Nat) (st : CmdStatus) (detail result : Nat) (replayed : Bool) : (s.complete n st detail result replayed).bell = s.bell := by
  unfold State.complete; split <;> rfl
@[simp] theorem State.complete_step (s : State) (n : Nat) (st : CmdStatus) (detail result : Nat) (replayed : Bool) : (s.complete n st detail result replayed).step = s.step := by
  unfold State.complete; split <;> rfl
@[simp] theorem State.complete_image (s : State) (n : Nat) (st : CmdStatus) (detail result : Nat) (replayed : Bool) : (s.complete n st detail result replayed).image = s.image := by
  unfold State.complete; split <;> rfl
@[simp] theorem State.complete_runnable (s : State) (n : Nat) (st : CmdStatus) (detail result : Nat) (replayed : Bool) : (s.complete n st detail result replayed).runnable = s.runnable := by
  unfold State.complete; split <;> rfl
@[simp] theorem State.complete_unshadowed (s : State) (n : Nat) (st : CmdStatus) (detail result : Nat) (replayed : Bool) : (s.complete n st detail result replayed).unshadowed = s.unshadowed := by
  unfold State.complete; split <;> rfl
@[simp] theorem State.complete_expertCode (s : State) (n : Nat) (st : CmdStatus) (detail result : Nat) (replayed : Bool) : (s.complete n st detail result replayed).expertCode = s.expertCode := by
  unfold State.complete; split <;> rfl
@[simp] theorem State.complete_lastDone (s : State) (n : Nat) (st : CmdStatus) (detail result : Nat) (replayed : Bool) : (s.complete n st detail result replayed).lastDone = s.lastDone := by
  unfold State.complete; split <;> rfl
@[simp] theorem State.complete_scale (s : State) (n : Nat) (st : CmdStatus) (detail result : Nat) (replayed : Bool) : (s.complete n st detail result replayed).scale = s.scale := by
  unfold State.complete; split <;> rfl
@[simp] theorem State.complete_random (s : State) (n : Nat) (st : CmdStatus) (detail result : Nat) (replayed : Bool) : (s.complete n st detail result replayed).random = s.random := by
  unfold State.complete; split <;> rfl
@[simp] theorem State.complete_train (s : State) (n : Nat) (st : CmdStatus) (detail result : Nat) (replayed : Bool) : (s.complete n st detail result replayed).train = s.train := by
  unfold State.complete; split <;> rfl
@[simp] theorem State.complete_seqWindow (s : State) (n : Nat) (st : CmdStatus) (detail result : Nat) (replayed : Bool) : (s.complete n st detail result replayed).seqWindow = s.seqWindow := by
  unfold State.complete; split <;> rfl
@[simp] theorem State.complete_mm (s : State) (n : Nat) (st : CmdStatus) (detail result : Nat) (replayed : Bool) : (s.complete n st detail result replayed).mm = s.mm := by
  unfold State.complete; split <;> rfl
@[simp] theorem State.complete_link (s : State) (n : Nat) (st : CmdStatus) (detail result : Nat) (replayed : Bool) : (s.complete n st detail result replayed).link = s.link := by
  unfold State.complete; split <;> rfl
@[simp] theorem State.complete_res (s : State) (n : Nat) (st : CmdStatus) (detail result : Nat) (replayed : Bool) : (s.complete n st detail result replayed).res = s.res := by
  unfold State.complete; split <;> rfl
@[simp] theorem State.complete_pw (s : State) (n : Nat) (st : CmdStatus) (detail result : Nat) (replayed : Bool) : (s.complete n st detail result replayed).pw = s.pw := by
  unfold State.complete; split <;> rfl
@[simp] theorem State.complete_sec (s : State) (n : Nat) (st : CmdStatus) (detail result : Nat) (replayed : Bool) : (s.complete n st detail result replayed).sec = s.sec := by
  unfold State.complete; split <;> rfl
@[simp] theorem State.complete_mod (s : State) (n : Nat) (st : CmdStatus) (detail result : Nat) (replayed : Bool) : (s.complete n st detail result replayed).mod = s.mod := by
  unfold State.complete; split <;> rfl

/-! ### raiseVector -/
@[simp] theorem State.raiseVector_pending (s : State) (v : Nat) : (s.raiseVector v).pending = s.pending := by
  unfold State.raiseVector; split <;> (try split) <;> rfl
@[simp] theorem State.raiseVector_freeCtr (s : State) (v : Nat) : (s.raiseVector v).freeCtr = s.freeCtr := by
  unfold State.raiseVector; split <;> (try split) <;> rfl
@[simp] theorem State.raiseVector_clock (s : State) (v : Nat) : (s.raiseVector v).clock = s.clock := by
  unfold State.raiseVector; split <;> (try split) <;> rfl
@[simp] theorem State.raiseVector_tiles (s : State) (v : Nat) : (s.raiseVector v).tiles = s.tiles := by
  unfold State.raiseVector; split <;> (try split) <;> rfl
@[simp] theorem State.raiseVector_bell (s : State) (v : Nat) : (s.raiseVector v).bell = s.bell := by
  unfold State.raiseVector; split <;> (try split) <;> rfl
@[simp] theorem State.raiseVector_step (s : State) (v : Nat) : (s.raiseVector v).step = s.step := by
  unfold State.raiseVector; split <;> (try split) <;> rfl
@[simp] theorem State.raiseVector_image (s : State) (v : Nat) : (s.raiseVector v).image = s.image := by
  unfold State.raiseVector; split <;> (try split) <;> rfl
@[simp] theorem State.raiseVector_runnable (s : State) (v : Nat) : (s.raiseVector v).runnable = s.runnable := by
  unfold State.raiseVector; split <;> (try split) <;> rfl
@[simp] theorem State.raiseVector_unshadowed (s : State) (v : Nat) : (s.raiseVector v).unshadowed = s.unshadowed := by
  unfold State.raiseVector; split <;> (try split) <;> rfl
@[simp] theorem State.raiseVector_expertCode (s : State) (v : Nat) : (s.raiseVector v).expertCode = s.expertCode := by
  unfold State.raiseVector; split <;> (try split) <;> rfl
@[simp] theorem State.raiseVector_lastDone (s : State) (v : Nat) : (s.raiseVector v).lastDone = s.lastDone := by
  unfold State.raiseVector; split <;> (try split) <;> rfl
@[simp] theorem State.raiseVector_scale (s : State) (v : Nat) : (s.raiseVector v).scale = s.scale := by
  unfold State.raiseVector; split <;> (try split) <;> rfl
@[simp] theorem State.raiseVector_random (s : State) (v : Nat) : (s.raiseVector v).random = s.random := by
  unfold State.raiseVector; split <;> (try split) <;> rfl
@[simp] theorem State.raiseVector_train (s : State) (v : Nat) : (s.raiseVector v).train = s.train := by
  unfold State.raiseVector; split <;> (try split) <;> rfl
@[simp] theorem State.raiseVector_seqWindow (s : State) (v : Nat) : (s.raiseVector v).seqWindow = s.seqWindow := by
  unfold State.raiseVector; split <;> (try split) <;> rfl
@[simp] theorem State.raiseVector_mm (s : State) (v : Nat) : (s.raiseVector v).mm = s.mm := by
  unfold State.raiseVector; split <;> (try split) <;> rfl
@[simp] theorem State.raiseVector_link (s : State) (v : Nat) : (s.raiseVector v).link = s.link := by
  unfold State.raiseVector; split <;> (try split) <;> rfl
@[simp] theorem State.raiseVector_res (s : State) (v : Nat) : (s.raiseVector v).res = s.res := by
  unfold State.raiseVector; split <;> (try split) <;> rfl
@[simp] theorem State.raiseVector_pw (s : State) (v : Nat) : (s.raiseVector v).pw = s.pw := by
  unfold State.raiseVector; split <;> (try split) <;> rfl
@[simp] theorem State.raiseVector_sec (s : State) (v : Nat) : (s.raiseVector v).sec = s.sec := by
  unfold State.raiseVector; split <;> (try split) <;> rfl
@[simp] theorem State.raiseVector_mod (s : State) (v : Nat) : (s.raiseVector v).mod = s.mod := by
  unfold State.raiseVector; split <;> (try split) <;> rfl

/-! ### setEvent -/
@[simp] theorem State.setEvent_pending (s : State) (bit : Nat) : (s.setEvent bit).pending = s.pending := by
  unfold State.setEvent; dsimp only; split <;> simp
@[simp] theorem State.setEvent_freeCtr (s : State) (bit : Nat) : (s.setEvent bit).freeCtr = s.freeCtr := by
  unfold State.setEvent; dsimp only; split <;> simp
@[simp] theorem State.setEvent_clock (s : State) (bit : Nat) : (s.setEvent bit).clock = s.clock := by
  unfold State.setEvent; dsimp only; split <;> simp
@[simp] theorem State.setEvent_tiles (s : State) (bit : Nat) : (s.setEvent bit).tiles = s.tiles := by
  unfold State.setEvent; dsimp only; split <;> simp
@[simp] theorem State.setEvent_bell (s : State) (bit : Nat) : (s.setEvent bit).bell = s.bell := by
  unfold State.setEvent; dsimp only; split <;> simp
@[simp] theorem State.setEvent_step (s : State) (bit : Nat) : (s.setEvent bit).step = s.step := by
  unfold State.setEvent; dsimp only; split <;> simp
@[simp] theorem State.setEvent_image (s : State) (bit : Nat) : (s.setEvent bit).image = s.image := by
  unfold State.setEvent; dsimp only; split <;> simp
@[simp] theorem State.setEvent_runnable (s : State) (bit : Nat) : (s.setEvent bit).runnable = s.runnable := by
  unfold State.setEvent; dsimp only; split <;> simp
@[simp] theorem State.setEvent_unshadowed (s : State) (bit : Nat) : (s.setEvent bit).unshadowed = s.unshadowed := by
  unfold State.setEvent; dsimp only; split <;> simp
@[simp] theorem State.setEvent_expertCode (s : State) (bit : Nat) : (s.setEvent bit).expertCode = s.expertCode := by
  unfold State.setEvent; dsimp only; split <;> simp
@[simp] theorem State.setEvent_lastDone (s : State) (bit : Nat) : (s.setEvent bit).lastDone = s.lastDone := by
  unfold State.setEvent; dsimp only; split <;> simp
@[simp] theorem State.setEvent_scale (s : State) (bit : Nat) : (s.setEvent bit).scale = s.scale := by
  unfold State.setEvent; dsimp only; split <;> simp
@[simp] theorem State.setEvent_random (s : State) (bit : Nat) : (s.setEvent bit).random = s.random := by
  unfold State.setEvent; dsimp only; split <;> simp
@[simp] theorem State.setEvent_train (s : State) (bit : Nat) : (s.setEvent bit).train = s.train := by
  unfold State.setEvent; dsimp only; split <;> simp
@[simp] theorem State.setEvent_seqWindow (s : State) (bit : Nat) : (s.setEvent bit).seqWindow = s.seqWindow := by
  unfold State.setEvent; dsimp only; split <;> simp
@[simp] theorem State.setEvent_mm (s : State) (bit : Nat) : (s.setEvent bit).mm = s.mm := by
  unfold State.setEvent; dsimp only; split <;> simp
@[simp] theorem State.setEvent_link (s : State) (bit : Nat) : (s.setEvent bit).link = s.link := by
  unfold State.setEvent; dsimp only; split <;> simp
@[simp] theorem State.setEvent_res (s : State) (bit : Nat) : (s.setEvent bit).res = s.res := by
  unfold State.setEvent; dsimp only; split <;> simp
@[simp] theorem State.setEvent_pw (s : State) (bit : Nat) : (s.setEvent bit).pw = s.pw := by
  unfold State.setEvent; dsimp only; split <;> simp
@[simp] theorem State.setEvent_sec (s : State) (bit : Nat) : (s.setEvent bit).sec = s.sec := by
  unfold State.setEvent; dsimp only; split <;> simp
@[simp] theorem State.setEvent_mod (s : State) (bit : Nat) : (s.setEvent bit).mod = s.mod := by
  unfold State.setEvent; dsimp only; split <;> simp

/-! ### raise -/
@[simp] theorem State.raise_pending (s : State) (bit block : Nat) (raw : List Byte) : (s.raise bit block raw).pending = s.pending := by
  unfold State.raise; simp [State.stamp]
@[simp] theorem State.raise_freeCtr (s : State) (bit block : Nat) (raw : List Byte) : (s.raise bit block raw).freeCtr = s.freeCtr := by
  unfold State.raise; simp [State.stamp]
@[simp] theorem State.raise_clock (s : State) (bit block : Nat) (raw : List Byte) : (s.raise bit block raw).clock = s.clock := by
  unfold State.raise; simp [State.stamp]
@[simp] theorem State.raise_tiles (s : State) (bit block : Nat) (raw : List Byte) : (s.raise bit block raw).tiles = s.tiles := by
  unfold State.raise; simp [State.stamp]
@[simp] theorem State.raise_bell (s : State) (bit block : Nat) (raw : List Byte) : (s.raise bit block raw).bell = s.bell := by
  unfold State.raise; simp [State.stamp]
@[simp] theorem State.raise_step (s : State) (bit block : Nat) (raw : List Byte) : (s.raise bit block raw).step = s.step := by
  unfold State.raise; simp [State.stamp]
@[simp] theorem State.raise_image (s : State) (bit block : Nat) (raw : List Byte) : (s.raise bit block raw).image = s.image := by
  unfold State.raise; simp [State.stamp]
@[simp] theorem State.raise_runnable (s : State) (bit block : Nat) (raw : List Byte) : (s.raise bit block raw).runnable = s.runnable := by
  unfold State.raise; simp [State.stamp]
@[simp] theorem State.raise_unshadowed (s : State) (bit block : Nat) (raw : List Byte) : (s.raise bit block raw).unshadowed = s.unshadowed := by
  unfold State.raise; simp [State.stamp]
@[simp] theorem State.raise_expertCode (s : State) (bit block : Nat) (raw : List Byte) : (s.raise bit block raw).expertCode = s.expertCode := by
  unfold State.raise; simp [State.stamp]
@[simp] theorem State.raise_lastDone (s : State) (bit block : Nat) (raw : List Byte) : (s.raise bit block raw).lastDone = s.lastDone := by
  unfold State.raise; simp [State.stamp]
@[simp] theorem State.raise_scale (s : State) (bit block : Nat) (raw : List Byte) : (s.raise bit block raw).scale = s.scale := by
  unfold State.raise; simp [State.stamp]
@[simp] theorem State.raise_random (s : State) (bit block : Nat) (raw : List Byte) : (s.raise bit block raw).random = s.random := by
  unfold State.raise; simp [State.stamp]
@[simp] theorem State.raise_train (s : State) (bit block : Nat) (raw : List Byte) : (s.raise bit block raw).train = s.train := by
  unfold State.raise; simp [State.stamp]
@[simp] theorem State.raise_seqWindow (s : State) (bit block : Nat) (raw : List Byte) : (s.raise bit block raw).seqWindow = s.seqWindow := by
  unfold State.raise; simp [State.stamp]
@[simp] theorem State.raise_mm (s : State) (bit block : Nat) (raw : List Byte) : (s.raise bit block raw).mm = s.mm := by
  unfold State.raise; simp [State.stamp]
@[simp] theorem State.raise_link (s : State) (bit block : Nat) (raw : List Byte) : (s.raise bit block raw).link = s.link := by
  unfold State.raise; simp [State.stamp]
@[simp] theorem State.raise_res (s : State) (bit block : Nat) (raw : List Byte) : (s.raise bit block raw).res = s.res := by
  unfold State.raise; simp [State.stamp]
@[simp] theorem State.raise_pw (s : State) (bit block : Nat) (raw : List Byte) : (s.raise bit block raw).pw = s.pw := by
  unfold State.raise; simp [State.stamp]
@[simp] theorem State.raise_sec (s : State) (bit block : Nat) (raw : List Byte) : (s.raise bit block raw).sec = s.sec := by
  unfold State.raise; simp [State.stamp]
@[simp] theorem State.raise_mod (s : State) (bit block : Nat) (raw : List Byte) : (s.raise bit block raw).mod = s.mod := by
  unfold State.raise; simp [State.stamp]

/-! ### queueError -/
@[simp] theorem State.queueError_pending (s : State) (q : Nat) (e : BitVec 2) : (s.queueError q e).pending = s.pending := by
  unfold State.queueError; split <;> simp
@[simp] theorem State.queueError_freeCtr (s : State) (q : Nat) (e : BitVec 2) : (s.queueError q e).freeCtr = s.freeCtr := by
  unfold State.queueError; split <;> simp
@[simp] theorem State.queueError_clock (s : State) (q : Nat) (e : BitVec 2) : (s.queueError q e).clock = s.clock := by
  unfold State.queueError; split <;> simp
@[simp] theorem State.queueError_tiles (s : State) (q : Nat) (e : BitVec 2) : (s.queueError q e).tiles = s.tiles := by
  unfold State.queueError; split <;> simp
@[simp] theorem State.queueError_bell (s : State) (q : Nat) (e : BitVec 2) : (s.queueError q e).bell = s.bell := by
  unfold State.queueError; split <;> simp
@[simp] theorem State.queueError_step (s : State) (q : Nat) (e : BitVec 2) : (s.queueError q e).step = s.step := by
  unfold State.queueError; split <;> simp
@[simp] theorem State.queueError_image (s : State) (q : Nat) (e : BitVec 2) : (s.queueError q e).image = s.image := by
  unfold State.queueError; split <;> simp
@[simp] theorem State.queueError_runnable (s : State) (q : Nat) (e : BitVec 2) : (s.queueError q e).runnable = s.runnable := by
  unfold State.queueError; split <;> simp
@[simp] theorem State.queueError_unshadowed (s : State) (q : Nat) (e : BitVec 2) : (s.queueError q e).unshadowed = s.unshadowed := by
  unfold State.queueError; split <;> simp
@[simp] theorem State.queueError_expertCode (s : State) (q : Nat) (e : BitVec 2) : (s.queueError q e).expertCode = s.expertCode := by
  unfold State.queueError; split <;> simp
@[simp] theorem State.queueError_lastDone (s : State) (q : Nat) (e : BitVec 2) : (s.queueError q e).lastDone = s.lastDone := by
  unfold State.queueError; split <;> simp
@[simp] theorem State.queueError_scale (s : State) (q : Nat) (e : BitVec 2) : (s.queueError q e).scale = s.scale := by
  unfold State.queueError; split <;> simp
@[simp] theorem State.queueError_random (s : State) (q : Nat) (e : BitVec 2) : (s.queueError q e).random = s.random := by
  unfold State.queueError; split <;> simp
@[simp] theorem State.queueError_train (s : State) (q : Nat) (e : BitVec 2) : (s.queueError q e).train = s.train := by
  unfold State.queueError; split <;> simp
@[simp] theorem State.queueError_seqWindow (s : State) (q : Nat) (e : BitVec 2) : (s.queueError q e).seqWindow = s.seqWindow := by
  unfold State.queueError; split <;> simp
@[simp] theorem State.queueError_mm (s : State) (q : Nat) (e : BitVec 2) : (s.queueError q e).mm = s.mm := by
  unfold State.queueError; split <;> simp
@[simp] theorem State.queueError_link (s : State) (q : Nat) (e : BitVec 2) : (s.queueError q e).link = s.link := by
  unfold State.queueError; split <;> simp
@[simp] theorem State.queueError_res (s : State) (q : Nat) (e : BitVec 2) : (s.queueError q e).res = s.res := by
  unfold State.queueError; split <;> simp
@[simp] theorem State.queueError_pw (s : State) (q : Nat) (e : BitVec 2) : (s.queueError q e).pw = s.pw := by
  unfold State.queueError; split <;> simp
@[simp] theorem State.queueError_sec (s : State) (q : Nat) (e : BitVec 2) : (s.queueError q e).sec = s.sec := by
  unfold State.queueError; split <;> simp
@[simp] theorem State.queueError_mod (s : State) (q : Nat) (e : BitVec 2) : (s.queueError q e).mod = s.mod := by
  unfold State.queueError; split <;> simp

/-! ### memError -/
@[simp] theorem State.memError_pending (s : State) (consumer : BitVec 4) (a : Nat) : (s.memError consumer a).pending = s.pending := by
  unfold State.memError; simp
@[simp] theorem State.memError_freeCtr (s : State) (consumer : BitVec 4) (a : Nat) : (s.memError consumer a).freeCtr = s.freeCtr := by
  unfold State.memError; simp
@[simp] theorem State.memError_clock (s : State) (consumer : BitVec 4) (a : Nat) : (s.memError consumer a).clock = s.clock := by
  unfold State.memError; simp
@[simp] theorem State.memError_tiles (s : State) (consumer : BitVec 4) (a : Nat) : (s.memError consumer a).tiles = s.tiles := by
  unfold State.memError; simp
@[simp] theorem State.memError_bell (s : State) (consumer : BitVec 4) (a : Nat) : (s.memError consumer a).bell = s.bell := by
  unfold State.memError; simp
@[simp] theorem State.memError_step (s : State) (consumer : BitVec 4) (a : Nat) : (s.memError consumer a).step = s.step := by
  unfold State.memError; simp
@[simp] theorem State.memError_image (s : State) (consumer : BitVec 4) (a : Nat) : (s.memError consumer a).image = s.image := by
  unfold State.memError; simp
@[simp] theorem State.memError_runnable (s : State) (consumer : BitVec 4) (a : Nat) : (s.memError consumer a).runnable = s.runnable := by
  unfold State.memError; simp
@[simp] theorem State.memError_unshadowed (s : State) (consumer : BitVec 4) (a : Nat) : (s.memError consumer a).unshadowed = s.unshadowed := by
  unfold State.memError; simp
@[simp] theorem State.memError_expertCode (s : State) (consumer : BitVec 4) (a : Nat) : (s.memError consumer a).expertCode = s.expertCode := by
  unfold State.memError; simp
@[simp] theorem State.memError_lastDone (s : State) (consumer : BitVec 4) (a : Nat) : (s.memError consumer a).lastDone = s.lastDone := by
  unfold State.memError; simp
@[simp] theorem State.memError_scale (s : State) (consumer : BitVec 4) (a : Nat) : (s.memError consumer a).scale = s.scale := by
  unfold State.memError; simp
@[simp] theorem State.memError_random (s : State) (consumer : BitVec 4) (a : Nat) : (s.memError consumer a).random = s.random := by
  unfold State.memError; simp
@[simp] theorem State.memError_train (s : State) (consumer : BitVec 4) (a : Nat) : (s.memError consumer a).train = s.train := by
  unfold State.memError; simp
@[simp] theorem State.memError_seqWindow (s : State) (consumer : BitVec 4) (a : Nat) : (s.memError consumer a).seqWindow = s.seqWindow := by
  unfold State.memError; simp
@[simp] theorem State.memError_link (s : State) (consumer : BitVec 4) (a : Nat) : (s.memError consumer a).link = s.link := by
  unfold State.memError; simp
@[simp] theorem State.memError_res (s : State) (consumer : BitVec 4) (a : Nat) : (s.memError consumer a).res = s.res := by
  unfold State.memError; simp
@[simp] theorem State.memError_pw (s : State) (consumer : BitVec 4) (a : Nat) : (s.memError consumer a).pw = s.pw := by
  unfold State.memError; simp
@[simp] theorem State.memError_sec (s : State) (consumer : BitVec 4) (a : Nat) : (s.memError consumer a).sec = s.sec := by
  unfold State.memError; simp
@[simp] theorem State.memError_mod (s : State) (consumer : BitVec 4) (a : Nat) : (s.memError consumer a).mod = s.mod := by
  unfold State.memError; simp

/-! ### noteFault -/
@[simp] theorem State.noteFault_pending (s : State) (t : Nat) (f : TileFault) : (s.noteFault t f).pending = s.pending := by
  unfold State.noteFault; split <;> rfl
@[simp] theorem State.noteFault_freeCtr (s : State) (t : Nat) (f : TileFault) : (s.noteFault t f).freeCtr = s.freeCtr := by
  unfold State.noteFault; split <;> rfl
@[simp] theorem State.noteFault_clock (s : State) (t : Nat) (f : TileFault) : (s.noteFault t f).clock = s.clock := by
  unfold State.noteFault; split <;> rfl
@[simp] theorem State.noteFault_tiles (s : State) (t : Nat) (f : TileFault) : (s.noteFault t f).tiles = s.tiles := by
  unfold State.noteFault; split <;> rfl
@[simp] theorem State.noteFault_bell (s : State) (t : Nat) (f : TileFault) : (s.noteFault t f).bell = s.bell := by
  unfold State.noteFault; split <;> rfl
@[simp] theorem State.noteFault_image (s : State) (t : Nat) (f : TileFault) : (s.noteFault t f).image = s.image := by
  unfold State.noteFault; split <;> rfl
@[simp] theorem State.noteFault_runnable (s : State) (t : Nat) (f : TileFault) : (s.noteFault t f).runnable = s.runnable := by
  unfold State.noteFault; split <;> rfl
@[simp] theorem State.noteFault_unshadowed (s : State) (t : Nat) (f : TileFault) : (s.noteFault t f).unshadowed = s.unshadowed := by
  unfold State.noteFault; split <;> rfl
@[simp] theorem State.noteFault_expertCode (s : State) (t : Nat) (f : TileFault) : (s.noteFault t f).expertCode = s.expertCode := by
  unfold State.noteFault; split <;> rfl
@[simp] theorem State.noteFault_lastDone (s : State) (t : Nat) (f : TileFault) : (s.noteFault t f).lastDone = s.lastDone := by
  unfold State.noteFault; split <;> rfl
@[simp] theorem State.noteFault_scale (s : State) (t : Nat) (f : TileFault) : (s.noteFault t f).scale = s.scale := by
  unfold State.noteFault; split <;> rfl
@[simp] theorem State.noteFault_random (s : State) (t : Nat) (f : TileFault) : (s.noteFault t f).random = s.random := by
  unfold State.noteFault; split <;> rfl
@[simp] theorem State.noteFault_train (s : State) (t : Nat) (f : TileFault) : (s.noteFault t f).train = s.train := by
  unfold State.noteFault; split <;> rfl
@[simp] theorem State.noteFault_seqWindow (s : State) (t : Nat) (f : TileFault) : (s.noteFault t f).seqWindow = s.seqWindow := by
  unfold State.noteFault; split <;> rfl
@[simp] theorem State.noteFault_mm (s : State) (t : Nat) (f : TileFault) : (s.noteFault t f).mm = s.mm := by
  unfold State.noteFault; split <;> rfl
@[simp] theorem State.noteFault_host (s : State) (t : Nat) (f : TileFault) : (s.noteFault t f).host = s.host := by
  unfold State.noteFault; split <;> rfl
@[simp] theorem State.noteFault_link (s : State) (t : Nat) (f : TileFault) : (s.noteFault t f).link = s.link := by
  unfold State.noteFault; split <;> rfl
@[simp] theorem State.noteFault_res (s : State) (t : Nat) (f : TileFault) : (s.noteFault t f).res = s.res := by
  unfold State.noteFault; split <;> rfl
@[simp] theorem State.noteFault_pw (s : State) (t : Nat) (f : TileFault) : (s.noteFault t f).pw = s.pw := by
  unfold State.noteFault; split <;> rfl
@[simp] theorem State.noteFault_sec (s : State) (t : Nat) (f : TileFault) : (s.noteFault t f).sec = s.sec := by
  unfold State.noteFault; split <;> rfl
@[simp] theorem State.noteFault_mod (s : State) (t : Nat) (f : TileFault) : (s.noteFault t f).mod = s.mod := by
  unfold State.noteFault; split <;> rfl

/-- The event bit of a raised event is set. -/
theorem State.event_raise (s : State) (bit block : Nat) (raw : List Byte) (h : bit < 13) :
    (s.raise bit block raw).host.event.getLsbD bit = true := by
  have e : (s.raise bit block raw).host.event = s.host.event ||| (1#13 <<< bit) := by
    unfold State.raise State.setEvent State.raiseVector
    dsimp only
    split <;> (try split) <;> (try split) <;> rfl
  rw [e]
  simp [h]

end Sys2Proof.Machine
end

