-- ==== Sys2Proof/Laws/Memory.lean ====
section
/-! SUPPORT. Every operation on a byte memory keeps its canonical form, and what reads what was written (R98, R127, R447). -/
namespace Sys2Proof.Machine

/-! ### Tile memory -/

theorem Tile.markPage_mem (c : Tile) (p : Nat) : (c.markPage p).mem = c.mem := by
  unfold Tile.markPage
  dsimp only
  repeat' split
  all_goals rfl

theorem Tile.markPage_frame (c : Tile) (p : Nat) : c.markPage p = { c with pages := (c.markPage p).pages } := by
  unfold Tile.markPage
  dsimp only
  repeat' split
  all_goals rfl

theorem Tile.markPages_frame (ps : List Nat) (c : Tile) :
    ps.foldl Tile.markPage c = { c with pages := (ps.foldl Tile.markPage c).pages } := by
  induction ps generalizing c with
  | nil => rfl
  | cons p ps ih =>
    rw [List.foldl_cons, ih, Tile.markPage_frame]

/-- A write of data memory changes the bytes of its run, their check bits, and the marks of their pages. -/
theorem Tile.writeData_frame (c : Tile) (off : Nat) (bs : List Byte) :
    c.writeData off bs = { c with
      mem := (c.writeData off bs).mem
      pages := (c.writeData off bs).pages } := by
  unfold Tile.writeData
  split
  · rfl
  · dsimp only
    rw [Tile.markPages_frame]

theorem Tile.writeData_data (c : Tile) (off : Nat) (bs : List Byte) :
    (c.writeData off bs).mem.data = NMap.setRun 0 c.mem.data off bs := by
  unfold Tile.writeData
  split
  · cases bs with
    | nil => rfl
    | cons b bs => simp at *
  · dsimp only
    rw [Tile.markPages_frame]

theorem Tile.writeData_code (c : Tile) (off : Nat) (bs : List Byte) : (c.writeData off bs).mem.code = c.mem.code := by
  unfold Tile.writeData
  split
  · rfl
  · dsimp only
    rw [Tile.markPages_frame]

theorem Tile.memOk_of_data {c d : Tile} (hc : c.memOk = true) (h1 : Memory.wf d.mem.data = true) (h2 : d.mem.code = c.mem.code) :
    d.memOk = true := by
  unfold Tile.memOk at *
  rw [h2]
  simp_all

theorem Tile.memOk_writeData {c : Tile} (off : Nat) (bs : List Byte) (h : c.memOk = true) : (c.writeData off bs).memOk = true := by
  refine Tile.memOk_of_data h ?_ (Tile.writeData_code ..)
  rw [Tile.writeData_data]
  unfold Tile.memOk at h
  exact Memory.wf_writeRun bs (by simp_all)

theorem Tile.memOk_writeAhead {c : Tile} (r : RingNo) (k : Nat) (u : List Byte) (h : c.memOk = true) :
    (c.writeAhead r k u).memOk = true := Tile.memOk_writeData _ _ h

theorem Tile.memOk_advanceTail {c : Tile} (r : RingNo) (n : Nat) (h : c.memOk = true) : (c.advanceTail r n).memOk = true := by
  unfold Tile.advanceTail
  split <;> exact h

theorem Tile.memOk_pushUnit {c : Tile} (r : RingNo) (u : List Byte) (h : c.memOk = true) : (c.pushUnit r u).memOk = true :=
  Tile.memOk_advanceTail r 1 (Tile.memOk_writeAhead r 0 u h)

theorem Tile.memOk_loadBytes {c : Tile} (off : Nat) (bs : List Byte) (h : c.memOk = true) : (c.loadBytes off bs).memOk = true := by
  unfold Tile.loadBytes
  split
  · exact h
  · unfold Tile.memOk at *
    simp only [Bool.and_eq_true] at *
    exact ⟨Memory.wf_writeRun bs h.1, h.2⟩

theorem Tile.memOk_loadCode {c : Tile} (ws : List Word64) (h : c.memOk = true) : (c.loadCode ws).memOk = true := by
  unfold Tile.loadCode Tile.memOk at *
  simp only [Bool.and_eq_true] at *
  exact ⟨h.1, NMap.wf_setRun ws h.2⟩

theorem Tile.memOk_zeroPage {c : Tile} (p : Nat) (h : c.memOk = true) : (c.zeroPage p).memOk = true := by
  unfold Tile.zeroPage Tile.memOk at *
  simp only [Bool.and_eq_true] at *
  exact ⟨NMap.wf_dropRange _ _ h.1, h.2⟩

theorem Tile.memOk_afterReset {c : Tile} (keep : Bool) (h : c.memOk = true) : (c.afterReset keep).memOk = true := by
  unfold Tile.afterReset
  split
  · unfold Tile.memOk at *
    simp only [Bool.and_eq_true] at *
    exact ⟨NMap.wf_filter _ h.1, by decide⟩
  · decide

/-- A byte of the run reads as written, every other byte as before. -/
theorem Tile.byte_writeData (c : Tile) (off a : Nat) (bs : List Byte) :
    NMap.get 0 (c.writeData off bs).mem.data a = if off ≤ a ∧ a < off + bs.length then bs.getD (a - off) 0 else NMap.get 0 c.mem.data a := by
  rw [Tile.writeData_data]
  split
  · rename_i h
    have e := NMap.get_setRun_inside (0 : Byte) c.mem.data off (a - off) bs (by omega)
    have : off + (a - off) = a := by omega
    rw [this] at e
    rw [e]
    simp [List.getD_eq_getElem?_getD, List.getElem?_eq_getElem (show a - off < bs.length by omega)]
  · exact NMap.get_setRun_outside _ _ _ _ _ (by omega)

/-! ### The whole device -/

theorem State.memOk_tile {s : State} (t : Nat) (h : s.memOk = true) : (s.tile t).memOk = true := by
  have hall : s.tiles.all (fun p => p.2.memOk) = true := by
    unfold State.memOk at h
    simp only [Bool.and_eq_true] at h
    exact h.2
  unfold State.tile
  generalize s.tiles = l at hall
  induction l with
  | nil => rfl
  | cons p l ih =>
    obtain ⟨j, x⟩ := p
    simp only [List.all_cons, Bool.and_eq_true] at hall
    unfold NMap.get
    split
    · exact hall.1
    · exact ih hall.2

theorem State.memOk_setTile {s : State} (t : Nat) {x : Tile} (h : s.memOk = true) (hx : x.memOk = true) :
    (s.setTile t x).memOk = true := by
  have hall : (NMap.put s.tiles t x).all (fun p => p.2.memOk) = true := by
    rw [List.all_eq_true]
    intro p hp
    rcases NMap.mem_put hp with rfl | hp
    · exact hx
    · unfold State.memOk at h
      simp only [Bool.and_eq_true, List.all_eq_true] at h
      exact h.2 p hp
  unfold State.memOk at *
  simp only [Bool.and_eq_true] at *
  exact ⟨h.1, hall⟩

theorem State.memOk_modTile {s : State} (t : Nat) {f : Tile → Tile} (h : s.memOk = true) (hf : (f (s.tile t)).memOk = true) :
    (s.modTile t f).memOk = true := State.memOk_setTile t h hf

theorem State.memOk_writePiece {s : State} (lo : Nat) (bs : List Byte) (h : s.memOk = true) : (s.writePiece lo bs).memOk = true := by
  unfold State.memOk State.writePiece at *
  simp only [Bool.and_eq_true] at *
  exact ⟨⟨⟨⟨Memory.wf_writeRun bs h.1.1.1.1, h.1.1.1.2⟩, h.1.1.2⟩, h.1.2⟩, h.2⟩

theorem State.memOk_raise {s : State} (bit block : Nat) (raw : List Byte) (h : s.memOk = true) : (s.raise bit block raw).memOk = true := by
  have e : (s.raise bit block raw).host.mem = s.host.mem := by
    unfold State.raise State.setEvent State.raiseVector
    dsimp only
    split <;> (try split) <;> (try split) <;> rfl
  unfold State.memOk at *
  simp only [State.raise_mm, State.raise_seqWindow, State.raise_sec, State.raise_tiles, e]
  exact h

theorem State.memOk_memError {s : State} (k : BitVec 4) (a : Nat) (h : s.memOk = true) : (s.memError k a).memOk = true := by
  unfold State.memError
  exact State.memOk_raise _ _ _ (by unfold State.memOk at *; exact h)

theorem State.memOk_upsetLine {s : State} (l : Nat) (fs : List Nat) (h : s.memOk = true) : (s.upsetLine l fs).memOk = true := by
  unfold State.upsetLine
  split
  · exact h
  · unfold State.memOk at *
    simp only [Bool.and_eq_true] at *
    exact ⟨⟨⟨⟨Memory.wf_writeRun _ h.1.1.1.1, h.1.1.1.2⟩, h.1.1.2⟩, h.1.2⟩, h.2⟩

theorem State.memOk_serveLine {s : State} (k : BitVec 4) (l : Nat) (c : LineCheck) (h : s.memOk = true) :
    (s.serveLine k l c).1.memOk = true := by
  have hu := State.memOk_upsetLine l c.upset h
  have hl : (if c.linkCorrected then
      { s.upsetLine l c.upset with mm := { (s.upsetLine l c.upset).mm with
        linkCe := BitVec.ofNat 32 (satInc 32 (s.upsetLine l c.upset).mm.linkCe.toNat 1) } }
    else s.upsetLine l c.upset).memOk = true := by
    split <;> exact hu
  unfold State.serveLine
  dsimp only
  split
  · exact hl
  · split
    · exact hl
    · exact State.memOk_memError _ _ hl

theorem State.memOk_takeLine {s : State} (k : BitVec 4) (l : Nat) (h : s.memOk = true) : (s.takeLine k l).1.memOk = true := by
  unfold State.takeLine
  split
  · exact h
  · exact State.memOk_serveLine _ _ _ h

theorem memOk_readPieces (k : BitVec 4) (ps : List (Nat × Nat × Nat)) {s : State} (acc : List Byte) (h : s.memOk = true) :
    (readPieces k ps s acc).1.memOk = true := by
  induction ps generalizing s acc with
  | nil => exact h
  | cons p ps ih =>
    have ht := State.memOk_takeLine k (p.1 / 64) h
    unfold readPieces
    split <;> rename_i e <;> rw [e] at ht
    · exact ih _ ht
    · exact ht

theorem State.memOk_mergePiece {s : State} (k : BitVec 4) (lo : Nat) (bs : List Byte) (h : s.memOk = true) :
    (s.mergePiece k lo bs).1.memOk = true := by
  have ht := State.memOk_takeLine k (lo / 64) h
  unfold State.mergePiece
  split <;> rename_i e <;> rw [e] at ht
  · exact State.memOk_writePiece _ _ ht
  · exact ht

theorem State.memOk_fetchChecks {s : State} (a n : Nat) (w : Bool) (h : s.memOk = true) : (s.fetchChecks a n w).memOk = true := by
  unfold State.fetchChecks
  split <;> exact h

theorem memOk_writeLines (k : BitVec 4) (bs : List Byte) (ps : List (Nat × Nat × Nat)) {s : State} (h : s.memOk = true) :
    (writeLines k bs ps s).1.memOk = true := by
  induction ps generalizing s with
  | nil => exact h
  | cons p ps ih =>
    unfold writeLines
    dsimp only
    split
    · have hm := State.memOk_mergePiece k p.1 ((bs.drop p.2.1).take p.2.2) h
      split <;> rename_i e <;> rw [e] at hm
      · exact ih hm
      · exact hm
    · exact ih (State.memOk_writePiece _ _ h)

/-- A write of main memory keeps every memory in canonical form. -/
theorem State.memOk_mainWrite {s : State} (a : Nat) (bs : List Byte) (h : s.memOk = true) : (s.mainWrite a bs).1.memOk = true := by
  unfold State.mainWrite
  split
  · exact h
  · split
    · exact h
    · exact memOk_writeLines _ _ _ (State.memOk_fetchChecks _ _ _ h)

theorem State.memOk_mainPut {s : State} (a : Nat) (bs : List Byte) (h : s.memOk = true) : (s.mainPut a bs).memOk = true :=
  State.memOk_mainWrite a bs h

theorem State.memOk_mainRead {s : State} (k : BitVec 4) (a n : Nat) (h : s.memOk = true) : (s.mainRead k a n).1.memOk = true := by
  unfold State.mainRead
  split
  · exact h
  · split
    · exact h
    · dsimp only
      split
      · exact memOk_readPieces _ _ _ (State.memOk_fetchChecks _ _ _ h)
      · exact State.memOk_fetchChecks _ _ _ h

theorem State.memOk_putHost {s : State} (a : Nat) (bs : List Byte) (h : s.memOk = true) : (s.putHost a bs).memOk = true := by
  unfold State.memOk State.putHost at *
  simp only [Bool.and_eq_true] at *
  exact ⟨⟨⟨⟨h.1.1.1.1, Memory.wf_writeRun bs h.1.1.1.2⟩, h.1.1.2⟩, h.1.2⟩, h.2⟩

theorem State.memOk_writeCode {s : State} (t k : Nat) (w : Word64) (h : s.memOk = true) : (s.writeCode t k w).memOk = true := by
  unfold State.writeCode
  dsimp only
  split
  · have ht := State.memOk_tile t h
    have hc : ({ s.tile t with mem := { (s.tile t).mem with
        code := NMap.set 0 (s.tile t).mem.code (256 * (s.tile t).core.codePage.toNat + k) w
        eccCode := NMap.drop (s.tile t).mem.eccCode (256 * (s.tile t).core.codePage.toNat + k) } } : Tile).memOk = true := by
      unfold Tile.memOk at *
      simp only [Bool.and_eq_true] at *
      exact ⟨ht.1, NMap.wf_set ht.2⟩
    exact State.memOk_setTile t h hc
  · exact h

/-- Reset leaves every memory in canonical form. -/
theorem State.reset_memOk : State.reset.memOk = true := rfl

end Sys2Proof.Machine
end

