-- ==== Sys2Proof/Laws/PerInstr.lean ====
section
/-! SUPPORT. The family TileWords: the word that an instruction carries when it issues, which fault records show (R86), is the word that
spells it in the code store; a command that is no tile instruction has none. -/
open Sys2Proof Sys2Proof.Machine

/-- The word of the instruction as issued is its encoding. -/
def Sys2Proof.Laws.TileWords.Statement (i : Sys2Proof.Instr) : Prop :=
  (Sys2Proof.Machine.insnOf i).map (·.word) = Sys2Proof.encodeInsn i

theorem Sys2Proof.Laws.TileWords.add (t : Nat) (d a : SReg) (x : Src2) :
    Sys2Proof.Laws.TileWords.Statement (.add t d a x) := rfl
theorem Sys2Proof.Laws.TileWords.sub (t : Nat) (d a : SReg) (x : Src2) :
    Sys2Proof.Laws.TileWords.Statement (.sub t d a x) := rfl
theorem Sys2Proof.Laws.TileWords.and (t : Nat) (d a : SReg) (x : Src2) :
    Sys2Proof.Laws.TileWords.Statement (.and t d a x) := rfl
theorem Sys2Proof.Laws.TileWords.or (t : Nat) (d a : SReg) (x : Src2) :
    Sys2Proof.Laws.TileWords.Statement (.or t d a x) := rfl
theorem Sys2Proof.Laws.TileWords.xor (t : Nat) (d a : SReg) (x : Src2) :
    Sys2Proof.Laws.TileWords.Statement (.xor t d a x) := rfl
theorem Sys2Proof.Laws.TileWords.shl (t : Nat) (d a : SReg) (x : Src2) :
    Sys2Proof.Laws.TileWords.Statement (.shl t d a x) := rfl
theorem Sys2Proof.Laws.TileWords.shr (t : Nat) (d a : SReg) (x : Src2) :
    Sys2Proof.Laws.TileWords.Statement (.shr t d a x) := rfl
theorem Sys2Proof.Laws.TileWords.sra (t : Nat) (d a : SReg) (x : Src2) :
    Sys2Proof.Laws.TileWords.Statement (.sra t d a x) := rfl
theorem Sys2Proof.Laws.TileWords.mul (t : Nat) (d a : SReg) (x : Src2) :
    Sys2Proof.Laws.TileWords.Statement (.mul t d a x) := rfl
theorem Sys2Proof.Laws.TileWords.mulh (t : Nat) (d a : SReg) (x : Src2) :
    Sys2Proof.Laws.TileWords.Statement (.mulh t d a x) := rfl
theorem Sys2Proof.Laws.TileWords.div (t : Nat) (d a : SReg) (x : Src2) :
    Sys2Proof.Laws.TileWords.Statement (.div t d a x) := rfl
theorem Sys2Proof.Laws.TileWords.rem (t : Nat) (d a : SReg) (x : Src2) :
    Sys2Proof.Laws.TileWords.Statement (.rem t d a x) := rfl
theorem Sys2Proof.Laws.TileWords.slt (t : Nat) (d a : SReg) (x : Src2) :
    Sys2Proof.Laws.TileWords.Statement (.slt t d a x) := rfl
theorem Sys2Proof.Laws.TileWords.sltu (t : Nat) (d a : SReg) (x : Src2) :
    Sys2Proof.Laws.TileWords.Statement (.sltu t d a x) := rfl
theorem Sys2Proof.Laws.TileWords.li (t : Nat) (d : SReg) (x : Src2) :
    Sys2Proof.Laws.TileWords.Statement (.li t d x) := rfl
theorem Sys2Proof.Laws.TileWords.lui (t : Nat) (d : SReg) (x : Src2) :
    Sys2Proof.Laws.TileWords.Statement (.lui t d x) := rfl
theorem Sys2Proof.Laws.TileWords.addi (t : Nat) (d a : SReg) (x : Src2) :
    Sys2Proof.Laws.TileWords.Statement (.addi t d a x) := rfl
theorem Sys2Proof.Laws.TileWords.sys (t : Nat) (d a : SReg) (x : Src2) :
    Sys2Proof.Laws.TileWords.Statement (.sys t d a x) := rfl
theorem Sys2Proof.Laws.TileWords.ld (t : Nat) (d a : SReg) (imm : Word32) :
    Sys2Proof.Laws.TileWords.Statement (.ld t d a imm) := rfl
theorem Sys2Proof.Laws.TileWords.st (t : Nat) (a b : SReg) (imm : Word32) :
    Sys2Proof.Laws.TileWords.Statement (.st t a b imm) := rfl
theorem Sys2Proof.Laws.TileWords.beq (t : Nat) (a b : SReg) (target : BitVec 13) :
    Sys2Proof.Laws.TileWords.Statement (.beq t a b target) := rfl
theorem Sys2Proof.Laws.TileWords.bne (t : Nat) (a b : SReg) (target : BitVec 13) :
    Sys2Proof.Laws.TileWords.Statement (.bne t a b target) := rfl
theorem Sys2Proof.Laws.TileWords.blt (t : Nat) (a b : SReg) (target : BitVec 13) :
    Sys2Proof.Laws.TileWords.Statement (.blt t a b target) := rfl
theorem Sys2Proof.Laws.TileWords.bge (t : Nat) (a b : SReg) (target : BitVec 13) :
    Sys2Proof.Laws.TileWords.Statement (.bge t a b target) := rfl
theorem Sys2Proof.Laws.TileWords.bltu (t : Nat) (a b : SReg) (target : BitVec 13) :
    Sys2Proof.Laws.TileWords.Statement (.bltu t a b target) := rfl
theorem Sys2Proof.Laws.TileWords.bgeu (t : Nat) (a b : SReg) (target : BitVec 13) :
    Sys2Proof.Laws.TileWords.Statement (.bgeu t a b target) := rfl
theorem Sys2Proof.Laws.TileWords.jmp (t : Nat) (target : BitVec 13) :
    Sys2Proof.Laws.TileWords.Statement (.jmp t target) := rfl
theorem Sys2Proof.Laws.TileWords.jal (t : Nat) (link : SReg) (target : BitVec 13) :
    Sys2Proof.Laws.TileWords.Statement (.jal t link target) := rfl
theorem Sys2Proof.Laws.TileWords.jr (t : Nat) (a : SReg) :
    Sys2Proof.Laws.TileWords.Statement (.jr t a) := rfl
theorem Sys2Proof.Laws.TileWords.halt (t : Nat) :
    Sys2Proof.Laws.TileWords.Statement (.halt t) := rfl
theorem Sys2Proof.Laws.TileWords.vaddF32 (t : Nat) (d a b : VReg) (imm : Word32) :
    Sys2Proof.Laws.TileWords.Statement (.vaddF32 t d a b imm) := rfl
theorem Sys2Proof.Laws.TileWords.vsubF32 (t : Nat) (d a b : VReg) (imm : Word32) :
    Sys2Proof.Laws.TileWords.Statement (.vsubF32 t d a b imm) := rfl
theorem Sys2Proof.Laws.TileWords.vmulF32 (t : Nat) (d a b : VReg) (imm : Word32) :
    Sys2Proof.Laws.TileWords.Statement (.vmulF32 t d a b imm) := rfl
theorem Sys2Proof.Laws.TileWords.vfmaF32 (t : Nat) (d a b c : VReg) (imm : Word32) :
    Sys2Proof.Laws.TileWords.Statement (.vfmaF32 t d a b c imm) := rfl
theorem Sys2Proof.Laws.TileWords.vaddBf (t : Nat) (d a b : VReg) :
    Sys2Proof.Laws.TileWords.Statement (.vaddBf t d a b) := rfl
theorem Sys2Proof.Laws.TileWords.vsubBf (t : Nat) (d a b : VReg) :
    Sys2Proof.Laws.TileWords.Statement (.vsubBf t d a b) := rfl
theorem Sys2Proof.Laws.TileWords.vmulBf (t : Nat) (d a b : VReg) :
    Sys2Proof.Laws.TileWords.Statement (.vmulBf t d a b) := rfl
theorem Sys2Proof.Laws.TileWords.vfmaBf (t : Nat) (d a b c : VReg) :
    Sys2Proof.Laws.TileWords.Statement (.vfmaBf t d a b c) := rfl
theorem Sys2Proof.Laws.TileWords.vaddI32 (t : Nat) (d a b : VReg) :
    Sys2Proof.Laws.TileWords.Statement (.vaddI32 t d a b) := rfl
theorem Sys2Proof.Laws.TileWords.vsubI32 (t : Nat) (d a b : VReg) :
    Sys2Proof.Laws.TileWords.Statement (.vsubI32 t d a b) := rfl
theorem Sys2Proof.Laws.TileWords.vmulI32 (t : Nat) (d a b : VReg) :
    Sys2Proof.Laws.TileWords.Statement (.vmulI32 t d a b) := rfl
theorem Sys2Proof.Laws.TileWords.vfmaI32 (t : Nat) (d a b c : VReg) :
    Sys2Proof.Laws.TileWords.Statement (.vfmaI32 t d a b c) := rfl
theorem Sys2Proof.Laws.TileWords.vcmp (t : Nat) (d : SReg) (a b : VReg) (imm : Word32) :
    Sys2Proof.Laws.TileWords.Statement (.vcmp t d a b imm) := rfl
theorem Sys2Proof.Laws.TileWords.vsel (t : Nat) (d a b : VReg) (c : SReg) :
    Sys2Proof.Laws.TileWords.Statement (.vsel t d a b c) := rfl
theorem Sys2Proof.Laws.TileWords.vcvt (t : Nat) (d a b : VReg) (imm : Word32) :
    Sys2Proof.Laws.TileWords.Statement (.vcvt t d a b imm) := rfl
theorem Sys2Proof.Laws.TileWords.vbcast (t : Nat) (d : VReg) (a : SReg) :
    Sys2Proof.Laws.TileWords.Statement (.vbcast t d a) := rfl
theorem Sys2Proof.Laws.TileWords.vshuf (t : Nat) (d a b : VReg) :
    Sys2Proof.Laws.TileWords.Statement (.vshuf t d a b) := rfl
theorem Sys2Proof.Laws.TileWords.vred (t : Nat) (d : SReg) (a : VReg) (imm : Word32) :
    Sys2Proof.Laws.TileWords.Statement (.vred t d a imm) := rfl
theorem Sys2Proof.Laws.TileWords.vld (t : Nat) (d : VReg) (a : SReg) (imm : Word32) :
    Sys2Proof.Laws.TileWords.Statement (.vld t d a imm) := rfl
theorem Sys2Proof.Laws.TileWords.vst (t : Nat) (a : SReg) (b : VReg) (imm : Word32) :
    Sys2Proof.Laws.TileWords.Statement (.vst t a b imm) := rfl
theorem Sys2Proof.Laws.TileWords.mldh (t : Nat) (ringA : RingNo) (imm : Word32) :
    Sys2Proof.Laws.TileWords.Statement (.mldh t ringA imm) := rfl
theorem Sys2Proof.Laws.TileWords.mldht (t : Nat) (ringA : RingNo) (imm : Word32) :
    Sys2Proof.Laws.TileWords.Statement (.mldht t ringA imm) := rfl
theorem Sys2Proof.Laws.TileWords.mmul (t : Nat) (ringA : RingNo) (imm : Word32) :
    Sys2Proof.Laws.TileWords.Statement (.mmul t ringA imm) := rfl
theorem Sys2Proof.Laws.TileWords.mslb (t : Nat) (ringA ringB : RingNo) (p : SReg) (imm : Word32) :
    Sys2Proof.Laws.TileWords.Statement (.mslb t ringA ringB p imm) := rfl
theorem Sys2Proof.Laws.TileWords.macc (t : Nat) (ringA : RingNo) (imm : Word32) :
    Sys2Proof.Laws.TileWords.Statement (.macc t ringA imm) := rfl
theorem Sys2Proof.Laws.TileWords.mclr (t : Nat) (imm : Word32) :
    Sys2Proof.Laws.TileWords.Statement (.mclr t imm) := rfl
theorem Sys2Proof.Laws.TileWords.mepi (t : Nat) (p : SReg) (imm : Word32) :
    Sys2Proof.Laws.TileWords.Statement (.mepi t p imm) := rfl
theorem Sys2Proof.Laws.TileWords.mdrn (t : Nat) (ringD : RingNo) (imm : Word32) :
    Sys2Proof.Laws.TileWords.Statement (.mdrn t ringD imm) := rfl
theorem Sys2Proof.Laws.TileWords.mflg (t : Nat) (d : SReg) (imm : Word32) :
    Sys2Proof.Laws.TileWords.Statement (.mflg t d imm) := rfl
theorem Sys2Proof.Laws.TileWords.movq (t : Nat) (ringA : RingNo) (b : VReg) :
    Sys2Proof.Laws.TileWords.Statement (.movq t ringA b) := rfl
theorem Sys2Proof.Laws.TileWords.movc (t : Nat) (d : SReg) :
    Sys2Proof.Laws.TileWords.Statement (.movc t d) := rfl
theorem Sys2Proof.Laws.TileWords.send (t : Nat) (ringA : RingNo) (dest p : SReg) (imm : Word32) :
    Sys2Proof.Laws.TileWords.Statement (.send t ringA dest p imm) := rfl
theorem Sys2Proof.Laws.TileWords.rset (t : Nat) (b : VReg) (ringD : RingNo) :
    Sys2Proof.Laws.TileWords.Statement (.rset t b ringD) := rfl
theorem Sys2Proof.Laws.TileWords.rget (t : Nat) (ringA : RingNo) (d : SReg) (imm : Word32) :
    Sys2Proof.Laws.TileWords.Statement (.rget t ringA d imm) := rfl
theorem Sys2Proof.Laws.TileWords.rpush (t : Nat) (ringD : RingNo) (imm : Word32) :
    Sys2Proof.Laws.TileWords.Statement (.rpush t ringD imm) := rfl
theorem Sys2Proof.Laws.TileWords.rpop (t : Nat) (ringA : RingNo) (imm : Word32) :
    Sys2Proof.Laws.TileWords.Statement (.rpop t ringA imm) := rfl
theorem Sys2Proof.Laws.TileWords.rwait (t : Nat) (ringA : RingNo) (imm : Word32) :
    Sys2Proof.Laws.TileWords.Statement (.rwait t ringA imm) := rfl
theorem Sys2Proof.Laws.TileWords.rspace (t : Nat) (ringD : RingNo) (imm : Word32) :
    Sys2Proof.Laws.TileWords.Statement (.rspace t ringD imm) := rfl
theorem Sys2Proof.Laws.TileWords.rngv (t : Nat) (index : SReg) (d : VReg) (p : SReg) (imm : Word32) :
    Sys2Proof.Laws.TileWords.Statement (.rngv t index d p imm) := rfl
theorem Sys2Proof.Laws.TileWords.rngr (t : Nat) (index : SReg) (ringD : RingNo) (p : SReg) (imm : Word32) :
    Sys2Proof.Laws.TileWords.Statement (.rngr t index ringD p imm) := rfl
theorem Sys2Proof.Laws.TileWords.fence (t : Nat) (imm : Word32) :
    Sys2Proof.Laws.TileWords.Statement (.fence t imm) := rfl
theorem Sys2Proof.Laws.TileWords.bell (t : Nat) (b : VReg) (imm : Word32) :
    Sys2Proof.Laws.TileWords.Statement (.bell t b imm) := rfl
theorem Sys2Proof.Laws.TileWords.expect (t : Nat) (p : SReg) (imm : Word32) :
    Sys2Proof.Laws.TileWords.Statement (.expect t p imm) := rfl
theorem Sys2Proof.Laws.TileWords.xrds (t : Nat) (d a : SReg) (imm : Word32) :
    Sys2Proof.Laws.TileWords.Statement (.xrds t d a imm) := rfl
theorem Sys2Proof.Laws.TileWords.xrdv (t : Nat) (d : VReg) (a : SReg) (imm : Word32) :
    Sys2Proof.Laws.TileWords.Statement (.xrdv t d a imm) := rfl
theorem Sys2Proof.Laws.TileWords.xwrs (t : Nat) (a b : SReg) (imm : Word32) :
    Sys2Proof.Laws.TileWords.Statement (.xwrs t a b imm) := rfl
theorem Sys2Proof.Laws.TileWords.xwrv (t : Nat) (a : SReg) (b : VReg) (imm : Word32) :
    Sys2Proof.Laws.TileWords.Statement (.xwrv t a b imm) := rfl
theorem Sys2Proof.Laws.TileWords.matrixDispatch (t : Nat) :
    Sys2Proof.Laws.TileWords.Statement (.matrixDispatch t) := rfl
theorem Sys2Proof.Laws.TileWords.heldLoadDone (t : Nat) :
    Sys2Proof.Laws.TileWords.Statement (.heldLoadDone t) := rfl
theorem Sys2Proof.Laws.TileWords.mmulComplete (t : Nat) :
    Sys2Proof.Laws.TileWords.Statement (.mmulComplete t) := rfl
theorem Sys2Proof.Laws.TileWords.mslbComplete (t : Nat) :
    Sys2Proof.Laws.TileWords.Statement (.mslbComplete t) := rfl
theorem Sys2Proof.Laws.TileWords.maccComplete (t : Nat) :
    Sys2Proof.Laws.TileWords.Statement (.maccComplete t) := rfl
theorem Sys2Proof.Laws.TileWords.mclrComplete (t : Nat) :
    Sys2Proof.Laws.TileWords.Statement (.mclrComplete t) := rfl
theorem Sys2Proof.Laws.TileWords.mepiInstall (t : Nat) :
    Sys2Proof.Laws.TileWords.Statement (.mepiInstall t) := rfl
theorem Sys2Proof.Laws.TileWords.drainUnitWrite (t u : Nat) :
    Sys2Proof.Laws.TileWords.Statement (.drainUnitWrite t u) := rfl
theorem Sys2Proof.Laws.TileWords.mdrnComplete (t : Nat) :
    Sys2Proof.Laws.TileWords.Statement (.mdrnComplete t) := rfl
theorem Sys2Proof.Laws.TileWords.mflgComplete (t : Nat) :
    Sys2Proof.Laws.TileWords.Statement (.mflgComplete t) := rfl
theorem Sys2Proof.Laws.TileWords.moverDescriptorStart (t : Nat) :
    Sys2Proof.Laws.TileWords.Statement (.moverDescriptorStart t) := rfl
theorem Sys2Proof.Laws.TileWords.moverUnitWrite (t slot : Nat) (h : HostReply) :
    Sys2Proof.Laws.TileWords.Statement (.moverUnitWrite t slot h) := rfl
theorem Sys2Proof.Laws.TileWords.moverDescriptorComplete (t slot : Nat) (h : HostReply) :
    Sys2Proof.Laws.TileWords.Statement (.moverDescriptorComplete t slot h) := rfl
theorem Sys2Proof.Laws.TileWords.pageFillComplete (t : Nat) :
    Sys2Proof.Laws.TileWords.Statement (.pageFillComplete t) := rfl
theorem Sys2Proof.Laws.TileWords.sendStart (t : Nat) :
    Sys2Proof.Laws.TileWords.Statement (.sendStart t) := rfl
theorem Sys2Proof.Laws.TileWords.haulDeliveryUnit (src : HaulSource) (dst : Nat) :
    Sys2Proof.Laws.TileWords.Statement (.haulDeliveryUnit src dst) := rfl
theorem Sys2Proof.Laws.TileWords.sendResponseArrive (t id dst : Nat) :
    Sys2Proof.Laws.TileWords.Statement (.sendResponseArrive t id dst) := rfl
theorem Sys2Proof.Laws.TileWords.sendFailRecordTake (t : Nat) :
    Sys2Proof.Laws.TileWords.Statement (.sendFailRecordTake t) := rfl
theorem Sys2Proof.Laws.TileWords.reachTargetAccess (t id : Nat) :
    Sys2Proof.Laws.TileWords.Statement (.reachTargetAccess t id) := rfl
theorem Sys2Proof.Laws.TileWords.reachControlService (t id : Nat) :
    Sys2Proof.Laws.TileWords.Statement (.reachControlService t id) := rfl
theorem Sys2Proof.Laws.TileWords.reachReplyArrive (t id : Nat) :
    Sys2Proof.Laws.TileWords.Statement (.reachReplyArrive t id) := rfl
theorem Sys2Proof.Laws.TileWords.randomFillDone (t : Nat) :
    Sys2Proof.Laws.TileWords.Statement (.randomFillDone t) := rfl
theorem Sys2Proof.Laws.TileWords.laneArmingDone (t : Nat) :
    Sys2Proof.Laws.TileWords.Statement (.laneArmingDone t) := rfl
theorem Sys2Proof.Laws.TileWords.keyDerived :
    Sys2Proof.Laws.TileWords.Statement (.keyDerived) := rfl
theorem Sys2Proof.Laws.TileWords.normPost (t : Nat) :
    Sys2Proof.Laws.TileWords.Statement (.normPost t) := rfl
theorem Sys2Proof.Laws.TileWords.ringStall (t r : Nat) :
    Sys2Proof.Laws.TileWords.Statement (.ringStall t r) := rfl
theorem Sys2Proof.Laws.TileWords.eccCorrectionWriteback (t : Nat) :
    Sys2Proof.Laws.TileWords.Statement (.eccCorrectionWriteback t) := rfl
theorem Sys2Proof.Laws.TileWords.scrubRow (t : Nat) :
    Sys2Proof.Laws.TileWords.Statement (.scrubRow t) := rfl
theorem Sys2Proof.Laws.TileWords.memoryInitDone (t : Nat) :
    Sys2Proof.Laws.TileWords.Statement (.memoryInitDone t) := rfl
theorem Sys2Proof.Laws.TileWords.bellConditionHolds (g : Nat) :
    Sys2Proof.Laws.TileWords.Statement (.bellConditionHolds g) := rfl
theorem Sys2Proof.Laws.TileWords.bellFire (g : Nat) :
    Sys2Proof.Laws.TileWords.Statement (.bellFire g) := rfl
theorem Sys2Proof.Laws.TileWords.bellTimeout (g : Nat) :
    Sys2Proof.Laws.TileWords.Statement (.bellTimeout g) := rfl
theorem Sys2Proof.Laws.TileWords.probeNoReply (g t : Nat) :
    Sys2Proof.Laws.TileWords.Statement (.probeNoReply g t) := rfl
theorem Sys2Proof.Laws.TileWords.bellFrameReceive (frame : List Byte) :
    Sys2Proof.Laws.TileWords.Statement (.bellFrameReceive frame) := rfl
theorem Sys2Proof.Laws.TileWords.stepEnd :
    Sys2Proof.Laws.TileWords.Statement (.stepEnd) := rfl
theorem Sys2Proof.Laws.TileWords.programFaultHalt :
    Sys2Proof.Laws.TileWords.Statement (.programFaultHalt) := rfl
theorem Sys2Proof.Laws.TileWords.faultEngineWaitExpiry :
    Sys2Proof.Laws.TileWords.Statement (.faultEngineWaitExpiry) := rfl
theorem Sys2Proof.Laws.TileWords.loadImage (n : Nat) (h : HostReply) :
    Sys2Proof.Laws.TileWords.Statement (.loadImage n h) := rfl
theorem Sys2Proof.Laws.TileWords.run (n : Nat) :
    Sys2Proof.Laws.TileWords.Statement (.run n) := rfl
theorem Sys2Proof.Laws.TileWords.step (n : Nat) :
    Sys2Proof.Laws.TileWords.Statement (.step n) := rfl
theorem Sys2Proof.Laws.TileWords.eval (n : Nat) (h : HostReply) :
    Sys2Proof.Laws.TileWords.Statement (.eval n h) := rfl
theorem Sys2Proof.Laws.TileWords.drain (n : Nat) :
    Sys2Proof.Laws.TileWords.Statement (.drain n) := rfl
theorem Sys2Proof.Laws.TileWords.restore (n : Nat) (manifest : Option (List Byte)) :
    Sys2Proof.Laws.TileWords.Statement (.restore n manifest) := rfl
theorem Sys2Proof.Laws.TileWords.pair (n : Nat) :
    Sys2Proof.Laws.TileWords.Statement (.pair n) := rfl
theorem Sys2Proof.Laws.TileWords.unpair (n : Nat) :
    Sys2Proof.Laws.TileWords.Statement (.unpair n) := rfl
theorem Sys2Proof.Laws.TileWords.setSeeds (n : Nat) :
    Sys2Proof.Laws.TileWords.Statement (.setSeeds n) := rfl
theorem Sys2Proof.Laws.TileWords.setScales (n : Nat) (h : HostReply) :
    Sys2Proof.Laws.TileWords.Statement (.setScales n h) := rfl
theorem Sys2Proof.Laws.TileWords.copy (n : Nat) :
    Sys2Proof.Laws.TileWords.Statement (.copy n) := rfl
theorem Sys2Proof.Laws.TileWords.fenceCommand (n : Nat) :
    Sys2Proof.Laws.TileWords.Statement (.fenceCommand n) := rfl
theorem Sys2Proof.Laws.TileWords.query (n : Nat) (h : HostReply) :
    Sys2Proof.Laws.TileWords.Statement (.query n h) := rfl
theorem Sys2Proof.Laws.TileWords.readTelemetry (n : Nat) (h : HostReply) :
    Sys2Proof.Laws.TileWords.Statement (.readTelemetry n h) := rfl
theorem Sys2Proof.Laws.TileWords.setPower (n : Nat) :
    Sys2Proof.Laws.TileWords.Statement (.setPower n) := rfl
theorem Sys2Proof.Laws.TileWords.resetBlock (n : Nat) :
    Sys2Proof.Laws.TileWords.Statement (.resetBlock n) := rfl
theorem Sys2Proof.Laws.TileWords.resetDevice (n : Nat) :
    Sys2Proof.Laws.TileWords.Statement (.resetDevice n) := rfl
theorem Sys2Proof.Laws.TileWords.retireTile (n : Nat) :
    Sys2Proof.Laws.TileWords.Statement (.retireTile n) := rfl
theorem Sys2Proof.Laws.TileWords.attest (n : Nat) :
    Sys2Proof.Laws.TileWords.Statement (.attest n) := rfl
theorem Sys2Proof.Laws.TileWords.updateFirmware (n : Nat) (h : HostReply) :
    Sys2Proof.Laws.TileWords.Statement (.updateFirmware n h) := rfl
theorem Sys2Proof.Laws.TileWords.packetFetch (h : HostReply) :
    Sys2Proof.Laws.TileWords.Statement (.packetFetch h) := rfl
theorem Sys2Proof.Laws.TileWords.completionWrite (q : Nat) (h : HostReply) :
    Sys2Proof.Laws.TileWords.Statement (.completionWrite q h) := rfl
theorem Sys2Proof.Laws.TileWords.sqTailDoorbell (q index : Nat) (writes : List (Nat × Byte)) :
    Sys2Proof.Laws.TileWords.Statement (.sqTailDoorbell q index writes) := rfl
theorem Sys2Proof.Laws.TileWords.cqHeadDoorbell (q index : Nat) :
    Sys2Proof.Laws.TileWords.Statement (.cqHeadDoorbell q index) := rfl
theorem Sys2Proof.Laws.TileWords.queueEnable (q : Nat) (value : Word32) :
    Sys2Proof.Laws.TileWords.Statement (.queueEnable q value) := rfl
theorem Sys2Proof.Laws.TileWords.queueDisable (q : Nat) (value : Word32) :
    Sys2Proof.Laws.TileWords.Statement (.queueDisable q value) := rfl
theorem Sys2Proof.Laws.TileWords.queueDrained (q : Nat) :
    Sys2Proof.Laws.TileWords.Statement (.queueDrained q) := rfl
theorem Sys2Proof.Laws.TileWords.msixUnmask (vector : Nat) :
    Sys2Proof.Laws.TileWords.Statement (.msixUnmask vector) := rfl
theorem Sys2Proof.Laws.TileWords.registerWrite (target : HostTarget) (bytes : List Byte) :
    Sys2Proof.Laws.TileWords.Statement (.registerWrite target bytes) := rfl
theorem Sys2Proof.Laws.TileWords.broadcastWrite (w offset : Nat) (value : Word32) :
    Sys2Proof.Laws.TileWords.Statement (.broadcastWrite w offset value) := rfl
theorem Sys2Proof.Laws.TileWords.haltWrite (t : Nat) (value : Word32) :
    Sys2Proof.Laws.TileWords.Statement (.haltWrite t value) := rfl
theorem Sys2Proof.Laws.TileWords.singleStep (t : Nat) :
    Sys2Proof.Laws.TileWords.Statement (.singleStep t) := rfl
theorem Sys2Proof.Laws.TileWords.clearFault (t : Nat) :
    Sys2Proof.Laws.TileWords.Statement (.clearFault t) := rfl
theorem Sys2Proof.Laws.TileWords.codeWindowWrite (t index : Nat) (value : Word64) :
    Sys2Proof.Laws.TileWords.Statement (.codeWindowWrite t index value) := rfl
theorem Sys2Proof.Laws.TileWords.ringDescWrite (t r k : Nat) (value : Word32) :
    Sys2Proof.Laws.TileWords.Statement (.ringDescWrite t r k value) := rfl
theorem Sys2Proof.Laws.TileWords.eccInjectArm (t : Nat) (value : Word32) :
    Sys2Proof.Laws.TileWords.Statement (.eccInjectArm t value) := rfl
theorem Sys2Proof.Laws.TileWords.scaleEntryWrite (n k : Nat) (value : Word32) :
    Sys2Proof.Laws.TileWords.Statement (.scaleEntryWrite n k value) := rfl
theorem Sys2Proof.Laws.TileWords.seedKeyedWrite (value : Word32) :
    Sys2Proof.Laws.TileWords.Statement (.seedKeyedWrite value) := rfl
theorem Sys2Proof.Laws.TileWords.seedFreeWrite (value : Word32) :
    Sys2Proof.Laws.TileWords.Statement (.seedFreeWrite value) := rfl
theorem Sys2Proof.Laws.TileWords.partnerCommit :
    Sys2Proof.Laws.TileWords.Statement (.partnerCommit) := rfl
theorem Sys2Proof.Laws.TileWords.partnerEmpty :
    Sys2Proof.Laws.TileWords.Statement (.partnerEmpty) := rfl
theorem Sys2Proof.Laws.TileWords.deviceReset (value : Word32) :
    Sys2Proof.Laws.TileWords.Statement (.deviceReset value) := rfl
theorem Sys2Proof.Laws.TileWords.releaseHold :
    Sys2Proof.Laws.TileWords.Statement (.releaseHold) := rfl
theorem Sys2Proof.Laws.TileWords.blockResetStart (value : Word32) :
    Sys2Proof.Laws.TileWords.Statement (.blockResetStart value) := rfl
theorem Sys2Proof.Laws.TileWords.powerControlApply (value : Word32) :
    Sys2Proof.Laws.TileWords.Statement (.powerControlApply value) := rfl
theorem Sys2Proof.Laws.TileWords.recoveryPieceReady :
    Sys2Proof.Laws.TileWords.Statement (.recoveryPieceReady) := rfl
theorem Sys2Proof.Laws.TileWords.recoveryFinish :
    Sys2Proof.Laws.TileWords.Statement (.recoveryFinish) := rfl
theorem Sys2Proof.Laws.TileWords.bar2Read (offset length : Nat) :
    Sys2Proof.Laws.TileWords.Statement (.bar2Read offset length) := rfl
theorem Sys2Proof.Laws.TileWords.bar2Write (offset : Nat) (bytes : List Byte) :
    Sys2Proof.Laws.TileWords.Statement (.bar2Write offset bytes) := rfl
theorem Sys2Proof.Laws.TileWords.doeRequest (object : DoeObject) :
    Sys2Proof.Laws.TileWords.Statement (.doeRequest object) := rfl
theorem Sys2Proof.Laws.TileWords.attestSignDone (h : HostReply) :
    Sys2Proof.Laws.TileWords.Statement (.attestSignDone h) := rfl
theorem Sys2Proof.Laws.TileWords.d3hotWrite :
    Sys2Proof.Laws.TileWords.Statement (.d3hotWrite) := rfl
theorem Sys2Proof.Laws.TileWords.d0Write :
    Sys2Proof.Laws.TileWords.Statement (.d0Write) := rfl
theorem Sys2Proof.Laws.TileWords.mainMemoryAccess (addr : Nat) (bytes : Option (List Byte)) (consumer : BitVec 4) (check : LineCheck) :
    Sys2Proof.Laws.TileWords.Statement (.mainMemoryAccess addr bytes consumer check) := rfl
theorem Sys2Proof.Laws.TileWords.dramRefresh (cycle : RefreshCycle) :
    Sys2Proof.Laws.TileWords.Statement (.dramRefresh cycle) := rfl
theorem Sys2Proof.Laws.TileWords.patrolScrub (addr : Nat) (check : LineCheck) :
    Sys2Proof.Laws.TileWords.Statement (.patrolScrub addr check) := rfl
theorem Sys2Proof.Laws.TileWords.channelRetrain (channel : Nat) :
    Sys2Proof.Laws.TileWords.Statement (.channelRetrain channel) := rfl
theorem Sys2Proof.Laws.TileWords.bankHoldRelease (region : Nat) :
    Sys2Proof.Laws.TileWords.Statement (.bankHoldRelease region) := rfl
theorem Sys2Proof.Laws.TileWords.drainSnapshotDone :
    Sys2Proof.Laws.TileWords.Statement (.drainSnapshotDone) := rfl
theorem Sys2Proof.Laws.TileWords.drainChunkReceive (manifest : List Byte) (index : Nat) (chunk leaf : List Byte) :
    Sys2Proof.Laws.TileWords.Statement (.drainChunkReceive manifest index chunk leaf) := rfl
theorem Sys2Proof.Laws.TileWords.drainVerified (owner : Option Word64) (outcome : DrainEnd) :
    Sys2Proof.Laws.TileWords.Statement (.drainVerified owner outcome) := rfl
theorem Sys2Proof.Laws.TileWords.tileFailure (t : Nat) (cause : FailCause) :
    Sys2Proof.Laws.TileWords.Statement (.tileFailure t cause) := rfl
theorem Sys2Proof.Laws.TileWords.spareFillComplete :
    Sys2Proof.Laws.TileWords.Statement (.spareFillComplete) := rfl
theorem Sys2Proof.Laws.TileWords.repairFrameReceive (frame : List Byte) :
    Sys2Proof.Laws.TileWords.Statement (.repairFrameReceive frame) := rfl
theorem Sys2Proof.Laws.TileWords.repairHoldTimeout :
    Sys2Proof.Laws.TileWords.Statement (.repairHoldTimeout) := rfl
theorem Sys2Proof.Laws.TileWords.spoilMapFlashDone :
    Sys2Proof.Laws.TileWords.Statement (.spoilMapFlashDone) := rfl
theorem Sys2Proof.Laws.TileWords.linkFlitReceive (p : Nat) (flit : List Byte) :
    Sys2Proof.Laws.TileWords.Statement (.linkFlitReceive p flit) := rfl
theorem Sys2Proof.Laws.TileWords.linkRetryLimit (p : Nat) :
    Sys2Proof.Laws.TileWords.Statement (.linkRetryLimit p) := rfl
theorem Sys2Proof.Laws.TileWords.linkSilenceTimeout (p : Nat) :
    Sys2Proof.Laws.TileWords.Statement (.linkSilenceTimeout p) := rfl
theorem Sys2Proof.Laws.TileWords.linkRetrained (p : Nat) (lanes : BitVec 2) :
    Sys2Proof.Laws.TileWords.Statement (.linkRetrained p lanes) := rfl
theorem Sys2Proof.Laws.TileWords.linkFailed (p : Nat) :
    Sys2Proof.Laws.TileWords.Statement (.linkFailed p) := rfl
theorem Sys2Proof.Laws.TileWords.pairingHandshakeReceive (p : Nat) (answer : Bool) (identity target : Word64) (feed : BitVec 9) (via : HandshakeVia) :
    Sys2Proof.Laws.TileWords.Statement (.pairingHandshakeReceive p answer identity target feed via) := rfl
theorem Sys2Proof.Laws.TileWords.pairAnswerTimeout :
    Sys2Proof.Laws.TileWords.Statement (.pairAnswerTimeout) := rfl
theorem Sys2Proof.Laws.TileWords.feedWarningReceive (identity : Word64) (feed : Byte) (time : Word64) (recovered : Bool) :
    Sys2Proof.Laws.TileWords.Statement (.feedWarningReceive identity feed time recovered) := rfl
theorem Sys2Proof.Laws.TileWords.datagramReceive (e : Nat) (ce : Bool) (frame : EthFrame) :
    Sys2Proof.Laws.TileWords.Statement (.datagramReceive e ce frame) := rfl
theorem Sys2Proof.Laws.TileWords.retransmitTimeout (partner psn : Nat) :
    Sys2Proof.Laws.TileWords.Statement (.retransmitTimeout partner psn) := rfl
theorem Sys2Proof.Laws.TileWords.ackTimer (partner : Nat) :
    Sys2Proof.Laws.TileWords.Statement (.ackTimer partner) := rfl
theorem Sys2Proof.Laws.TileWords.rateTimer (partner : Nat) :
    Sys2Proof.Laws.TileWords.Statement (.rateTimer partner) := rfl
theorem Sys2Proof.Laws.TileWords.pauseFrameReceive (e priority : Nat) (quanta : BitVec 16) :
    Sys2Proof.Laws.TileWords.Statement (.pauseFrameReceive e priority quanta) := rfl
theorem Sys2Proof.Laws.TileWords.arpNdRequest (e : Nat) (v6 : Bool) (address : BitVec 128) :
    Sys2Proof.Laws.TileWords.Statement (.arpNdRequest e v6 address) := rfl
theorem Sys2Proof.Laws.TileWords.powerOnReset (v48 : Bool) :
    Sys2Proof.Laws.TileWords.Statement (.powerOnReset v48) := rfl
theorem Sys2Proof.Laws.TileWords.supplyReset (rail : Rail) (auxStands : Bool) :
    Sys2Proof.Laws.TileWords.Statement (.supplyReset rail auxStands) := rfl
theorem Sys2Proof.Laws.TileWords.thermalReset (bench : Nat) :
    Sys2Proof.Laws.TileWords.Statement (.thermalReset bench) := rfl
theorem Sys2Proof.Laws.TileWords.thermalCooled :
    Sys2Proof.Laws.TileWords.Statement (.thermalCooled) := rfl
theorem Sys2Proof.Laws.TileWords.perstNAssert :
    Sys2Proof.Laws.TileWords.Statement (.perstNAssert) := rfl
theorem Sys2Proof.Laws.TileWords.perstNRelease :
    Sys2Proof.Laws.TileWords.Statement (.perstNRelease) := rfl
theorem Sys2Proof.Laws.TileWords.hotReset :
    Sys2Proof.Laws.TileWords.Statement (.hotReset) := rfl
theorem Sys2Proof.Laws.TileWords.flr :
    Sys2Proof.Laws.TileWords.Statement (.flr) := rfl
theorem Sys2Proof.Laws.TileWords.watchdogReset :
    Sys2Proof.Laws.TileWords.Statement (.watchdogReset) := rfl
theorem Sys2Proof.Laws.TileWords.debugReset :
    Sys2Proof.Laws.TileWords.Statement (.debugReset) := rfl
theorem Sys2Proof.Laws.TileWords.dawnStageComplete (i : DawnInput) :
    Sys2Proof.Laws.TileWords.Statement (.dawnStageComplete i) := rfl
theorem Sys2Proof.Laws.TileWords.twilightStart (rail : Rail) (millivolts : Nat) :
    Sys2Proof.Laws.TileWords.Statement (.twilightStart rail millivolts) := rfl
theorem Sys2Proof.Laws.TileWords.twilightRelease (rail : Rail) (lowest : Nat) :
    Sys2Proof.Laws.TileWords.Statement (.twilightRelease rail lowest) := rfl
theorem Sys2Proof.Laws.TileWords.powerSample (average hottest : Nat) (below10ms : Bool) :
    Sys2Proof.Laws.TileWords.Statement (.powerSample average hottest below10ms) := rfl
theorem Sys2Proof.Laws.TileWords.thermalThreshold (bench celsius : Nat) :
    Sys2Proof.Laws.TileWords.Statement (.thermalThreshold bench celsius) := rfl
theorem Sys2Proof.Laws.TileWords.thermalSpeedup (bench celsius : Nat) :
    Sys2Proof.Laws.TileWords.Statement (.thermalSpeedup bench celsius) := rfl
theorem Sys2Proof.Laws.TileWords.unlockChallengeRead (entropy : BitVec 256) :
    Sys2Proof.Laws.TileWords.Statement (.unlockChallengeRead entropy) := rfl
theorem Sys2Proof.Laws.TileWords.unlockResponse (response : List Byte) :
    Sys2Proof.Laws.TileWords.Statement (.unlockResponse response) := rfl
theorem Sys2Proof.Laws.TileWords.unlockTimeout :
    Sys2Proof.Laws.TileWords.Statement (.unlockTimeout) := rfl
theorem Sys2Proof.Laws.TileWords.feedGroupWrite (value : BitVec 9) :
    Sys2Proof.Laws.TileWords.Statement (.feedGroupWrite value) := rfl
theorem Sys2Proof.Laws.TileWords.mctpControl (assign : Option Byte) :
    Sys2Proof.Laws.TileWords.Statement (.mctpControl assign) := rfl
theorem Sys2Proof.Laws.TileWords.pldmSensorRead (sensor : Nat) :
    Sys2Proof.Laws.TileWords.Statement (.pldmSensorRead sensor) := rfl
theorem Sys2Proof.Laws.TileWords.sidebandVendorPacket (message : List Byte) :
    Sys2Proof.Laws.TileWords.Statement (.sidebandVendorPacket message) := rfl
theorem Sys2Proof.Laws.TileWords.sensorRefresh (readings : List Nat) :
    Sys2Proof.Laws.TileWords.Statement (.sensorRefresh readings) := rfl
theorem Sys2Proof.Laws.TileWords.alertResponseRead :
    Sys2Proof.Laws.TileWords.Statement (.alertResponseRead) := rfl
theorem Sys2Proof.Laws.TileWords.illegalInsn (t : Nat) (word : Word64) :
    Sys2Proof.Laws.TileWords.Statement (.illegalInsn t word) := rfl
theorem Sys2Proof.Laws.TileWords.blockResetComplete (kind index : Nat) :
    Sys2Proof.Laws.TileWords.Statement (.blockResetComplete kind index) := rfl
theorem Sys2Proof.Laws.TileWords.powerTransitionComplete :
    Sys2Proof.Laws.TileWords.Statement (.powerTransitionComplete) := rfl
theorem Sys2Proof.Laws.TileWords.copyComplete (n : Nat) (h : HostReply) :
    Sys2Proof.Laws.TileWords.Statement (.copyComplete n h) := rfl
theorem Sys2Proof.Laws.TileWords.restoreComplete (n : Nat) (copy : Option (List Byte)) :
    Sys2Proof.Laws.TileWords.Statement (.restoreComplete n copy) := rfl
theorem Sys2Proof.Laws.TileWords.firmwareWriteComplete (n : Nat) :
    Sys2Proof.Laws.TileWords.Statement (.firmwareWriteComplete n) := rfl
theorem Sys2Proof.Laws.TileWords.ethernetLinkChange (e : Nat) (up : Bool) (mode : BitVec 2) :
    Sys2Proof.Laws.TileWords.Statement (.ethernetLinkChange e up mode) := rfl
theorem Sys2Proof.Laws.TileWords.srefclkChange (present : Bool) :
    Sys2Proof.Laws.TileWords.Statement (.srefclkChange present) := rfl
theorem Sys2Proof.Laws.TileWords.pldmEventPoll :
    Sys2Proof.Laws.TileWords.Statement (.pldmEventPoll) := rfl
end

