-- ==== Sys2Proof/Machine/Placement.lean ====
section
/-! DEFINITION. Where logical tiles, routers, bridges and attachments lie on the die (R14 to R20, R24, R25, R30, R31, R34, R427), and which power domains
are on (R39, R40, R514).
Nothing that a command computes depends on it: these are readings of the spoil map. -/
namespace Sys2Proof.Machine

/-! ### Physical columns (R16, R18, R20) -/

/-- Row of the spoil map of a logical position (R18, R27). -/
def rowAt (x y : Nat) : Nat := (x / 16 + 3 * (y / 16)) * 16 + y % 16

/-- Physical column of a logical position (R20); its physical row is y (R18). -/
def State.physColumn (s : State) (x y : Nat) : Nat :=
  let r := s.row (rowAt x y)
  17 * (x / 16) + x % 16 + b2n (r.shifted && decide (r.offset.toNat ≤ x % 16))

/-- The logical column that a physical tile holds, if any (R20). -/
def State.logicalColumn (s : State) (column y : Nat) : Option Nat :=
  (List.range 48).find? fun x => s.physColumn x y == column

/-- A retired tile and a spare not in service are gated off, router included (R25). -/
def State.physGated (s : State) (column y : Nat) : Bool :=
  match s.logicalColumn column y with
  | some x => NMap.get none s.res.lost (rowAt x y) == some (BitVec.ofNat 4 (x % 16))
  | none => true

/-! ### Selectors (R24, R30) -/

/-- East and west ports pass over a physical column that holds no logical tile (R24). -/
def State.bypassed (s : State) (column y : Nat) : Bool := s.physGated column y

/-- Physical column that a tile's north or south port reaches in the adjacent row, less its own (R24). -/
def State.routerSelector (s : State) (x y : Nat) (south : Bool) : Option Int :=
  if south then (if y < 31 then some ((s.physColumn x (y + 1) : Int) - s.physColumn x y) else none)
  else if 0 < y then some ((s.physColumn x (y - 1) : Int) - s.physColumn x y) else none

/-- The selector of the bridge at an entry tile: physical column p or p + 1 (R30). -/
def State.bridgeSelector (s : State) (x y : Nat) : Nat := s.physColumn x y - (17 * (x / 16) + x % 16)

/-! ### Attachments (R31) -/

/-- An edge of a bench. -/
inductive Edge where
  | north | south | west | east
deriving DecidableEq, Repr

/-- The entry tile at an offset of an edge. -/
def entryTile (bench : Nat) (e : Edge) (offset : Nat) : Nat :=
  match e with
  | .north => tileAt (16 * (bench % 3) + offset) 0
  | .south => tileAt (16 * (bench % 3) + offset) 31
  | .west => tileAt 0 (16 * (bench / 3) + offset)
  | .east => tileAt 47 (16 * (bench / 3) + offset)

/-- Bench and edge of a channel, and the lowest channel of that edge. -/
def channelEdge (ch : Nat) : Nat × Edge × Nat :=
  if ch < 12 then (0, .north, 0) else if ch < 24 then (0, .west, 12) else if ch < 40 then (1, .north, 24)
  else if ch < 52 then (2, .north, 40) else if ch < 64 then (2, .east, 52) else if ch < 76 then (3, .west, 64)
  else if ch < 88 then (3, .south, 76) else if ch < 104 then (4, .south, 88) else if ch < 116 then (5, .south, 104)
  else (5, .east, 116)

/-- Entry tile of a channel: two channels an offset. -/
def channelEntry (ch : Nat) : Nat :=
  let e := channelEdge ch
  entryTile e.1 e.2.1 ((ch - e.2.2) / 2)

/-- Edges of the haul roads. -/
def roadEdge (p : Nat) : Edge := ([Edge.north, .north, .east, .east, .south, .south, .west, .west]).getD p .north

/-- Entry tile of a haul road for a source tile, or for a destination tile at the far end (R427). -/
def roadEntry (p t : Nat) : Nat := entryTile (roadBench p) (roadEdge p) (8 + t % 4)

/-- Entry tile of an Ethernet port for such a tile (R427). -/
def ethEntry (e t : Nat) : Nat :=
  entryTile (ethBench e) (if e < 2 then .north else .south) ((if e % 2 = 0 then 11 else 13) + t % 2)

/-- Entry tile of the control complex, and those of the PCIe gateway: one in compute service or in field mode on bench 1 (R31). -/
def controlEntry : Nat := entryTile 1 .north 8
def pcieEntries : List Nat := [entryTile 1 .north 9, entryTile 1 .north 10]

/-- Entry tile of a bench's service bridge; bench 1 has none (R31, R34). -/
def serviceEntry (b : Nat) : Option Nat :=
  match b with
  | 0 | 2 => some (entryTile b .north 6)
  | 3 => some (entryTile b .west 6)
  | 4 => some (entryTile b .south 9)
  | 5 => some (entryTile b .south 6)
  | _ => none

/-- Host and control traffic passes over the service link: field mode on a bench other than bench 1 (R34, R492). -/
def State.serviceLink (s : State) : Bool :=
  match s.pw.fieldBench with
  | some b => b != 1
  | none => false

/-! ### The power domains (R39, R40, R514) -/

/-- A switched power domain (R39). -/
inductive Domain where
  | tile (column row : Nat)
  | periphery (bench : Nat)
  | memGroup (p : Nat)
  | port (p : Nat)
  | pcie
  | digest (bench : Nat)
deriving DecidableEq, Repr

/-- A switched domain is on. -/
def State.domainOn (s : State) (d : Domain) : Bool :=
  s.pw.v48 &&
    match d with
    | .tile column row =>
      match s.logicalColumn column row with
      | some x =>
        !s.physGated column row && !(s.bench (rowAt x row / 16)).level.isGated
          && (match s.pw.fieldBench with | some f => f == rowAt x row / 16 | none => true)
      | none => false
    | .periphery b | .digest b => !s.deviceAsleep && (match s.pw.fieldBench with | some f => f == b | none => true)
    | .memGroup p => (match (s.memGroup p).state with | .off | .selfRefresh => false | _ => true)
    | .port p => !s.deviceAsleep && !s.portGated p && (p < roadCount || (s.ethPort (p - 8)).enable)
    | .pcie => true

/-- State of the PCIe link (R514). -/
inductive LinkPower where
  | l0 | l1 | off
deriving DecidableEq, Repr

/-- The link is in L1 at device-scope Midnight, when ASPM L1 is enabled or the function is in D3hot; at every other time in L0
(R514). L0 stands for the L0 or L1 of the awake states. -/
def State.pcieLink (s : State) : LinkPower :=
  if !s.pw.v48 || s.pw.perst then .off
  else if s.deviceAsleep && (s.host.pcie.aspmL1 || s.host.d3hot) then .l1 else .l0

/-- PWR_OK is released: D0 has completed (R560). -/
def State.pwrOk (s : State) : Bool := s.pw.v48 && decide (1 ≤ s.pw.stage)

/-! ### The TAP (R549, R562) -/

/-- What the JTAG TAP may be asked for. -/
inductive TapUse where
  | idcode | bypass | samplePreload | unlock
  | coreDebug | runControl | codeWindow | extest | debugReset
deriving DecidableEq, Repr

/-- A locked TAP offers four instructions; each scope bit opens what it grants (R549). -/
def State.tapOffers (s : State) (u : TapUse) : Bool :=
  match u with
  | .idcode | .bypass | .samplePreload | .unlock => true
  | .coreDebug => s.sec.debugScope.getLsbD 0
  | .runControl | .codeWindow => s.sec.debugScope.getLsbD 1
  | .extest | .debugReset => s.sec.debugScope.getLsbD 2

end Sys2Proof.Machine
end

