-- ==== Sys2Proof/Tests/Slice0.lean ====
section
/-! SUPPORT. Tests of single steps, and states that meet the hypotheses of the statements. -/
namespace Sys2Proof.Tests
open Sys2Proof.Machine

/-! ### Small states -/

/-- A tile that runs a class of four words. -/
def tileUp : Tile :=
  { Tile.init with core := { Tile.init.core with run := .running, halt := false, codeLen := 4 } }

/-- The device after reset, with tile 0 so. -/
def one (c : Tile) : State := { State.reset with tiles := [(0, c)] }

/-- A ring of 64 units with n of them in it. -/
def ringOf (n : Nat) : Ring := { Ring.init with size := 64, tail := BitVec.ofNat 32 n, valid := true }

/-- The state that a command leaves; unchanged where it does not answer a next state. -/
def after (c : Instr) (s : State) : State :=
  match exec c s with
  | .next s' => s'
  | _ => s

/-- One step. -/
def after' (s : State) : State :=
  match step s with
  | .next s' => s'
  | _ => s

/-- The command stops as one that names no unit of the device. -/
def refused (c : Instr) : Bool :=
  match exec c State.reset with
  | .fault .noSuchUnit => true
  | _ => false

/-- A packet with some fields given, at their offsets and sizes. -/
def packetOf (fs : List (Nat × Nat × Nat)) : List Byte :=
  fs.foldl (fun p f => patch p f.1 (leBytes f.2.1 f.2.2)) (List.replicate 64 0)

/-- Command 7 of queue 0 is held with this packet. -/
def holding (phase : HeldPhase) (p : List Byte) (s : State) : State :=
  { s with host := { s.host with held := [⟨7, 0, p, 0, phase⟩], nextStart := 8 } }

/-- A frame of nothing. -/
def noFrame : EthFrame := ⟨0, 0, none, 0, 0, 0, none, []⟩

/-! ### Terms that WellFormed refuses -/

theorem test_wellFormed_tile : (Instr.halt 1535).wellFormed = true ∧ (Instr.halt 1536).wellFormed = false := by decide
theorem test_wellFormed_slot :
    (Instr.moverUnitWrite 0 3 .ok).wellFormed = true ∧ (Instr.moverUnitWrite 0 4 .ok).wellFormed = false := by decide
theorem test_wellFormed_source :
    (Instr.haulDeliveryUnit (.tile 1535 0) 0).wellFormed = true ∧ (Instr.haulDeliveryUnit (.tile 1536 0) 0).wellFormed = false := by
  decide
theorem test_wellFormed_ring : (Instr.ringStall 0 31).wellFormed = true ∧ (Instr.ringStall 0 32).wellFormed = false := by decide
theorem test_wellFormed_group : (Instr.bellFire 7).wellFormed = true ∧ (Instr.bellFire 8).wellFormed = false := by decide
theorem test_wellFormed_queue : (Instr.queueDrained 63).wellFormed = true ∧ (Instr.queueDrained 64).wellFormed = false := by decide
theorem test_wellFormed_vector : (Instr.msixUnmask 127).wellFormed = true ∧ (Instr.msixUnmask 128).wellFormed = false := by decide
theorem test_wellFormed_window :
    (Instr.broadcastWrite 15 0 0).wellFormed = true ∧ (Instr.broadcastWrite 16 0 0).wellFormed = false
      ∧ (Instr.broadcastWrite 0 4096 0).wellFormed = false := by decide
theorem test_wellFormed_code :
    (Instr.codeWindowWrite 0 255 0).wellFormed = true ∧ (Instr.codeWindowWrite 0 256 0).wellFormed = false := by decide
theorem test_wellFormed_ringWord :
    (Instr.ringDescWrite 0 31 3 0).wellFormed = true ∧ (Instr.ringDescWrite 0 32 0 0).wellFormed = false
      ∧ (Instr.ringDescWrite 0 0 4 0).wellFormed = false := by decide
theorem test_wellFormed_scale :
    (Instr.scaleEntryWrite 8191 31 0).wellFormed = true ∧ (Instr.scaleEntryWrite 8192 0 0).wellFormed = false
      ∧ (Instr.scaleEntryWrite 0 32 0).wellFormed = false := by decide
theorem test_wellFormed_channel : (Instr.dramRefresh ⟨127, 0, 0⟩).wellFormed = true ∧ (Instr.dramRefresh ⟨128, 0, 0⟩).wellFormed
    = false := by decide
theorem test_wellFormed_road : (Instr.linkFailed 7).wellFormed = true ∧ (Instr.linkFailed 8).wellFormed = false := by decide
theorem test_wellFormed_port :
    (Instr.pairingHandshakeReceive 11 true 0 0 0 ⟨0, 0, 0⟩).wellFormed = true
      ∧ (Instr.pairingHandshakeReceive 12 true 0 0 0 ⟨0, 0, 0⟩).wellFormed = false := by decide
theorem test_wellFormed_ethernet :
    (Instr.datagramReceive 3 false noFrame).wellFormed = true ∧ (Instr.datagramReceive 4 false noFrame).wellFormed = false := by decide
theorem test_wellFormed_partner : (Instr.ackTimer 4095).wellFormed = true ∧ (Instr.ackTimer 4096).wellFormed = false := by decide
theorem test_wellFormed_rail :
    (Instr.twilightStart (.core 5) 0).wellFormed = true ∧ (Instr.twilightStart (.core 6) 0).wellFormed = false := by decide
theorem test_wellFormed_bench : (Instr.thermalReset 5).wellFormed = true ∧ (Instr.thermalReset 6).wellFormed = false := by decide
theorem test_wellFormed_sensor : (Instr.pldmSensorRead 12).wellFormed = true ∧ (Instr.pldmSensorRead 13).wellFormed = false := by
  decide

/-- What WellFormed refuses stops by name when it runs. -/
theorem test_illFormed_stops :
    refused (.halt 1536) = true ∧ refused (.moverUnitWrite 0 4 .ok) = true ∧ refused (.ringStall 0 32) = true
      ∧ refused (.bellFire 8) = true ∧ refused (.queueDrained 64) = true ∧ refused (.msixUnmask 128) = true
      ∧ refused (.codeWindowWrite 0 256 0) = true ∧ refused (.ringDescWrite 0 0 4 0) = true ∧ refused (.scaleEntryWrite 0 32 0)
        = true
      ∧ refused (.dramRefresh ⟨128, 0, 0⟩) = true ∧ refused (.linkFailed 8) = true ∧ refused (.datagramReceive 4 false noFrame) = true
      ∧ refused (.ackTimer 4096) = true ∧ refused (.twilightStart (.core 6) 0) = true ∧ refused (.thermalReset 6) = true
      ∧ refused (.pldmSensorRead 13) = true ∧ refused (.broadcastWrite 16 0 0) = true := by decide

/-! ### Words written out from the encodings (R53, R54, R568 to R573)

Fields from the top: class 4, op 8, a 5, b 5, c 5, d 5, immediate 32; a branch has a, b, link, 24 zeros and a target of 13 bits. -/

theorem test_decode_add : decodeInsn 9 0b0000_00000001_00011_00001_00010_00000_00000000000000000000000000000000
    = some (.add 9 3 1 (.reg 2)) := by decide
theorem test_decode_addi : decodeInsn 9 0b0000_01010001_00011_00001_00000_00000_11111111111111111111111111111110
    = some (.addi 9 3 1 (.imm 0xFFFF_FFFE)) := by decide
theorem test_decode_beq : decodeInsn 9 0b0001_00000011_00001_00010_00000_000000000000000000000000_0000000000101
    = some (.beq 9 1 2 5) := by decide
theorem test_decode_ld : decodeInsn 9 0b0001_00000001_00011_00001_00000_00000_00000000000000000000000000001000
    = some (.ld 9 3 1 8) := by decide
theorem test_decode_vfma : decodeInsn 9 0b0010_00000100_00001_00010_00011_00100_00000000000000000000000000000000
    = some (.vfmaF32 9 1 2 3 4 0) := by decide
theorem test_decode_mslb : decodeInsn 9 0b0011_00000100_00001_00010_00000_00011_00000000000000000000000000000111
    = some (.mslb 9 1 2 3 7) := by decide
theorem test_decode_movq : decodeInsn 9 0b0100_00000001_00001_00010_00000_00000_00000000000000000000000000000000
    = some (.movq 9 1 2) := by decide
theorem test_decode_send : decodeInsn 9 0b0101_00000001_00001_00010_00000_00011_00000000000000010000000000000000
    = some (.send 9 1 2 3 0x1_0000) := by decide
theorem test_decode_rset : decodeInsn 9 0b0110_00000001_00000_00010_00001_00000_00000000000000000000000000000000
    = some (.rset 9 2 1) := by decide
theorem test_decode_rngr : decodeInsn 9 0b0111_00000010_00000_00001_00010_00011_00000000000000000000000000000001
    = some (.rngr 9 1 2 3 1) := by decide
theorem test_decode_bell : decodeInsn 9 0b1000_00000010_00000_00011_00000_00000_00000000000000000000000100000010
    = some (.bell 9 3 0x102) := by decide
theorem test_decode_xwrv : decodeInsn 9 0b1001_00000100_00000_00001_00010_00000_00000000000000000000000000000000
    = some (.xwrv 9 1 2 0) := by decide
/-- R55: a reserved class, an undefined op, and a nonzero field that the op does not use are illegal. -/
theorem test_decode_illegal :
    decodeInsn 9 0xA000_0000_0000_0000 = none ∧ decodeInsn 9 0x0130_0000_0000_0000 = none
      ∧ decodeInsn 9 0b0000_00000001_00011_00001_00010_00001_00000000000000000000000000000000 = none
      ∧ decodeInsn 9 0b0010_00000101_10001_00010_00011_00000_00000000000000000000000000000000 = none := by decide

/-! ### Single steps, with results worked out by hand from the rules -/

/-- R568: ADD wraps modulo 2^64. -/
theorem test_add_wraps : ((after (.add 0 3 1 (.reg 2)) (one ((tileUp.setS 1 (BitVec.allOnes 64)).setS 2 2))).tile 0).sreg 3
    = 1 := by
  decide
/-- R46: s0 discards its write. -/
theorem test_add_s0 : ((after (.add 0 0 1 (.imm 5)) (one (tileUp.setS 1 7))).tile 0).sreg 0 = 0 := by decide
/-- R568: a source that is also the destination is read first. -/
theorem test_sub_same : ((after (.sub 0 1 1 (.reg 1)) (one (tileUp.setS 1 7))).tile 0).sreg 1 = 0 := by decide
/-- R569: MULH of the most negative number by itself is 2^62. -/
theorem test_mulh_min :
    ((after (.mulh 0 3 1 (.reg 1)) (one (tileUp.setS 1 (BitVec.intMin 64)))).tile 0).sreg 3 = 0x4000_0000_0000_0000 := by decide
/-- R52: division by zero, and −7 ÷ 2. -/
theorem test_div_zero : ((after (.div 0 3 1 (.imm 0)) (one (tileUp.setS 1 7))).tile 0).sreg 3 = BitVec.allOnes 64 := by decide
theorem test_rem_negative :
    ((after (.rem 0 3 1 (.imm 2)) (one (tileUp.setS 1 (0 - 7)))).tile 0).sreg 3 = BitVec.allOnes 64 := by decide
/-- R568: the shift amount is bits [5:0]. -/
theorem test_sra_amount : ((after (.sra 0 3 1 (.imm 0x41)) (one (tileUp.setS 1 (0 - 8)))).tile 0).sreg 3 = 0 - 4 := by decide
/-- R568: LUI keeps the low half. -/
theorem test_lui : ((after (.lui 0 3 (.imm 9)) (one (tileUp.setS 3 5))).tile 0).sreg 3 = 0x9_0000_0005 := by decide
/-- R570: a taken branch past the class faults PC_RANGE and stays at the branch. -/
theorem test_branch_range :
    ((after (.beq 0 1 2 4) (one tileUp)).tile 0).core.run = .faulted ∧ ((after (.beq 0 1 2 4) (one tileUp)).tile 0).core.pc = 0
      ∧ ((after (.beq 0 1 2 3) (one tileUp)).tile 0).core.pc = 3 := by decide
/-- R570, R571: ST stores little-endian, at the top of memory too. -/
theorem test_st_top :
    let s := after (.st 0 1 2 0) (one ((tileUp.setS 1 0x1F_FFF8).setS 2 0x0102_0304_0506_0708))
    s.dataByte 0 0x1F_FFF8 = 8 ∧ s.dataByte 0 0x1F_FFFF = 1 := by decide
/-- R49: a misaligned load faults. -/
theorem test_ld_misaligned : ((after (.ld 0 3 1 4) (one tileUp)).tile 0).core.run = .faulted := by decide
/-- R193: 1.0 + 1.0 = 2.0, and 1.0 × −2.0 = −2.0, in FP32. -/
theorem test_vadd_one :
    lane (((after (.vaddF32 0 3 1 1 0) (one (tileUp.setV 1 (lanes fun _ => 0x3F80_0000)))).tile 0).vreg 3) 31 = 0x4000_0000 := by
  decide
theorem test_vmul_sign :
    lane (((after (.vmulF32 0 3 1 2 0) (one ((tileUp.setV 1 (lanes fun _ => 0x3F80_0000)).setV 2
      (lanes fun _ => 0xC000_0000)))).tile 0).vreg 3) 0 = 0xC000_0000 := by decide
/-- R571: VSHUF wraps its lane numbers. -/
theorem test_vshuf :
    lane (((after (.vshuf 0 3 1 2) (one ((tileUp.setV 1 (lanes fun i => BitVec.ofNat 32 i)).setV 2
      (lanes fun i => BitVec.ofNat 32 (i + 33))))).tile 0).vreg 3) 31 = 0 := by decide
/-- R107: RPUSH moves the tail and RPOP the head. -/
theorem test_rpush : (((after (.rpush 0 5 3) (one (tileUp.setRing 5 (ringOf 2)))).tile 0).ring 5).tail = 5 := by decide
theorem test_rpop : (((after (.rpop 0 5 2) (one (tileUp.setRing 5 (ringOf 2)))).tile 0).ring 5).head = 2 := by decide
/-- R59: RPOP of more than is there waits. -/
theorem test_rpop_waits : ((after (.rpop 0 5 3) (one (tileUp.setRing 5 (ringOf 2)))).tile 0).core.run = .stalled := by decide
/-- R77: HALT is EARLY_HALT. -/
theorem test_halt : ((after (.halt 0) (one tileUp)).tile 0).core.run = .faulted := by decide
/-- R498: a command reset with keep_resident 0 clears the tiles. -/
theorem test_flr : (after .flr (one tileUp)).tiles = [] := by decide
/-- R391: the doorbell moves the tail of an active queue. -/
theorem test_doorbell :
    let s := State.reset.setQueue 3 { Queue.init with enable := true, state := .active, lastEntry := 7 }
    ((after (.sqTailDoorbell 3 5 []) s).queue 3).sqTail = 5 ∧ ((after (.sqTailDoorbell 3 8 []) s).queue 3).state = .error := by
  decide
/-- R37: a divided bench has an edge in every other full-clock cycle. -/
theorem test_tick :
    let s := State.reset.setBench 0 { BenchClock.init with requested := 1 }
    ((after' s).clock.tick, NMap.get 0 (after' (after' s)).clock.benchCycles 0, NMap.get 0 (after' (after' s)).clock.benchCycles 1)
      = (1, 1, 2) := by decide

/-! ### States that meet the hypotheses of the statements -/

/-- A read that leaves the tile as it was and gives bytes. -/
theorem reads_of {c : Tile} {x : Tile × Option (List Byte)} (h : x.1 = c) (k : x.2.isSome = true) : ∃ bs, x = (c, some bs) := by
  obtain ⟨y, z⟩ := x
  cases h
  exact (Option.isSome_iff_exists.mp k).imp fun _ e => by simp_all

/-- A check that leaves the state as it was and passes. -/
theorem passes_of {σ ε α : Type} {s : σ} {x : σ × Except ε α} {a : α} (h : x.1 = s) (k : x.2.toOption = some a) : x
    = (s, .ok a) := by
  obtain ⟨y, z⟩ := x
  cases h
  cases z with
  | ok b => exact congrArg _ (congrArg _ (Option.some.inj k))
  | error e => simp [Except.toOption] at k

theorem badMask_one : badMask 1 = false := by
  unfold badMask arrays
  split <;> rfl

theorem witness_WellFormedCommandsComplete : (Instr.stepEnd).wellFormed = true ∧ (Instr.bellFire 8).wellFormed = false := by decide

theorem witness_ScalarOpsWriteTheirResult :
    (one tileUp).takes 0 (3 :: 1 :: operandRegs (.reg 2)) [] = true ∧ (one tileUp).takes 0 (3 :: 0 :: operandRegs (.imm 5)) []
        = true := by
  decide

/-- Each of the three cases of a division. -/
theorem witness_DivisionHasDefinedResults :
    let s := one (tileUp.setS 1 (BitVec.intMin 64))
    s.takes 0 (3 :: 1 :: operandRegs (.imm 0)) [] = true ∧ (s.tile 0).src2 (.imm 0) = 0
      ∧ (s.tile 0).sreg 1 = BitVec.intMin 64 ∧ (s.tile 0).src2 (.imm 0xFFFF_FFFF) = BitVec.allOnes 64
      ∧ (s.tile 0).src2 (.imm 2) ≠ 0 ∧ (s.tile 0).src2 (.imm 2) ≠ BitVec.allOnes 64 := by decide

/-- Every selector, the first one past them, field mode, and a ring in each of its four conditions. -/
theorem witness_SysReadsTheSelectedProperty :
    let rings := ((tileUp.setRing 4 (ringOf 0)).setRing 5 { ringOf 1 with countPrefixed := true }).setRing 6
      { ringOf 0 with countPrefixed := true }
    let s := one rings
    let f := { s with pw := { s.pw with fieldBench := some 0 } }
    s.takes 0 (3 :: operandRegs (.imm 9)) [] = true ∧ f.takes 0 (3 :: operandRegs (.imm 3)) [] = true ∧ f.pw.fieldBench = some 0
      ∧ (∀ k, k < 11 → ((s.tile 0).src2 (.imm (BitVec.ofNat 32 k))).toNat % 2 ^ 32 = k) ∧ (3 : Word32) ≠ 9 ∧ (1 : SReg) ≠ 0
      ∧ ((s.tile 0).ring 7).valid = false ∧ ((s.tile 0).ring 4).valid = true ∧ ((s.tile 0).ring 4).countPrefixed = false
      ∧ ((s.tile 0).ring 5).valid = true ∧ ((s.tile 0).ring 5).countPrefixed = true ∧ 0 < ((s.tile 0).ring 5).available
      ∧ ((s.tile 0).ring 6).valid = true ∧ ((s.tile 0).ring 6).countPrefixed = true ∧ ((s.tile 0).ring 6).available = 0
      ∧ ∃ bs, (s.tile 0).readUnits 0 5 ((s.tile 0).ring 5).firstFree 1 = (s.tile 0, some bs) := by
  refine ⟨by decide, by decide, by decide, by decide, by decide, by decide, by decide, by decide, by decide, by decide, by decide,
      by decide,
    by decide, by decide, by decide, ?_⟩
  exact reads_of (by decide) (by decide)

/-- A branch that is taken inside the class, at its edge past the class, and one that is not taken. -/
theorem witness_BranchesGoWhereTheComparisonSays :
    let s := one (tileUp.setS 2 1)
    s.takes 0 [1, 1] [] = true ∧ s.takes 0 [1, 2] [] = true ∧ (s.tile 0).sreg 1 ≠ (s.tile 0).sreg 2
      ∧ (3 : BitVec 13).toNat < (s.tile 0).core.codeLen ∧ (s.tile 0).core.codeLen ≤ (4 : BitVec 13).toNat := by decide

theorem witness_JumpsAndStopsEndWhereStated :
    let s := one tileUp
    s.takes 0 [1, 2] [] = true ∧ s.takes 0 [] [] = true ∧ (3 : BitVec 13).toNat < (s.tile 0).core.codeLen
      ∧ (s.tile 0).core.codeLen ≤ (4 : BitVec 13).toNat ∧ decodeInsn 0 0xA000_0000_0000_0000 = none := by decide

/-- The highest place of both sizes, and the first ones past it and beside it. -/
theorem witness_LoadsAndStoresReachTheirBytes :
    let s := one (tileUp.setS 1 0x1F_FFF8)
    let v := one (tileUp.setS 1 0x1F_FF80)
    s.takes 0 [3, 1] [2] = true ∧ v.takes 0 [3, 1] [2] = true
      ∧ ((s.tile 0).sreg 1).toNat % 8 = 0 ∧ ((s.tile 0).sreg 1).toNat + 8 = 2 ^ 21 ∧ (s.tile 0).touch 0x1F_FFF8 8 = .ok
      ∧ (flipsIn (s.tile 0).mem.eccData (0x1F_FFF8 / 8) 1).isEmpty = true
      ∧ ((v.tile 0).sreg 1).toNat % 128 = 0 ∧ ((v.tile 0).sreg 1).toNat + 128 = 2 ^ 21 ∧ (v.tile 0).touch 0x1F_FF80 128 = .ok
      ∧ (flipsIn (v.tile 0).mem.eccData (0x1F_FF80 / 8) 16).isEmpty = true
      ∧ ((s.tile 0).sreg 1 + (8 : Word32).signExtend 64).toNat % 8 = 0
        ∧ 2 ^ 21 < ((s.tile 0).sreg 1 + (8 : Word32).signExtend 64).toNat + 8
      ∧ ((s.tile 0).sreg 1 + (1 : Word32).signExtend 64).toNat % 8 ≠ 0 := by decide

theorem witness_VectorLaneOpsWriteEveryLane : (one tileUp).takes 0 [1] [1, 2, 3, 4] = true := by decide
theorem witness_VectorFloatOpsRoundOnce : (one tileUp).takes 0 [] [1, 2, 3, 4] = true := by decide

/-- A tag with the tap bit, one that must wait for a post, and the reserved ones. -/
theorem witness_NormTagAddsTheSquares :
    let open' : Nt := ⟨List.replicate 4 ⟨0, 7, 0, false⟩, List.replicate 8 ⟨0, 8, 0, false⟩, 0⟩
    let s0 := one { tileUp with nt := open' }
    let s := { s0 with train := { s0.train with normEnable := true } }
    (one tileUp).takes 0 [] [1, 2, 3, 4] = true ∧ (0x8FFF : Word32).extractLsb' 16 16 = 0 ∧ (0x8FFF : Word32).getLsbD 12 = false
      ∧ (0x8FFF : Word32).extractLsb' 13 2 ≠ (3 : BitVec 2) ∧ (tileUp.nt.blocked 0 0xFFF) = false
      ∧ s.takes 0 [] [1, 2, 3, 4] = true ∧ ((0x8FFF : Word32).getLsbD 15 && s.train.normEnable && !s.inEval) = true
      ∧ (s.tile 0).nt.blocked 0 0xFFF = true ∧ (0xE000 : Word32).extractLsb' 13 2 = (3 : BitVec 2)
      ∧ (0x9000 : Word32).getLsbD 12 = true := by decide

theorem witness_VectorCompareReduceConvert :
    (one tileUp).takes 0 [3] [1, 2, 4] = true ∧ (7 : Word32).toNat < 8 ∧ 8 ≤ (8 : Word32).toNat ∧ 7 ≤ (7 : Word32).toNat
      ∧ Format.ofCode (6 : Fin 7) = some .int32 ∧ Format.ofCode (0 : Fin 7) = some .e4m3
      ∧ (0x1_0600 : Word32).toNat / 65536 % 4 = 1 ∧ (0x2_0006 : Word32).toNat / 65536 % 4 = 2
        ∧ (0x3_0000 : Word32).toNat / 65536 % 4 = 3
      ∧ 6 < (0x0007 : Word32).toNat % 256 ∧ 2 ^ 18 ≤ (0x4_0000 : Word32).toNat := by decide

/-- Tile 0 with a ring of 32,768 units, n of them there, in its memory the bytes `bs`. -/
def bigRing (n : Nat) : Tile := tileUp.setRing 1 { Ring.init with size := 32768, tail := BitVec.ofNat 32 n, valid := true }
def messageRing (rows units : Nat) : Tile :=
  let c := tileUp.setRing 1
    { Ring.init with size := 32768, tail := BitVec.ofNat 32 (units + 1), valid := true, countPrefixed := true }
  { c with mem := { c.mem with data := NMap.setRun 0 [] 0 (leBytes 4 rows ++ leBytes 4 units) } }

/-- What a message of `units` units for `rows` rows tells the instruction that takes it. -/
theorem messageRing_counts (rows units : Nat) (h : (messageRing rows units).readUnits 1 1 0 1
    = (messageRing rows units,
        some (((messageRing rows units).readUnits 1 1 0 1).2.getD []))) (hn : 0 < ((messageRing rows units).ring 1).available)
    (hp : ((messageRing rows units).ring 1).countPrefixed = true) (hf : ((messageRing rows units).ring 1).firstFree = 0)
    (k : CountUnit) (hk : k = CountUnit.parse (((messageRing rows units).readUnits 1 1 0 1).2.getD [])) :
    (messageRing rows units).countsAt 1 1 0 (some k) :=
  ⟨hp, hn, _, by rw [hf]; exact h, hk⟩

set_option maxRecDepth 20000 in
/-- A held load of FP8, alone and as a message; a product of 256 rows, and one of the message's row; a preload, both forms of MCLR,
an MEPI at the top of memory, a drain without and with a mask ring, an MFLG; and what each refuses. -/
theorem witness_MatrixInstructionsJoinTheirQueue :
    let c := bigRing 32768
    let e := (bigRing 0).setS 2 (2 ^ 21 - 128)
    let m := { (bigRing 0).setRing 31 { ringOf 0 with size := 32768 } with mx := { Mx.init with issueMask := [(0, (1, 31))] } }
    let u := messageRing 1 256
    (one c).takes 0 [2] [] = true ∧ c.mxFull = false ∧ (c.ring 1).valid = true ∧ c.countsAt 1 1 0 none ∧ enough none 0
      ∧ Format.ofCode (bitsAt (0x0000 : Word32).toNat 8 8) = some .e4m3 ∧ Format.e4m3.isOperand = true
        ∧ c.meets [(1, Format.e4m3.heldUnits)] []
      ∧ (0x601 : Word32).toNat = bitsAt (0x601 : Word32).toNat 8 8 * 256 + bitsAt (0x601 : Word32).toNat 0 1
      ∧ Format.ofCode (bitsAt (0x601 : Word32).toNat 8 8) = some .int32 ∧ Format.int32.isOperand = false
      ∧ (2 : Word32).toNat ≠ bitsAt (2 : Word32).toNat 8 8 * 256 + bitsAt (2 : Word32).toNat 0 1
      ∧ Format.ofCode c.mx.heldFmt0.toNat = some .e4m3 ∧ Format.e4m3.pairs .e4m3 = true ∧ c.mx.slabIssued = false
      ∧ badMask (fieldMask 0x8000_0200) = false ∧ natBit (0x8000_0200 : Word32).toNat 13 = false ∧ fieldRows 0x8000_0200 = 256
      ∧ fieldBase 0x8000_0200 + 256 ≤ 256 ∧ c.meets [(1, passingUnits .e4m3 Format.e4m3.kPass 256 1 none)] []
      ∧ natBit (0x2000 : Word32).toNat 13 = true ∧ natBit (0x100 : Word32).toNat 8 = true
      ∧ Format.ofCode (fieldFmt 0x8000_0205) = some .fp32 ∧ Format.fp32.isPreload = true ∧ Format.fp32.isOperand = false
      ∧ natBit (0x8000_0205 : Word32).toNat 8 = false ∧ Format.e4m3.isPreload = false
        ∧ c.meets [(1, preloadUnits .fp32 false false 256 1)] []
      ∧ bitsAt (3 : Word32).toNat 13 2 = 0 ∧ bitsAt (3 : Word32).toNat 2 7 = 0 ∧ natBit (3 : Word32).toNat 1 = true
      ∧ natBit (0x8000_0200 : Word32).toNat 1 = false ∧ bitsAt (0x8000_0200 : Word32).toNat 2 7 = 0
      ∧ (one e).takes 0 [2] [] = true ∧ e.readable (e.sreg 2).toNat 40 ∧ (e.sreg 2).toNat + 128 = 2 ^ 21 ∧ (7 : Word32).toNat < 8
      ∧ Format.fp32.isDrain = true ∧ Format.int32.isDrain = false ∧ badMask (drainMask 0x8000_0105) = false
      ∧ NMap.get (0, 0) e.mx.issueMask 0 = ((0, 0) : BitVec 2 × Byte) ∧ e.meets [] [(1, blockUnits .fp32 256 32)]
      ∧ NMap.get (0, 0) m.mx.issueMask 0 = ((1, 31) : BitVec 2 × Byte) ∧ (m.ring 31).valid = true
      ∧ m.meets [] [(1, blockUnits .fp32 256 32), (31, maskUnits 256 32)] ∧ (15 : Word32).toNat < 16
      ∧ (one u).takes 0 [2] [] = true ∧ (∃ k, u.countsAt 1 1 0 (some k) ∧ k.rows = 1 ∧ enough (some k) Format.e4m3.heldUnits
        ∧ u.meets [(1, 1 + k.units)] [] ∧ fieldRows 0x0000_0200 = 0) := by
  refine ⟨by decide, by decide, by decide, by unfold Tile.countsAt; decide, fun _ h => by simp at h, by decide, by decide, ?_,
      by decide, by decide, by decide,
    by decide, by decide, by decide, by decide, badMask_one, by decide, by decide, by decide, ?_, by decide, by decide, by decide,
        by decide,
    by decide, by decide, by decide, ?_, by decide, by decide, by decide, by decide, by decide, by decide, ?_, by decide,
        by decide, by decide,
    by decide, badMask_one, by decide, ?_, by decide, by decide, ?_, by decide, by decide, ?_⟩
  case refine_7 =>
    refine ⟨CountUnit.parse (((messageRing 1 256).readUnits 1 1 0 1).2.getD []),
      messageRing_counts _ _ (by decide) (by decide) (by decide) (by decide) _ rfl, by decide, ?_, ?_, by decide⟩
    · intro u h
      obtain rfl := Option.some.inj h
      decide
    · unfold Tile.meets; decide
  all_goals first | (unfold Tile.meets; decide) | (unfold Tile.readable; decide)

/-- The directory entry of an empty FP8 slab at the address in s2, for rings without and with a count unit; a place off a multiple
of
16, and the dense mode. -/
theorem witness_SlabProductClaimsBothRings :
    let slab (c : Tile) : Tile := { c with mx := { Mx.init with slabIssued := true } }
    let c := slab (bigRing 32768)
    let u := slab ((messageRing 1 256).setS 2 0x1000)
    let bs := (List.range 16).map fun i => (one c).dataByte 0 i
    (one c).takes 0 [2] [] = true ∧ c.mxFull = false ∧ c.core.held = none ∧ natBit (0x2000_0200 : Word32).toNat 13 = false
      ∧ c.readable 0 16 ∧ (c.ring 1).valid = true ∧ c.countsAt 1 1 0 none ∧ c.countsAt 1 1 1 none ∧ enough none 1
      ∧ Format.ofCode (fieldFmt 0x2000_0200) = some .e4m3 ∧ Format.ofCode (DirEntry.parse bs).format = some .e4m3
      ∧ Format.e4m3.isOperand = true ∧ Format.e4m3.pairs .e4m3 = true ∧ Format.e4m3.isMx = false
      ∧ badMask (fieldMask 0x2000_0200) = false ∧ fieldRows 0x2000_0200 = 64 ∧ fieldBase 0x2000_0200 + 64 ≤ 64
      ∧ c.meets [(1, slabUnits .e4m3 (DirEntry.parse bs).blocks), (1, passingUnits .e4m3 128 64 1 none)] []
      ∧ (8 : Word64).toNat % 16 ≠ 0 ∧ (bigRing 0).mx.slabIssued = false
      ∧ (one u).takes 0 [2] [] = true ∧ u.readable 0x1000 16 ∧ fieldRows 0x0000_0200 = 0
      ∧ ∃ k, u.countsAt 1 1 0 (some k) ∧ k.rows = 1 ∧ enough (some k) (passingUnits .e4m3 128 1 1 none)
        ∧ u.meets [(1, 1 + k.units)] [] := by
  refine ⟨by decide, by decide, by decide, by decide, ?_, by decide, by unfold Tile.countsAt; decide,
      by unfold Tile.countsAt; decide,
    fun _ h => by simp at h, by decide, by decide, by decide, by decide, by decide, badMask_one, by decide, by decide, ?_,
        by decide, by decide,
    by decide, ?_, by decide, ?_⟩
  case refine_4 =>
    refine ⟨CountUnit.parse (((messageRing 1 256).readUnits 1 1 0 1).2.getD []), ⟨by decide, by decide, _, ?_, rfl⟩, by decide, ?_,
        ?_⟩
    · decide
    · intro u h
      obtain rfl := Option.some.inj h
      decide
    · unfold Tile.meets; decide
  all_goals first | (unfold Tile.meets; decide) | (unfold Tile.readable; decide)

/-- Bytes of a structure from fields given at their offsets and sizes. -/
def bytesOf (n : Nat) (fs : List (Nat × Nat × Nat)) : List Byte :=
  fs.foldl (fun p f => patch p f.1 (leBytes f.2.1 f.2.2)) (List.replicate n 0)

/-- A copy of 3 units from ring 4 to ring 5, its status at `at'`. -/
def copyBytes (at' : Nat) : List Byte := bytesOf 128 [(0, 1, 1), (1, 1, 3), (2, 1, 5), (4, 4, 3), (28, 4, at')]

set_option maxRecDepth 20000 in
/-- A copy from a ring with its status at the end of tile memory, past it and off a multiple of 8; one from main memory; a bad one;
and one whose message is too long. -/
theorem witness_MoverInstructionsQueueAndCount :
    let c := ((tileUp.setRing 4 (ringOf 3)).setRing 5 (ringOf 0)).setV 1 (bytesLanes (copyBytes 0x1F_FFF8))
    let desc (v : Tile) := Desc.parse ((laneBytes (v.vreg 1)).take 32)
    let x := desc c
    let y := desc (tileUp.setV 1 (bytesLanes (copyBytes 0x20_0000)))
    let z := desc (tileUp.setV 1 (bytesLanes (copyBytes 4)))
    let m := desc (tileUp.setV 1 (bytesLanes (bytesOf 128 [(0, 1, 1), (1, 1, 2), (2, 1, 5)])))
    (one c).takes 0 [2] [1] = true ∧ x.badField = false ∧ x.statusOffset % 8 = 0 ∧ x.statusOffset + 8 = 2 ^ 21
        ∧ c.mv.queue.length < 64
      ∧ x.dstIsRing = true ∧ (c.ring (BitVec.ofNat 5 x.dstRing)).valid = true ∧ x.srcIsRing = true ∧ (c.ring 4).valid = true
      ∧ c.countsAt 3 4 0 none ∧ c.meets [(4, x.length)] [] ∧ y.badField = false ∧ y.statusOffset % 8 = 0
        ∧ 2 ^ 21 < y.statusOffset + 8
      ∧ z.badField = false ∧ z.statusOffset % 8 ≠ 0 ∧ m.badField = false ∧ m.srcIsRing = false ∧ (desc tileUp).badField = true
      ∧ ∃ k, (messageRing 1 4).countsAt 3 1 0 (some k) ∧ x.length < k.units := by
  refine ⟨by decide, by decide, by decide, by decide, by decide, by decide, by decide, by decide, by decide,
      by unfold Tile.countsAt; decide,
    ?_, by decide, by decide, by decide, by decide, by decide, by decide, by decide, by decide,
    CountUnit.parse (((messageRing 1 4).readUnits 3 1 0 1).2.getD []), ⟨by decide, by decide, _, ?_, rfl⟩, by decide⟩
  · unfold Tile.meets; decide
  · decide

/-- A send of the 3 units of ring 4 to the members of group 0, which is tile 0. -/
def groupZero : BellGroup := { BellGroup.init with loaded := true, members := [0] }
def withGroup (s : State) : State := s.setGroup 0 groupZero

set_option maxRecDepth 20000 in
/-- A plain send, one with a reserved bit, one of length 0, one to nowhere; a counted one from a ring, one whose count passes the
length, one from a ring that is not initialised; and one from a region that ends past the memory. -/
theorem witness_SendQueuesUnderItsGroup :
    let c := (tileUp.setRing 4 (ringOf 3)).setS 1 0x1F_FFC0
    let s := withGroup (one c)
    let imm : Word32 := 0x0003_0400
    let u := messageRing 1 3
    let bs := (u.readUnits 0 1 0 1).2.getD []
    s.takes 0 [1, 2] [] = true ∧ bitsAt imm.toNat 3 5 = 0 ∧ bitsAt (0x0003_0408 : Word32).toNat 3 5 ≠ 0 ∧ bitsAt imm.toNat 16 16 ≠ 0
      ∧ bitsAt (0x0000_0400 : Word32).toNat 16 16 = 0 ∧ (s.sendTargets (bitsAt imm.toNat 8 3) (c.sreg 2).toNat).isSome = true
      ∧ imm.getLsbD 0 = false ∧ imm.getLsbD 2 = false ∧ (c.ring 4).countPrefixed = false ∧ c.core.held = none
        ∧ c.sd.queue.length < 32
      ∧ c.meets [(4, bitsAt imm.toNat 16 16)] [] ∧ (one c).sendTargets (bitsAt imm.toNat 8 3) (c.sreg 2).toNat = none
      ∧ (c.ring 5).valid = false ∧ (0x0003_0404 : Word32).getLsbD 2 = true ∧ 2 ^ 21 < (c.sreg 1).toNat + 64 * 3
      ∧ (c.sreg 1).toNat + 64 * 1 ≤ 2 ^ 21 ∧ c.readable (c.sreg 1).toNat 64
      ∧ (u.ring 1).valid = true ∧ 0 < (u.ring 1).available ∧ u.readUnits 0 1 (u.ring 1).firstFree 1 = (u, some bs)
      ∧ (CountUnit.parse bs).units = 3 ∧ u.meets [(1, 1 + (CountUnit.parse bs).units)] [] ∧ 2 < (CountUnit.parse bs).units := by
  refine ⟨by decide, by decide, by decide, by decide, by decide, by decide, by decide, by decide, by decide, by decide, by decide,
      ?_, by decide,
    by decide, by decide, by decide, by decide, ?_, by decide, by decide, by decide, by decide, ?_, by decide⟩
  all_goals first | (unfold Tile.meets; decide) | (unfold Tile.readable; decide)

/-- A descriptor of 64 units at the end of memory; a ring that is full, one that is empty, and one with a claim. -/
theorem witness_RingInstructionsMoveTheirCounters :
    let w := (Ring.pack { ringOf 0 with base := 32704 })
    let c := tileUp.setV 1 (lanes fun i => (w >>> (32 * i)).setWidth 32)
    let v : BitVec 128 := lane (c.vreg 1) 3 ++ lane (c.vreg 1) 2 ++ lane (c.vreg 1) 1 ++ lane (c.vreg 1) 0
    (one c).takes 0 [2] [1] = true ∧ (c.ring 4).claimed = 0 ∧ (c.ring 4).reserved = 0 ∧ (Ring.unpack v).wellFormed c.pageAttr = true
      ∧ (ringOf 0).valid = true ∧ (c.ring 4).valid = false ∧ (64 : Word32).toNat ≤ (ringOf 0).size.toNat
        ∧ (64 : Word32).toNat ≤ (ringOf 0).room
      ∧ (64 : Word32).toNat ≤ (ringOf 64).available ∧ (ringOf 64).claims = [] ∧ (ringOf 0).size.toNat < (65 : Word32).toNat
      ∧ (ringOf 64).room < (1 : Word32).toNat ∧ (ringOf 0).available < (1 : Word32).toNat ∧ (ringOf 64).room < (65 : Word32).toNat
      ∧ ({ ringOf 64 with claims := [⟨5, 1, false⟩] } : Ring).claims ≠ [] ∧ ({ ringOf 64 with claimed := 1 } : Ring).claimed ≠ 0
      ∧ (Ring.unpack (Ring.pack { ringOf 0 with base := 32705 })).wellFormed tileUp.pageAttr = false := by decide

/-- The state with main memory in service, its interleave that of the whole device, checked. -/
def plainMem (s : State) : State :=
  { s with mm := { s.mm with
    cur := ⟨false, false, false⟩, trained := true, groups := (List.range 32).map fun g => (g, MemGroup.mk .service 0) } }

theorem witness_RandomAndReachInstructionsQueue :
    let c := (tileUp.setRing 4 (ringOf 0)).setS 2 (BitVec.ofNat 64 (tileWindowBase + 0x1F_FF80))
    (plainMem (one c)).takes 0 [1, 1, 2, 3] [1] = true ∧ (1 : Word32).toNat < 2 ∧ c.rnFull = false
        ∧ c.meets [] [(4, (64 : Word32).toNat)]
      ∧ (64 : Word32) ≠ 0 ∧ 2 ≤ (2 : Word32).toNat
      ∧ c.rc.out.length < 16 ∧ (c.sreg 2 + (0 : Word32).signExtend 64).toNat % ReachOp.writeV.size = 0
      ∧ (plainMem (one c)).reachOk .writeV (c.sreg 2 + (0 : Word32).signExtend 64).toNat = true
      ∧ (plainMem (one c)).reachOk .readS (c.sreg 2 + (0 : Word32).signExtend 64).toNat = true
      ∧ (c.sreg 2 + (4 : Word32).signExtend 64).toNat % ReachOp.readS.size ≠ 0
      ∧ (c.sreg 2 + (128 : Word32).signExtend 64).toNat % ReachOp.readV.size = 0
      ∧ (plainMem (one c)).reachOk .readV (c.sreg 2 + (128 : Word32).signExtend 64).toNat = false := by
  refine ⟨by decide, by decide, by decide, ?_, by decide, by decide, by decide, by decide, by decide, by decide, by decide,
      by decide, by decide⟩
  unfold Tile.meets; decide

/-- A member of group 0 at its cut bell, at its haul bell of an image that allows rolling, and at its final bell. -/
theorem witness_SyncInstructionsFenceExpectAndArrive :
    let s := withGroup (one tileUp)
    let at' (p : BellPhase) := withGroup (one (tileUp.setMember 0 { Member.init with phase := p }))
    let rolls : Image := ⟨[], 0, 0, 2, 1, [], [], [], [], [], [], [], []⟩
    let rolling : State := { at' .haul with image := some rolls }
    s.takes 0 [1] [1] = true ∧ tileUp.fenced 31 = true ∧ 0 ∈ s.groupsOf 0 ∧ (tileUp.member 0).phase = .cut ∧ ¬ 1 ∈ s.groupsOf 0
      ∧ tileUp.core.fault.valid = false
        ∧ ({ tileUp with rn := { Rn.init with queue := [⟨5, false, 1, 0, 2, 0, false, 0⟩] } }).fenced 31 = false
      ∧ rolling.takes 0 [1] [1] = true ∧ ((rolling.tile 0).member 0).phase = .haul ∧ rolling.imageFlag 1 = true
      ∧ s.imageFlag 1 = false ∧ (at' .done).takes 0 [1] [1] = true ∧ (((at' .done).tile 0).member 0).phase = .done
      ∧ (at' .final).takes 0 [1] [1] = true
      ∧ (∀ h ∈ (at' .final).groupsOf 0, (((at' .final).tile 0).member h).phase = .final ∧ (((at' .final).tile 0).member h).arrived
        = false)
      ∧ 32 ≤ (32 : Word32).toNat ∧ 8 ≤ (8 : Word32).toNat ∧ bitsAt (8 : Word32).toNat 3 5 ≠ 0 := by decide

/-- A matrix item, and a tile whose matrix engine stands so. -/
def mxItem (op : MxOp) (imm : Word32) : MxItem := MxItem.blank 5 op 0 0 imm
def mxTile (m : Mx) : Tile := { bigRing 32768 with mx := m }

set_option maxRecDepth 20000 in
/-- An MCLR; an MSLB whose header, in ring 1, is that of the empty slab, and one whose is not; an MDRN whose slot is empty,
filled, and of
a block-scaled output beside a scale of its own. -/
theorem witness_MatrixDispatchFillsTheStage :
    let c (i : MxItem) := mxTile { Mx.init with queue := [i] }
    let slab (blocks : Nat) : MxItem := { mxItem .mslb 0x2000_0200 with ringA := 1, unitsA := 1, dir := bytesOf 16 [(6, 2, blocks)] }
    let record (flags : Nat) := bytesOf 128 [(0, 4, flags)]
    let d (r : Option EpiSlot) (imm : Word32) := mxTile { Mx.init with queue := [mxItem .mdrn imm], slots := NMap.put [] 7 r }
    let hdr := ((c (slab 0)).readUnits 1 1 0 1).2.getD []
    (one (c (mxItem .mclr 2))).works 0 = true ∧ (c (mxItem .mclr 2)).core.run ≠ .emptyCut ∧ (c (mxItem .mclr 2)).mx.queue
        = mxItem .mclr 2 :: []
      ∧ (c (mxItem .mclr 2)).mx.stopped = none ∧ (c (mxItem .mclr 2)).mx.loader = none ∧ (c (mxItem .mclr 2)).mx.feed = none
      ∧ (c (mxItem .mclr 2)).mx.drain = none ∧ (mxItem .mclr 2).op ≠ .mslb ∧ (mxItem .mclr 2).op ≠ .mdrn
      ∧ (c (slab 0)).readUnits 1 (slab 0).ringA (slab 0).startA 1 = (c (slab 0), some hdr)
      ∧ Format.ofCode (DirEntry.parse (slab 0).dir).format = some .e4m3
      ∧ headerAgrees (DirEntry.parse (slab 0).dir) .e4m3 ((slab 0).imm.getLsbD 14) (blockMap hdr) = true
      ∧ headerAgrees (DirEntry.parse (slab 1).dir) .e4m3 ((slab 1).imm.getLsbD 14) (blockMap hdr) = false
      ∧ bitsAt (0x7005 : Word32).toNat 12 3 = 7 ∧ Format.ofCode (fieldFmt 0x7005) = some .fp32
      ∧ NMap.get none (d none 0x7005).mx.slots 7 = none
      ∧ NMap.get none (d (some ⟨record 0, 0⟩) 0x7005).mx.slots 7 = some ⟨record 0, 0⟩
      ∧ (Format.fp32.isMx && (EpiRecord.parse (record 0)).outScale) = false
      ∧ (EpiRecord.parse (record 0)).rangeOk (modeCols false) = true := by decide

set_option maxRecDepth 20000 in
/-- An MMUL of the last row, an MSLB of an empty slab, an MACC of one row, and MCLR in both forms. -/
theorem witness_MatrixFeedWritesOnlyItsRows :
    let i : MxItem := { mxItem .mmul 0x8001_FE00 with ringA := 1, rows := 1 }
    let c := mxTile { Mx.init with feed := some i }
    let j : MxItem := { mxItem .mslb 0x2000_0200 with ringA := 1, unitsA := 1, ringB := 1, startB := 1, rows := 1 }
    let d := mxTile { Mx.init with feed := some j, slab := true }
    let k : MxItem := { mxItem .macc 0x8000_0205 with ringA := 1, rows := 1 }
    (one c).works 0 = true ∧ c.core.run ≠ .emptyCut ∧ c.mx.feed = some i ∧ c.mx.stopped = none ∧ c.mx.loader = none ∧ c.mx.drain
        = none
      ∧ c.mx.slab = false ∧ i.op = .mmul ∧ Format.ofCode (fieldFmt i.imm) = some .e4m3
      ∧ fieldBase i.imm + i.rows ≤ modeRows c.mx.slab
      ∧ (∃ bs, c.readUnits 1 i.ringA (i.startA + b2n i.prefixed)
          (passingUnits .e4m3 Format.e4m3.kPass i.rows (maskArrays (fieldMask i.imm)).length i.groupMap) = (c, some bs))
      ∧ d.mx.feed = some j ∧ j.op = .mslb ∧ d.mx.slab = true
      ∧ Format.ofCode (fieldFmt j.imm) = some .e4m3 ∧ fieldBase j.imm + j.rows ≤ modeRows d.mx.slab
      ∧ Format.ofCode (DirEntry.parse j.dir).format = some .e4m3 ∧ (DirEntry.parse j.dir).blocks = 0
      ∧ (∃ bs, d.readUnits 1 j.ringA j.startA j.unitsA = (d, some bs))
      ∧ (∃ bs, d.readUnits 1 j.ringB (j.startB + b2n j.prefixed)
          (passingUnits .e4m3 128 j.rows (maskArrays (fieldMask j.imm)).length j.groupMap) = (d, some bs))
      ∧ Format.ofCode (fieldFmt k.imm) = some .fp32 ∧ k.imm.getLsbD 14 = false
      ∧ (∃ bs, (mxTile { Mx.init with feed := some k }).readUnits 1 k.ringA (k.startA + b2n k.prefixed)
          (preloadUnits .fp32 false (k.imm.getLsbD 14) k.rows (maskArrays (fieldMask k.imm)).length)
            = (mxTile { Mx.init with feed := some k }, some bs))
      ∧ (2 : Word32).getLsbD 1 = true ∧ (0 : Word32).getLsbD 1 = false := by
  refine ⟨by decide, by decide, by decide, by decide, by decide, by decide, by decide, by decide, by decide, by decide,
    reads_of (by decide) (by decide), by decide, by decide, by decide, by decide, by decide, by decide, by decide,
    reads_of (by decide) (by decide), reads_of (by decide) (by decide), by decide, by decide, reads_of (by decide) (by decide),
    by decide, by decide⟩

set_option maxRecDepth 20000 in
/-- Zero operands, a zero record and one of a reserved kind; a drain of two units, the second of which lands last; an MFLG. -/
theorem witness_MatrixLoaderAndDrainFinish :
    let i := { mxItem .mldh 1 with ringA := 1 }
    let c := mxTile { Mx.init with loader := some i }
    let e := mxTile { Mx.init with loader := some { mxItem .mepi 7 with p := 2 ^ 21 - 128 } }
    let o : DrainOut := { units := [List.replicate 64 1, List.replicate 64 2], masks := [], found := 0x3F80_0000 }
    let record (amax : Nat) := bytesOf 128 [(0, 4, 256 * amax), (0x20, 4, 0x1F_FFF8)]
    let d (amax : Nat) := { mxItem .mdrn 0 with ringD := 1, out := some o, written := [0, 1], slot := some ⟨record amax, 0⟩ }
    let w := { (bigRing 0).modRing 1 fun x => { x with reserved := 1, owners := [(5, false, 1)] } with
      mx := { Mx.init with drain := some { d 0 with written := [0] } } }
    let u := mxTile { Mx.init with drain := some (d 0) }
    let v := mxTile { Mx.init with drain := some (d 1) }
    let g := mxTile { Mx.init with drain := some (mxItem .mflg 0) }
    (one c).works 0 = true ∧ c.core.run ≠ .emptyCut ∧ c.mx.stopped = none ∧ c.mx.loader = some i ∧ i.op = .mldh
      ∧ Format.ofCode (bitsAt i.imm.toNat 8 8) = some .e4m3
      ∧ (∃ bs, c.readUnits 1 i.ringA (i.startA + b2n i.prefixed) Format.e4m3.heldUnits = (c, some bs))
      ∧ e.touch (2 ^ 21 - 128) 128 = .ok ∧ (∃ bs, e.readData 1 (2 ^ 21 - 128) 128 = (e, some bs))
      ∧ EpiRecord.valid (one e) e ((mxItem .mepi 7).installed (List.replicate 128 0)) = true
      ∧ EpiRecord.valid (one e) e ((mxItem .mepi 7).installed (List.replicate 128 0xFF)) = false
      ∧ (one w).works 0 = true ∧ w.mx.drain = some { d 0 with written := [0] } ∧ w.mx.feed = none ∧ w.rn.arming = false
      ∧ 1 < o.units.length ∧ ¬ 1 ∈ [0] ∧ (o.units.getD 1 []).length = 64 ∧ (w.ring 1).isNext 5 false = true
      ∧ u.mx.drain = some (d 0) ∧ o.units.length + o.masks.length ≤ (d 0).written.length ∧ (EpiRecord.parse (record 0)).amax = false
      ∧ (EpiRecord.parse (record 1)).amax = true
      ∧ (∃ bs, { v with mx := { v.mx with drain := none } }.readData 1 (EpiRecord.parse (record 1)).amaxOffset 4
          = ({ v with mx := { v.mx with drain := none } }, some bs))
      ∧ g.mx.drain = some (mxItem .mflg 0) ∧ g.mx.loader = none ∧ g.mx.feed = none := by
  refine ⟨by decide, by decide, by decide, by decide, by decide, by decide, reads_of (by decide) (by decide), by decide,
    reads_of (by decide) (by decide), by decide, by decide, by decide, by decide, by decide, by decide, by decide, by decide,
        by decide,
    by decide, by decide, by decide, by decide, by decide, reads_of (by decide) (by decide), by decide, by decide, by decide⟩

/-- A descriptor that runs in the last slot with these acts, of these bytes. -/
def mvRunOf (desc : List Byte) (l : List MvAct) : MvRun :=
  { item := ⟨5, desc, 4, 0, 3, none⟩, params := [], scale := 0, plan := some l, progress := 0, result := 0
    failed := none, waiting := false, pageWait := none }
def copyRun : List MvAct → MvRun := mvRunOf ((copyBytes 0x1F_FFF8).take 32)

/-- A mover's read of ready tile memory. -/
theorem mvRead_tile {s : State} {x : Span} {t off : Nat} {bs : List Byte} (hl : x.len ≠ 0) (hh : x.host = false)
    (hp : s.place x.addr x.len = .tile t off) (hi : s.isolated t = false)
    (hr : (s.tile t).mem.ready = true) (ht : (s.tile t).touch off x.len = .ok) (hd : (s.tile t).readData 3 off x.len = (s.tile t,
        some bs))
    (hs : s.setTile t (s.tile t) = s) : s.mvRead .ok x = (s, .ok bs) := by
  simp only [State.mvRead, hl, hh, hp, hi, hr, ht, hd, hs, if_false, Bool.false_eq_true, Bool.not_true]

theorem one_setTile (c : Tile) : (plainMem (one c)).setTile 0 ((plainMem (one c)).tile 0) = plainMem (one c) := rfl

set_option maxRecDepth 20000 in
/-- A copy and a cast that start, the cast with its parameters at the end of memory, past it and off a multiple of 64; a unit for
a ring
with room and a full one, and bytes for the last of tile memory; a descriptor that ends; a fill, its page read and lost. -/
theorem witness_MoverCarriesItsDescriptorsThrough :
    let q (desc : List Byte) := { tileUp with mv := { Mv.init with queue := [(mvRunOf desc []).item] } }
    let cast (param : Nat) := bytesOf 32 [(0, 1, 2), (24, 4, param)]
    let put : List MvAct := [.put .ring (List.replicate 64 7) 64]
    let own : List MvAct := [.put (.own 0x1F_FFFF) [7] 1]
    let w (n : Nat) := (tileUp.setRing 5 (ringOf n)).setRun 3 (some (copyRun put))
    let z := tileUp.setRun 3 (some (copyRun []))
    let p : Tile := { tileUp with pages := { Pages.init with fills := [511] } }
    let bind := { mvRunOf (bytesOf 32 [(0, 1, 9), (3, 1, 1)]) [] with plan := none, progress := 1 }
    let b := plainMem (one (tileUp.setRun 0 (some bind)))
    (one (q (copyBytes 0))).works 0 = true ∧ (q (copyBytes 0)).freeSlot = some 0 ∧ (q (copyBytes 0)).barrierHeld = false
      ∧ (q (copyBytes 0)).mv.startFail = none ∧ (Desc.parse (copyBytes 0)).kind = 1 ∧ (Desc.parse (cast 0x1F_FFC0)).kind = 2
      ∧ (Desc.parse (cast 4)).param % 64 ≠ 0 ∧ 2 ^ 21 < (Desc.parse (cast 0x20_0000)).param + 64
      ∧ (Desc.parse (cast 0x1F_FFC0)).param + 64 = 2 ^ 21
      ∧ (plainMem (one (q (cast 0x1F_FFC0)))).mvRead .ok ⟨false, tileAddr 0 0x1F_FFC0, 64⟩
        = (plainMem (one (q (cast 0x1F_FFC0))), .ok (List.replicate 64 0))
      ∧ (w 63).mvRun 3 = some (copyRun put) ∧ (copyRun put).failed = none
      ∧ put[(copyRun put).progress]? = some (.put .ring (List.replicate 64 7) 64)
      ∧ (w 63).earlierWriter (copyRun put) = false ∧ 1 ≤ ((w 63).ring 5).room ∧ ((w 64).ring 5).room = 0
      ∧ (Desc.parse ((copyBytes 0x1F_FFF8).take 32)).dstRing = 5
      ∧ own[(copyRun own).progress]? = some (.put (.own 0x1F_FFFF) [7] 1)
        ∧ (tileUp.setRun 3 (some (copyRun own))).touch 0x1F_FFFF 1 = .ok
      ∧ z.mvRun 3 = some (copyRun []) ∧ (one z).train.held = []
        ∧ (∃ l, (copyRun []).plan = some l ∧ l.length ≤ (copyRun []).progress)
      ∧ z.touch (Desc.parse (copyRun []).item.desc).statusOffset 8 = .ok
      ∧ (Desc.parse (copyRun []).item.desc).srcIsRing = true ∧ ({ copyRun [] with failed := some 4 } : MvRun).failed.isSome = true
      ∧ p.pages.fills = 511 :: [] ∧ (one p).works 0 = true
      ∧ b.works 0 = true ∧ (b.tile 0).mvRun 0 = some bind ∧ (Desc.parse bind.item.desc).kind = 9 ∧ (Desc.parse bind.item.desc).sub
        = 1
      ∧ (b.tile 0).pages.fills = [] ∧ bind.failed = none := by
  refine ⟨by decide, by decide, by decide, by decide, by decide, by decide, by decide, by decide, by decide,
      mvRead_tile (x := ⟨false, tileAddr 0 0x1F_FFC0, 64⟩) (off := 0x1F_FFC0) (by decide) rfl
    (by decide) (by decide) (by decide) (by decide) (Prod.ext (by rfl) (by decide)) (one_setTile _), by decide, by decide,
    by decide, by decide, by decide, by decide, by decide, by decide, by decide, by decide, by decide, ⟨[], by decide, by decide⟩,
        by decide,
    by decide, by decide, by decide, by decide, by decide, by decide, by decide, by decide, by decide, by decide⟩

/-- A page in main memory is read, or is lost where a line of it does not match its check. -/
theorem witness_pageFill :
    let p : Tile := { tileUp with pages := { Pages.init with table := [(511, { PageEntry.init with homeValid := true })] } }
    let s := plainMem (one p)
    let lost := { s with mm := { s.mm with checks := [(0, 1)] } }
    s.mainRead 1 0 4096 = (s.fetchChecks 0 4096 false, .ok (s.mainBytes 0 4096))
      ∧ (lost.disturbed 1 0 4096 = true ∧ (lost.takeLine 1 0).2 = none) := by
  refine ⟨?_, by decide, by decide⟩
  unfold State.mainRead
  rw [if_neg (by decide), if_neg (by decide)]
  exact if_neg (by decide)

/-- An image of one class of one word, with tile 0 in group 0. -/
def imageOne : Image :=
  { bytes := [], grade := 0, target := 0, flags := 0, supersteps := 1, layoutId := [], profile := [], classes := [⟨[0], 0⟩]
    tileMap := [(0, 0)], segments := [], rings := [], groups := [], view := [] }

/-- A send of one unit from ring 4 of tile 0 to ring 4 of tile 1, at each of its stages. -/
def sdItem (running : Bool) (answer : Option (Option (BitVec 3))) (remote : Option (Nat × Bool)) : SdItem :=
  { id := 5, word := 0, pc := 0, seq := 0, group := 0, index := 0, kind := 0, ring := some 4, start := 0, units := 1, marker := false
    region := none, destRing := 4, dests := [⟨1, 0, answer, false⟩], remote := remote, running := running, stopAt := none
    waitRecord := false, pageWait := none, flight := none }
def sending (i : SdItem) : Tile :=
  { tileUp.setRing 4 (ringOf 1) with sd := { Sd.init with queue := [i], records := [⟨0, 0, 1, 1, 1⟩] } }
def sendState (c : Tile) (x : Ring) : State := { State.reset with tiles := [(0, c), (1, tileUp.setRing 4 x)] }

set_option maxRecDepth 20000 in
/-- A send at rest and one to a partner; one under way, its destination with one unit of room, isolated, and not initialised; a
packet
of two units from a port; a send whose destination has acknowledged, and one whose has failed; a record to take. -/
theorem witness_SendsDeliverUnitsAndComplete :
    let i := sdItem true none none
    let c := sending i
    let s := sendState c (ringOf 63)
    let h : HaulHead := ⟨s.entrySide 0 1 0, 0, 5, 4, false⟩
    let gone : State := { s with pw := { s.pw with blockResets := [⟨0, 1, none, true⟩] } }
    let far := sdItem false none (some (4095, false))
    let up : State := sendState (sending far) (ringOf 0)
    let up := up.setPartner 4095 { Partner.init with state := 2 }
    let y : Inbound := ⟨7, 3, ⟨(PktHeader.mk 3 0 0 1 4 2 false 0 0 0).pack, [List.replicate 64 1, List.replicate 64 2]⟩, 0, true,
        some 0⟩
    let w : State := { s with link := { s.link with inbound := [y] } }
    let w : State := { w with image := some { imageOne with tileMap := [(1, 0)] } }
    let done (a : Option (BitVec 3)) := sdItem true (some a) none
    (sendState (sending (sdItem false none none)) (ringOf 0)).works 0 = true
      ∧ (∀ j ∈ (sending (sdItem false none none)).sd.queue, j.running = false) ∧ (sdItem false none none).remote = none
      ∧ (up.partner 4095).state = 2 ∧ readSendUnits far far.units 0 (sending far) = (sending far, [List.replicate 64 0], none)
      ∧ (s.tile 1).mem.ready = true ∧ s.works 0 = true ∧ c.send? 5 = some i ∧ i.stopAt = none
      ∧ i.dests.find? (fun d => d.tile == 1) = some ⟨1, 0, none, false⟩ ∧ c.sendBehind i 1 = false
      ∧ gone.isolated 1 = true ∧ gone.works 0 = true ∧ s.isolated 1 = false ∧ s.mayLand 1 h = true ∧ ((s.tile 1).ring 4).valid
        = true ∧ ((s.tile 1).ring 4).room = 1
      ∧ s.heldBack i 0 = false ∧ c.sendRead i 0 = (c, .ok (List.replicate 64 0))
      ∧ (((sendState c Ring.init).tile 1).ring 4).valid = false ∧ (sendState c Ring.init).mayLand 1 h = true
      ∧ (PktHeader.parse y.packet.header).destTile = 1 ∧ (PktHeader.parse y.packet.header).destRing = 4
      ∧ w.inboundFirst 0 y = true ∧ w.isLoaded 1 = true ∧ w.mayLand 1 ⟨linkSide 7, tileCount + 7, 3, 4, false⟩ = true
      ∧ (w.tile 1).mem.ready = true ∧ (y.packet.units.getD 0 []).length = 64 ∧ y.landed + 1 < y.packet.units.length
      ∧ (∃ d ∈ (done none).dests, d.tile = 1 ∧ d.answer.isSome = true ∧ d.arrived = false)
      ∧ (∀ d ∈ (done none).dests, d.tile ≠ 1 → d.arrived = true)
      ∧ ((done none).dests.filter fun d => d.answer != some none) = []
        ∧ ((done (some 5)).dests.filter fun d => d.answer != some none) ≠ []
      ∧ c.sd.records.length < 4 ∧ (∀ j ∈ c.sd.queue, j.waitRecord = false) := by
  refine ⟨by decide, by decide, by decide, by decide, rfl, by decide, by decide, by decide, by decide, by decide, by decide,
      by decide,
    by decide, by decide, by decide, by decide, by decide, by decide, rfl, by decide, by decide, by decide, by decide, by decide,
        by decide, by decide,
    by decide, by decide, by decide, by decide, by decide, by decide, by decide, by decide, by decide⟩

/-- A reach access of tile 0 to the last bytes of tile 1. -/
def rcItem (op : ReachOp) (addr : Nat) (state : ReachState) : RcItem :=
  { id := 5, op := op, addr := addr, data := List.replicate op.size 9, destS := 3, destV := 3, word := 0, pc := 0, state := state }
def reaching (i : RcItem) : State :=
  plainMem { State.reset with tiles := [(0, { tileUp with rc := ⟨[i], [], []⟩ }), (1, tileUp)] }

theorem witness_ReachAccessesAreServedAndAnswered :
    let a := tileWindowBase + 2 ^ 22 + 0x1F_FF80
    let w := reaching (rcItem .writeV a .sent)
    let r := reaching (rcItem .readS a .sent)
    let m := reaching (rcItem .readV 0x80 .sent)
    let b := reaching (rcItem .readS bankWordAddr .sent)
    let q := reaching (rcItem .readS (seqWindowBase + 0x3FF8) .sent)
    let x := reaching (rcItem .readS (scaleWindowBase + 0xF_FFF8) .sent)
    let p := reaching (rcItem .writeS scaleWindowBase .sent)
    let o := reaching (rcItem .readS a (.ok (List.replicate 8 1)))
    w.works 0 = true ∧ (w.tile 0).reach? 5 = some (rcItem .writeV a .sent) ∧ w.train.held = []
      ∧ w.place a ReachOp.writeV.size = .tile 1 0x1F_FF80 ∧ w.isolated 1 = false ∧ (w.tile 1).touch 0x1F_FF80 128 = .ok
      ∧ (w.tile 1).rc.inbox = [] ∧ (rcItem .writeV a .sent).data.length = 128 ∧ (w.tile 1).mem.ready = true
      ∧ (r.tile 1).readData 4 0x1F_FF80 8 = (r.tile 1, some (List.replicate 8 0))
      ∧ m.place 0x80 128 = .main 0x80 ∧ ReachOp.readV.isWrite = false
      ∧ m.mainRead 2 0x80 128 = (m.fetchChecks 0x80 128 false, .ok (m.mainBytes 0x80 128))
      ∧ b.place bankWordAddr 8 = .bankWord ∧ q.place (seqWindowBase + 0x3FF8) 8 = .seq 0x3FF8
      ∧ x.place (scaleWindowBase + 0xF_FFF8) 8 = .scale 0xF_FFF8 ∧ 0xF_FFF8 + 8 ≤ 0x100000
      ∧ p.place scaleWindowBase 8 = .scale 0 ∧ ReachOp.writeS.isWrite = true
      ∧ (o.tile 0).reach? 5 = some (rcItem .readS a (.ok (List.replicate 8 1))) ∧ (o.tile 0).core.fault.valid = false := by
  refine ⟨by decide, by decide, by decide, by decide, by decide, by decide, by decide, List.length_replicate, by decide, by decide,
    by decide, by decide, ?_, by decide, by decide, by decide, by decide, by decide, by decide, by decide, by decide⟩
  unfold State.mainRead
  rw [if_neg (by decide), if_neg (by decide)]
  exact if_neg (by decide)

/-- A vector from the last index of a stream, in keyed and in free mode; a ring of three units whose index wraps; a tile that
arms. -/
theorem witness_RandomLanesDeliverArmAndDerive :
    let i : RnItem := { id := 5, toRing := false, reg := 1, ring := 0, stream := 2, index := BitVec.allOnes 64, nibble := false, units := 0 }
    let j := { i with toRing := true, ring := 4, units := 3 }
    let x : Ring := { ringOf 62 with reserved := 3, owners := [(5, false, 3)] }
    let s := one { tileUp with rn := { Rn.init with queue := [i] } }
    let w := one { tileUp.setRing 4 x with rn := { Rn.init with queue := [j] } }
    s.works 0 = true ∧ (s.tile 0).rn.arming = false ∧ (s.tile 0).core.run ≠ .emptyCut ∧ s.freeMode = false
      ∧ ({ s with image := some { imageOne with flags := 4 } } : State).freeMode = true
      ∧ (w.tile 0).rn.queue = [j] ∧ ((w.tile 0).ring 4).isNext 5 false = true ∧ j.units ≤ ((w.tile 0).ring 4).size.toNat
      ∧ ((w.tile 0).ring 4).tail.toNat + j.units ≤ 2 ^ 32
      ∧ ((one { tileUp with rn := { Rn.init with arming := true } }).tile 0).rn.arming = true
      ∧ ({ State.reset with random := { Random.init with keyBusy := true } } : State).random.keyBusy = true := by decide

/-- A post in flight, and one whose slot is open at the final bell; a ring stalled for its threshold; a corrected word that waits
for its
write-back; the last row of the data memory and the first of the code store, the one with a corrected word, the other with a bad
one. -/
theorem witness_TileUpkeepDoesItsOneStep :
    let x : Ring := { ringOf 64 with waiting := [(true, 0)], stallThreshold := 1, timer := 256 }
    let slot : NormSlot := ⟨2, 0xFFF, 1, false⟩
    let c := { tileUp.setRing 31 x with
      nt := { Nt.init with flight := [slot] }
      mem := { TileMem.init with wbQueue := [(false, 262143)], scrubPos := 32767, eccData := [(262143, 1)] } }
    let e := { c with mem := { c.mem with scrubPos := 32768, eccCode := [(0, 3)] } }
    let f := withGroup (one ({ tileUp with nt := { Nt.init with slots := [slot] } }.setMember 0
      { Member.init with phase := .final, arrived := true }))
    (one c).works 0 = true ∧ (c.ring 31).waiting = [(true, 0)] ∧ (c.ring 31).raised = false ∧ (c.ring 31).stallThreshold ≠ 0
      ∧ 256 * (c.ring 31).stallThreshold.toNat ≤ (c.ring 31).timer ∧ c.mem.stallStatus.getLsbD 31 = false
      ∧ c.nt.flight = [slot] ∧ (f.tile 0).nt.flight = [] ∧ (f.tile 0).nt.slots = [slot] ∧ 0 ∈ f.groupsOf 0
      ∧ ((f.tile 0).member 0).phase = .final ∧ ((f.tile 0).member 0).arrived = true
      ∧ c.mem.wbQueue = [(false, 262143)] ∧ (flipsIn c.mem.eccData (8 * c.mem.scrubPos) 8).find? (fun q => q.2 == 3) = none
      ∧ (flipsIn c.mem.eccData (8 * c.mem.scrubPos) 8).length = 1
      ∧ (flipsIn e.mem.eccCode (e.mem.scrubPos - 32768) 1).find? (fun q => q.2 == 3) = some (0, 3) ∧ e.mem.ue = false := by decide

/-- The state with the image loaded, and tile 0 the one member of group 0. -/
def loaded (s : State) : State := plainMem { withGroup s with image := some imageOne, runnable := true }
/-- The run of a command 7 that is a STEP of number 5. -/
def runOf (kind : StepKind) : StepRun := newRun State.reset kind 7 5 0 0
def running (r : StepRun) (op : Nat) (s : State) : State := { holding .running (packetOf [(0, 1, op)]) (loaded s) with step := some r }
def heldOf (phase : HeldPhase) (p : List Byte) : Held := ⟨7, 0, p, 0, phase⟩
/-- The clock n full-clock cycles after reset. -/
def clockAt (n : Nat) : Clock := ⟨n, 0, []⟩

/-- Tile 0 waits at the cut bell of group 0, which has a peer on a road or none; at its haul bell, rolled over or not, with one
marker
more than it expects; at its final bell. -/
theorem witness_BellsHoldThenFire :
    let m : Member := { Member.init with inStep := true, arrived := true, counted := true, lanes := List.replicate 8 1 }
    let s := withGroup (one (tileUp.setMember 0 m))
    let p := s.setGroup 0 { groupZero with peers := [(9, 0)] }
    let f (ph : BellPhase) (k : Member) := (withGroup (one (tileUp.setMember 0 k))).setGroup 0 { groupZero with holding := true, phase := ph }
    let h := { m with phase := .haul, markers := [(0, 1)], reg := some 31 }
    s.localCondition 0 = true ∧ (s.group 0).localHeld = false ∧ (s.group 0).holding = false ∧ (s.group 0).probed = []
      ∧ (s.group 0).peers = [] ∧ s.step = none ∧ p.localCondition 0 = true ∧ (9, 0) ∈ (p.group 0).peers
      ∧ ((f .cut m).group 0).holding = true ∧ ((f .cut m).group 0).members.Nodup
      ∧ (((f .cut m).tile 0).member 0).excused = false ∧ (((f .cut { m with excused := true }).tile 0).member 0).excused = true
      ∧ (((f .haul h).tile 0).member 0).rolled = false ∧ (((f .haul { h with rolled := true }).tile 0).member 0).rolled = true
      ∧ h.reg = some 31 ∧ ((f .final { m with phase := .final }).group 0).phase = .final
      ∧ (f .final { m with phase := .final }).groupsOf 0 = [0] := by decide

theorem witness_BellFramesAreKeptOrDiscarded :
    let f := bytesOf 64 [(0, 1, 1), (2, 1, 9), (8, 8, 5)]
    let r := runOf .step
    let s := (running r 3 (one tileUp)).setGroup 0 { groupZero with peers := [(9, 0)] }
    leAt f 1 1 / 16 % 4 ≠ 3 ∧ State.reset.step = none ∧ s.step = some r ∧ leAt f 0 1 = 1 ∧ leAt f 8 8 = r.stepNo.toNat
      ∧ leAt f 0x10 4 = r.attempt ∧ (∃ p ∈ (s.group 0).peers, p.1 = leAt f 2 1) ∧ (∀ x ∈ (s.group 0).frames, x.rank ≠ leAt f 2 1)
      ∧ bellOrder (s.group 0).phase.code (s.group 0).index ≤ bellOrder (leAt f 1 1 / 16 % 4) (leAt f 4 4)
      ∧ leAt (bytesOf 64 [(0, 1, 1), (8, 8, 4)]) 8 8 ≠ r.stepNo.toNat := by decide

/-- A STEP whose checks hold and one without an image; a RUN whose batch table ends main memory, with an image and without. -/
theorem witness_StepAndRunReleaseTheTiles :
    let p := packetOf [(0, 1, 3)]
    let q := packetOf [(0, 1, 2), (0x10, 4, 1), (0x18, 8, 1984 * 2 ^ 30 - 16)]
    let s := holding .waiting p (loaded (one tileUp))
    let e := holding .waiting p (one tileUp)
    let r := holding .waiting q (loaded (one tileUp))
    let w := holding .waiting q (plainMem (one tileUp))
    let u := r.setRunning 7
    let v := w.setRunning 7
    s.randomBusy = false ∧ (imageOne.tileMap.map (·.1)).Nodup ∧ s.starts 0x03 7 (heldOf .waiting p)
      ∧ s.stage2 0 0 0 false = (s, .ok ⟨none, false, false⟩) ∧ s.image = some imageOne
      ∧ e.starts 0x03 7 (heldOf .waiting p) ∧ e.stage2 0 0 0 false = (e, .error (.notReady, 0))
      ∧ r.starts 0x02 7 (heldOf .waiting q)
      ∧ u.mainRead 5 (1984 * 2 ^ 30 - 16) 16
        = (u.fetchChecks (1984 * 2 ^ 30 - 16) 16 false, .ok (u.mainBytes (1984 * 2 ^ 30 - 16) 16))
      ∧ u.stage2 0 0 0 false = (u, .ok ⟨none, false, false⟩) ∧ u.image = some imageOne
      ∧ w.starts 0x02 7 (heldOf .waiting q)
      ∧ v.mainRead 5 (1984 * 2 ^ 30 - 16) 16
        = (v.fetchChecks (1984 * 2 ^ 30 - 16) 16 false, .ok (v.mainBytes (1984 * 2 ^ 30 - 16) 16))
      ∧ v.stage2 0 0 0 false = (v, .error (.notReady, 0)) := by
  refine ⟨by decide, by decide, ?_, rfl, by decide, ?_, rfl, ?_, ?_, rfl, rfl, ?_, ?_, rfl⟩
  all_goals first
    | (unfold State.starts; decide)
    | (unfold State.mainRead; rw [if_neg (by decide), if_neg (by decide)]; exact if_neg (by decide))

/-- The step of a STEP, of a RUN at its last entry and before it, and of an EVAL, with nothing left to do. -/
theorem witness_StepEndCompletesAndAdvancesU :
    let done (r : StepRun) := (running r 3 (one tileUp)).setGroup 0 { groupZero with phase := .done }
    let l : RunList := ⟨5, 2, 0, 1, false, false⟩
    let s := done (runOf .step)
    let bad : State := { s with host := { s.host with sendIsolated := true } }
    s.step = some (runOf .step) ∧ (runOf .step).kind = .step ∧ (runOf .step).runList = none ∧ (runOf .step).stopped = false
      ∧ (runOf .step).programFault = false ∧ s.allFinal = true ∧ s.takeAllRecords.host.sendIsolated = false
      ∧ s.held? (runOf .step).n = some (heldOf .running (packetOf [(0, 1, 3)]))
      ∧ bad.allFinal = true ∧ bad.takeAllRecords.host.sendIsolated = true
      ∧ (done { runOf .run with runList := some l }).step = some { runOf .run with runList := some l } ∧ l.count ≤ l.completed + 1
      ∧ ({ l with count := 3 } : RunList).completed + 1 < 3
      ∧ (done { runOf .eval with training := some imageOne }).step
        = some { runOf .eval with training := some imageOne } := by decide

theorem witness_ProgramFaultsHaltAndEndTheStep :
    let r := { runOf .step with programFault := true, faulted := [(0, 0)] }
    let w := { r with haltAt := some 0 }
    let s := running r 3 (one tileUp)
    let i := running w 3 (one { tileUp with core := { tileUp.core with halt := true, run := .halted } })
    let e : State := { running w 3 (one tileUp) with clock := clockAt 1050000 }
    s.step = some r ∧ s.image = some imageOne ∧ r.haltAt = none ∧ (∃ t ∈ (s.group 0).members, ∃ f ∈ r.faulted, f.1 = t)
      ∧ e.step = some w ∧ 0 + 1000000 ≤ e.now ∧ ¬ 0 + 1000000 ≤ i.now ∧ (∀ t ∈ imageOne.loaded, (i.tile t).workDone = true)
      ∧ e.res.failures = [] ∧ e.held? w.n = some (heldOf .running (packetOf [(0, 1, 3)])) := by decide

/-- A timer at its limit with a member that is not ready, with only a peer's frame missing, and one short of its limit; a probe of
10 µs. -/
theorem witness_BellTimeoutsProbeAndAttribute :
    let r := runOf .step
    let m : Member := { Member.init with inStep := true, arrived := true, counted := true, lanes := List.replicate 8 1 }
    let up (k : Member) (g : BellGroup) := (running r 3 (one (tileUp.setMember 0 k))).setGroup 0 g
    let s := up { Member.init with inStep := true } { groupZero with timerLimit := some 0 }
    let x := up m { groupZero with timerLimit := some 0, peers := [(9, 0)] }
    let l := up m { groupZero with timerLimit := some 1 }
    let p := { up m { groupZero with probed := [0] } with clock := clockAt 10500 }
    s.step = some r ∧ r.stopped = false ∧ r.programFault = false ∧ (s.group 0).timerLimit = some 0 ∧ s.bell.timeoutEnable = true
      ∧ (s.group 0).holding = false ∧ (s.group 0).timerStart + 0 ≤ s.now ∧ s.localCondition 0 = false ∧ 0 ∈ s.probeList 0
      ∧ x.localCondition 0 = true ∧ (x.group 0).framesHere = false ∧ x.image = some imageOne ∧ x.bell.record.valid = false
      ∧ l.now < (l.group 0).timerStart + 1
      ∧ 0 ∈ (p.group 0).probed ∧ p.isolated 0 = false ∧ (p.group 0).probeAt + 10000 ≤ p.now := by decide

/-- A tile with a bad word of its own and a bad word of main memory; a RETIRE_TILE with the spare free and taken, with an image and
without; a filled spare without a step, with one, and one whose shadow cannot be read; a flash write with no record yet. -/
theorem witness_FailuresRetireAndFillSpares :
    let s := running (runOf .step) 3 (one { tileUp with
      mem := { TileMem.init with ueUsed := [(false, 0)] }, rc := { Rc.init with mainWords := [64] } })
    let p := packetOf [(0, 1, 0x12)]
    let q := holding .waiting p (one tileUp)
    let x := { q with res := { q.res with rows := [(q.rowOf 0, { RowRepair.init with spare := 1 })] } }
    let f : Failure := ⟨0, .tileWord, false, 0, 0, 0, false⟩
    let res : Resilience := { Resilience.init with failures := [f], filling := true }
    let g := { one tileUp with res := res }
    let w : Failure := { f with command := true }
    let on : State := { running (runOf .step) 3 (one tileUp) with res := res }
    let lost : State := { loaded (one tileUp) with
      image := some { imageOne with bytes := [0] }, res := { res with shadowLength := 1 } }
    let lost : State := { lost with mm := { lost.mm with groups := [] } }
    let k : State := { holding .running p (one tileUp) with res := { res with failures := [w], retire := some 7 } }
    s.step = some (runOf .step) ∧ (runOf .step).stopped = false ∧ s.isolated 0 = false ∧ s.res.failures = []
      ∧ (s.tile 0).rc.mainWords = [64] ∧ (s.tile 0).mem.ueUsed ≠ []
      ∧ q.step = none ∧ q.res.failures = [] ∧ q.starts 0x12 7 (heldOf .waiting p) ∧ (heldOf .waiting p).field 8 2 = 0
      ∧ (q.row (q.rowOf 0)).spare = 0 ∧ q.image = none ∧ x.starts 0x12 7 (heldOf .waiting p) ∧ (x.row (x.rowOf 0)).spare ≠ 0
      ∧ ({ loaded q with unshadowed := true } : State).starts 0x12 7 (heldOf .waiting p)
      ∧ g.res.failures = [f] ∧ g.res.filling = true ∧ f.tile = 0 ∧ (g.tile 0).mem.ready = true ∧ (g.tile 0).rn.arming = false
      ∧ g.fillSpare 0 = (g, .ok ()) ∧ g.step = none
      ∧ w.command = true ∧ k.res.retire = some 7 ∧ k.held? 7 = some (heldOf .running p)
      ∧ on.res.failures = [f] ∧ (on.fillSpare 0).2.toOption = some () ∧ (on.fillSpare 0).1.step = some (runOf .step)
      ∧ (on.fillSpare 0).1.image = some imageOne ∧ (on.fillSpare 0).1.unshadowed = false ∧ f.command = false
      ∧ (runOf .step).programFault = false ∧ (runOf .step).timeout = none ∧ (runOf .step).attempt < 7
      ∧ (lost.fillSpare 0).2.isOk = false ∧ (lost.fillSpare 0).1.step = none
      ∧ ({ Resilience.init with flashBusy := true } : Resilience).flashBusy = true ∧ spoilNewest Resilience.init.flash = none := by
  refine ⟨by decide, by decide, by decide, by decide, by decide, by decide, by decide, by decide, ?_, by decide, by decide,
      by decide,
    ?_, by decide, ?_, by decide, by decide, by decide, by decide, by decide, rfl, by decide, by decide, by decide, by decide,
        by decide,
    by decide, by decide, by decide, by decide, by decide, by decide, by decide, by decide, by decide, by decide, by decide,
        by decide⟩
  all_goals (unfold State.starts; decide)

theorem witness_RepairFramesHoldThePeer :
    let f (a : Nat) := bytesOf 64 [(0, 1, 1), (1, 1, 0x30), (8, 8, 5), (0x18, 1, a)]
    let r := runOf .step
    let s := running r 3 (one tileUp)
    let e : State := { s with res := { s.res with peerSince := some 0, state := .peerHold }, clock := clockAt 1050000000 }
    let h := heldOf .running (packetOf [(0, 1, 3)])
    State.reset.step = none ∧ s.step = some r ∧ r.stopped = false
      ∧ (∀ a ∈ [0, 1, 2], leAt (f a) 0 1 = 1 ∧ leAt (f a) 1 1 / 16 % 4 = 3 ∧ leAt (f a) 8 8 = r.stepNo.toNat
        ∧ leAt (f a) 0x10 4 = r.attempt ∧ leAt (f a) 0x18 1 = a)
      ∧ leAt (bytesOf 64 [(0, 1, 1)]) 1 1 / 16 % 4 ≠ 3 ∧ s.res.state ≠ .peerHold ∧ s.res.state ≠ .repairHold
      ∧ e.step = some r ∧ e.res.peerSince = some 0 ∧ e.res.state = .peerHold ∧ r.programFault = false ∧ r.timeout = none
        ∧ r.attempt < 7
      ∧ e.image = some imageOne ∧ s.held? r.n = some h ∧ 0 + 10 ^ 9 ≤ e.now ∧ e.held? r.n = some h := by decide

/-- An image for a bench, of one class of one word, with tile 0 in group 0: header, profile, sections 1, 2, 3 and 6. -/
def imageBytes (grade flags : Byte) : List Byte :=
  imageMagic ++ [1, 0, grade, 1, flags, 0, 0, 0, 1, 0, 0, 0, 1, 0, 1, 4, 0x08, 4, 0, 0, 0, 0, 0, 0]
    ++ List.replicate 16 0 ++ [1, 0, 3, 0, 0, 0, 0, 0, 1, 0, 0, 0] ++ List.replicate 20 0
    ++ [1, 0, 0, 0, 0, 0, 0, 0, 0xC0, 0, 0, 0, 16, 0, 0, 0] ++ [2, 0, 0, 0, 0, 0, 0, 0, 0, 1, 0, 0, 8, 0, 0, 0]
    ++ [3, 0, 0, 0, 0, 0, 0, 0, 0x40, 1, 0, 0, 0, 2, 0, 0] ++ [6, 0, 0, 0, 0, 0, 0, 0, 0x40, 3, 0, 0, 200, 0, 0, 0]
    ++ List.replicate 48 0 ++ [0, 0, 0, 0, 1, 0] ++ List.replicate 122 0 ++ [0, 0] ++ List.replicate 510 0xFF
    ++ [0, 0, 0, 0, 0, 0, 0, 0, 1] ++ List.replicate 191 0

/-- A training image of the profile of an image. -/
def trainedOn (i : Image) : Image := { imageOne with target := 1, profile := i.profile }
/-- An image that is parsed for an EVAL (flag 3) and one for a LOAD_IMAGE. -/
def besideOf (i : Image) : Option Image := if i.flags.getLsbD 3 then some (trainedOn i) else none

theorem trainedOn_profile (i : Image) : i.profile = (trainedOn i).profile := rfl
theorem trainedOn_target (i : Image) : (trainedOn i).target = 1 := rfl

/-- The state with these bytes at 0x1000 of host memory, the host's answers let through. -/
def hostWith (b : List Byte) (s : State) : State :=
  { s with host := { s.host with mem := NMap.setRun 0 [] 0x1000 b, pcie := { s.host.pcie with busMaster := true } } }

set_option maxRecDepth 20000 in
theorem image_facts : ∀ f ∈ ([0, 8, 0x18] : List Byte), ∀ g ∈ ([0, 1] : List Byte), let i := imageOf (imageBytes g f)
    (parseImage (imageBytes g f) 1032 (besideOf i)).toOption = some i ∧ i.grade = g ∧ i.target = 1 ∧ i.flags = f.setWidth 32
      ∧ i.tileMap = [(0, 0)] ∧ firstFault (lateFaults State.reset i) = none ∧ (imageBytes g f).length = 1032 := by
  decide +kernel

theorem gradeByte_cases : gradeByte ∈ ([0, 1] : List Byte) := by
  unfold gradeByte
  split <;> decide

/-- The image passes every check of a device whose target it names. -/
theorem image_passes (s : State) (f : Byte) (hf : f ∈ ([0, 8, 0x18] : List Byte)) (ok : Image → Bool)
    (h : ok (imageOf (imageBytes gradeByte f)) = true) :
    s.checkImage (imageBytes gradeByte f) 1032 (besideOf (imageOf (imageBytes gradeByte f))) ok
      = .ok (imageOf (imageBytes gradeByte f)) := by
  obtain ⟨hp, hg, ht, -, -, hl, -⟩ := image_facts f hf gradeByte gradeByte_cases
  have hp' : parseImage (imageBytes gradeByte f) 1032 (besideOf (imageOf (imageBytes gradeByte f)))
      = .ok (imageOf (imageBytes gradeByte f)) := by
    cases hq : parseImage (imageBytes gradeByte f) 1032 (besideOf (imageOf (imageBytes gradeByte f))) <;> simp_all [Except.toOption]
  have hl' : firstFault (lateFaults s (imageOf (imageBytes gradeByte f))) = none := by
    rw [← hl]
    simp [lateFaults, ht]
  simp [State.checkImage, hp', hg, h, hl']

theorem hostWith_getHost (b : List Byte) (s : State) : (hostWith b s).getHost 0x1000 b.length = b :=
  NMap.getRun_setRun 0 [] 0x1000 b

/-- A device in field mode with bench 0 takes the image; one that does not answer, and one whose image does not parse. -/
theorem witness_LoadImageInstallsOrRefuses :
    let q := packetOf [(0, 1, 1), (8, 8, 0x1000), (0x10, 8, 1032)]
    let s (b : List Byte) := hostWith b (holding .waiting q { one tileUp with pw := { Power.init with fieldBench := some 0 } })
    let h := heldOf .waiting q
    let i := imageOf (imageBytes gradeByte 0)
    let t := s (imageBytes gradeByte 0)
    t.starts 0x01 7 h ∧ t.hostAnswer (.fail .timeout) = .fail .timeout ∧ t.hostAnswer .ok = .ok
      ∧ ((s []).checkImage ((s []).getHost 0x1000 1032) 1032 none (s []).takesTarget).isOk = false
      ∧ h.field 0x18 8 = 0 ∧ t.checkImage (t.getHost (h.field 8 8) (h.field 0x10 8)) (h.field 0x10 8) none t.takesTarget = .ok i
      ∧ (i.flags.getLsbD 2 && t.res.protect) = false ∧ firstFault (paramFaults t defaultParams) = none
      ∧ t.shadowRefuses i defaultParams = false ∧ (i.tileMap.any fun q => t.isolated q.1) = false := by
  obtain ⟨-, -, ht, hf, hm, -, hn⟩ := image_facts 0 (by decide) gradeByte gradeByte_cases
  intro q s h i t
  have e1 : h.field 8 8 = 0x1000 := by decide
  have e2 : h.field 0x10 8 = 1032 := by decide
  refine ⟨⟨rfl, by decide, rfl, rfl⟩, rfl, rfl, by decide +kernel, by decide, ?_, ?_, by decide, ?_, ?_⟩
  · rw [e1, e2]
    have hb : t.getHost 0x1000 1032 = imageBytes gradeByte 0 := by
      rw [← hn]; exact hostWith_getHost _ _
    rw [hb]
    have hs : besideOf i = none := if_neg (by show ¬((imageOf (imageBytes gradeByte 0)).flags.getLsbD 3 = true); rw [hf]; decide)
    rw [← hs]
    exact image_passes t 0 (by decide) _ (by
      show (((imageOf (imageBytes gradeByte 0)).target == 0) != true) = true
      rw [ht]; decide)
  · rw [hf]; decide
  · have hz : t.res.shadowLength = 0 := rfl
    simp [State.shadowRefuses, hz]
  · rw [hm]; rfl

/-- A batch whose sequence table has one entry, of one byte. -/
def batchOne : List Byte := bytesOf 32 [(0, 4, 1), (0x18, 4, 1)]

theorem eval_flags (f : Byte) (hf : f ∈ ([8, 0x18] : List Byte)) : f ∈ ([0, 8, 0x18] : List Byte) := List.mem_cons_of_mem _ hf
theorem eval_flag : ∀ f ∈ ([8, 0x18] : List Byte), (f.setWidth 32).getLsbD 3 = true := by decide

/-- The EVAL of an image whose profile is that of the training image: without a sequence table (flag 3), with one (flags 3 and 4).
-/
theorem eval_passes (f : Byte) (hf : f ∈ ([8, 0x18] : List Byte)) :
    let b := imageBytes gradeByte f
    let i := imageOf b
    let q := packetOf [(0, 1, 4), (8, 8, 0x1000), (0x10, 8, 1032), (0x18, 8, 0x40), (0x20, 8, 32)]
    let s := hostWith b (holding .waiting q { loaded (one tileUp) with image := some (trainedOn i) })
    let h := heldOf .waiting q
    s.checkImage (s.getHost (h.field 8 8) (h.field 0x10 8)) (h.field 0x10 8) (some (trainedOn i)) (fun j => j.target == (trainedOn i).target)
        = .ok i
      ∧ i.profile = (trainedOn i).profile ∧ i.flags = f.setWidth 32 := by
  obtain ⟨-, -, ht, hg, -, -, hn⟩ := image_facts f (eval_flags f hf) gradeByte gradeByte_cases
  intro b i q s h
  have e1 : h.field 8 8 = 0x1000 := by decide
  have e2 : h.field 0x10 8 = 1032 := by decide
  refine ⟨?_, trainedOn_profile _, hg⟩
  rw [e1, e2]
  have hb : s.getHost 0x1000 1032 = b := by
    rw [← hn]; exact hostWith_getHost _ _
  rw [hb]
  have hs : besideOf i = some (trainedOn i) := by
    have : i.flags.getLsbD 3 = true := by rw [hg]; exact eval_flag f hf
    exact if_pos this
  rw [← hs]
  refine image_passes s f ?_ _ ?_
  · exact eval_flags f hf
  · show ((imageOf (imageBytes gradeByte f)).target == (trainedOn i).target) = true
    rw [ht, trainedOn_target]; rfl

/-- An EVAL with no image loaded, and one that the checks of `eval_passes` let run on its batch's table. -/
theorem witness_EvalRunsItsImage :
    let q := packetOf [(0, 1, 4), (8, 8, 0x1000), (0x10, 8, 1032), (0x18, 8, 0x40), (0x20, 8, 32)]
    let e := holding .waiting q (one tileUp)
    let i := imageOf (imageBytes gradeByte 0x18)
    let s := hostWith (imageBytes gradeByte 0x18) (holding .waiting q { loaded (one tileUp) with image := some (trainedOn i) })
    let h := heldOf .waiting q
    e.randomBusy = false ∧ e.starts 0x04 7 h ∧ e.image = none
      ∧ s.randomBusy = false ∧ s.starts 0x04 7 h ∧ s.image = some (trainedOn i) ∧ s.imageReady = true ∧ s.domainBroken = false
      ∧ s.hostAnswer (.fail .timeout) = .fail .timeout ∧ s.hostAnswer .ok = .ok
      ∧ (8 : BitVec 32).getLsbD 4 = false ∧ (0x18 : BitVec 32).getLsbD 4 = true
      ∧ s.takeBatch (h.field 0x18 8) (min (h.field 0x20 8) 0x2010) = (s.fetchChecks 0x40 32 false, .ok (s.mainBytes 0x40 32))
      ∧ firstFault (seqFaults batchOne (h.field 0x20 8)) = none := by
  intro q e i s h
  refine ⟨by decide, ⟨rfl, by decide, rfl, rfl⟩, rfl, rfl, ⟨rfl, by decide, rfl, rfl⟩, rfl, rfl, rfl, rfl, rfl, by decide,
      by decide, ?_,
    by decide⟩
  have hm : s.mainRead 5 0x40 32 = (s.fetchChecks 0x40 32 false, .ok (s.mainBytes 0x40 32)) := by
    unfold State.mainRead
    rw [if_neg (by decide), if_neg (by decide)]
    exact if_neg (by decide)
  have e1 : h.field 0x18 8 = 0x40 := by decide
  have e2 : min (h.field 0x20 8) 0x2010 = 32 := by decide
  rw [e1, e2]
  simp only [State.takeBatch, hm]

/-- Main memory in service, with nothing amiss in it. -/
def Calm (s : State) : Prop :=
  s.mm.cur = ⟨false, false, false⟩ ∧ s.pw.fieldBench = none ∧ s.mm.groups
      = (List.range 32).map (fun g => (g, MemGroup.mk .service 0))
    ∧ s.mm.checks = [] ∧ s.mm.served = []

theorem Calm.fetch {s : State} (h : Calm s) (a n : Nat) (w : Bool) : Calm (s.fetchChecks a n w) := by
  unfold State.fetchChecks
  split
  · exact h
  · exact h

theorem Calm.write {s : State} (h : Calm s) (lo : Nat) (bs : List Byte) : Calm (s.writePiece lo bs) := by
  obtain ⟨a, b, c, d, e⟩ := h
  exact ⟨a, b, c, by simp [State.writePiece, d, NMap.drop], by simp [State.writePiece, e]⟩

theorem Calm.disturbed {s : State} (h : Calm s) (k : BitVec 4) (a n : Nat) : s.disturbed k a n = false := by
  obtain ⟨-, -, -, d, e⟩ := h
  simp [State.disturbed, d, e]

theorem Calm.writeLines (k : BitVec 4) (bs : List Byte) (ps : List (Nat × Nat × Nat)) {s : State} (h : Calm s) :
    Calm (writeLines k bs ps s).1 := by
  induction ps generalizing s with
  | nil => exact h
  | cons p ps ih =>
    unfold Machine.writeLines
    simp only [h.disturbed, Bool.and_false, Bool.false_eq_true, if_false]
    exact ih (h.write _ _)

theorem Calm.put {s : State} (h : Calm s) (a : Nat) (bs : List Byte) : Calm (s.mainPut a bs) := by
  unfold State.mainPut State.mainWrite
  split
  · exact h
  · split
    · exact h
    · exact Calm.writeLines _ _ _ (h.fetch _ _ _)

theorem Calm.isolated {s : State} (h : Calm s) (a : Nat) : s.memIsolated a = false := by
  obtain ⟨c, f, g, -, -⟩ := h
  have bits : ∀ n lo, bitsAt n lo 7 < 2 ^ 7 := fun n lo => Nat.mod_lt _ (by decide)
  have two : ∀ n lo, bitsAt n lo 2 < 2 ^ 7 := fun n lo => Nat.lt_trans (Nat.mod_lt _ (by decide)) (by decide)
  have lt : (s.channel a).1 < 2 ^ 7 := by
    unfold State.channel
    rw [f, c]
    exact Nat.xor_lt_two_pow (Nat.xor_lt_two_pow (Nat.xor_lt_two_pow (Nat.xor_lt_two_pow (bits _ _) (bits _ _)) (bits _ _)) (bits _ _))
      (two _ _)
  have group : ∀ k < 32, (NMap.get MemGroup.init ((List.range 32).map (fun g => (g, MemGroup.mk .service 0))) k).state
      = .service := by
    decide
  unfold State.memIsolated State.memGroup
  rw [g, group _ (by omega)]
  rfl

/-- What a read of calm memory gives. -/
theorem Calm.read {s : State} (h : Calm s) (k : BitVec 4) (a n : Nat) (ha : a + n ≤ 1984 * 2 ^ 30) :
    s.mainRead k a n = (s.fetchChecks a n false, .ok ((s.fetchChecks a n false).mainBytes a n)) := by
  have hi : s.inMain a n = true := by
    obtain ⟨c, f, -, -, -⟩ := h
    have u : s.usableGib = 1984 := by rw [State.usableGib, c, f]; decide
    rw [State.inMain, u]
    exact decide_eq_true (by omega)
  unfold State.mainRead
  rw [hi]
  simp only [h.isolated, (h.fetch a n false).disturbed, List.any_eq_false.mpr (fun _ _ => Bool.false_ne_true), Bool.not_true,
    Bool.false_eq_true, if_false]

/-- SET_SEEDS of both seeds, SET_SCALES of the loss scale, of the last entry, of one past it and of one with a reserved byte, and a
fence. -/
theorem witness_SeedsScalesAndFencesComplete :
    let seeds := packetOf [(0, 1, 9), (0x18, 1, 3)]
    let scale := packetOf [(0, 1, 0x0A), (0x12, 1, 1), (0x13, 1, 0xFF)]
    let entry := packetOf [(0, 1, 0x0A), (8, 8, 0x1000), (0x10, 2, 1)]
    let fence := packetOf [(0, 1, 0x0C)]
    let st (p : List Byte) (n : Nat) := hostWith (leBytes 4 n) (holding .waiting p State.reset)
    let free (s : State) : State := { s with image := some { imageOne with flags := 4 } }
    let rec' (n : Nat) := (st entry n).getHost 0x1000 136
    (st seeds 0).starts 0x09 7 (heldOf .waiting seeds) ∧ (heldOf .waiting seeds).field 0x18 1 = 3
      ∧ (free (st seeds 0)).freeMode = true ∧ (free (st seeds 0)).starts 0x09 7 (heldOf .waiting seeds)
      ∧ (st scale 0).starts 0x0A 7 (heldOf .waiting scale) ∧ (heldOf .waiting scale).field 0x10 2 = 0
      ∧ (heldOf .waiting scale).field 0x12 1 = 1
      ∧ (st entry 8191).starts 0x0A 7 (heldOf .waiting entry) ∧ (heldOf .waiting entry).field 0x10 2 = 1
      ∧ (heldOf .waiting entry).field 0x12 1 = 0 ∧ (heldOf .waiting entry).field 8 8 = 0x1000
      ∧ (st entry 0).hostAnswer .ok = .ok ∧ (st entry 0).hostAnswer (.fail .timeout) = .fail .timeout
      ∧ leAt (rec' 8191) 0 2 = 8191 ∧ (∀ o < 8, 2 ≤ o → leAt (rec' 8191) o 1 = 0) ∧ leAt (rec' 8192) 0 2 = 8192
      ∧ leAt (rec' 0x1_0000) 2 1 = 1 ∧ (st fence 0).starts 0x0C 7 (heldOf .waiting fence) := by
  refine ⟨?_, by decide, by decide, ?_, ?_, by decide, by decide, ?_, by decide, by decide, by decide, by decide, by decide,
      by decide,
    by decide, by decide, by decide, ?_⟩
  all_goals (unfold State.starts; decide)

/-- Partner 0 is the direct neighbour at port 0. -/
def neighbour : Partner := { Partner.init with state := 2, hops := 1, rank := 9, identity := 3 }
def paired (s : State) : State := s.setPartner 0 neighbour
/-- A drain of an empty bank for command 7. -/
def drainOf (begun shipping : Bool) : Drain :=
  { n := some 7, partner := 0, path := 0, slot := 0, begun := begun, shipping := shipping, u := 0, lastStep := 0, bankBase := 0
    bankLen := 0, profile := [], layoutId := [], imageDigest := [], k := 15, clean := 0, feedGroup := 0, correlated := false
    scaleEntries := [], log := [], logIndex := 0, tStart := 0, regions := [] }
def draining (d : Drain) : State :=
  let s := holding .running (packetOf [(0, 1, 5)]) (paired (plainMem (one tileUp)))
  { s with res := { s.res with drain := some d } }

theorem length_leBytes (n w : Nat) : (leBytes n w).length = n := by
  induction n generalizing w with
  | zero => rfl
  | succ n ih => simp [leBytes, ih]

theorem length_shake32 (m : List Byte) : (shake32 m).length = 32 := by
  have squeeze : ∀ p : Planes, ((shakeSqueeze 1 p).take 32).length = 32 := fun p => by
    simp [shakeSqueeze, List.length_flatMap, length_leBytes, List.map_const']
  exact squeeze _

theorem leAt_zeros (l : List Byte) (o : Nat) (ho : o + 8 ≤ 48) : leAt (List.replicate 48 0 ++ l) o 8 = 0 := by
  rw [leAt, List.drop_append_of_le_length (by simp; omega), List.take_append_of_le_length (by simp; omega)]
  simp only [List.drop_replicate, List.take_replicate]
  rw [show min 8 (48 - o) = 8 by omega]
  rfl

/-- A manifest of an empty bank with this root. -/
def manifestOf (root : List Byte) : List Byte := List.replicate 48 0 ++ root ++ List.replicate 176 0

theorem manifestOf_root (root : List Byte) (h : root.length = 32) : ((manifestOf root).drop 0x30).take 32 = root := by
  rw [manifestOf, List.append_assoc, List.drop_left' (by simp), List.take_left' h]

theorem manifestOf_zero (root : List Byte) (o : Nat) (ho : o + 8 ≤ 48) : leAt (manifestOf root) o 8 = 0 := by
  rw [manifestOf, List.append_assoc, leAt_zeros _ _ ho]

set_option maxRecDepth 20000 in
/-- A DRAIN that may begin, one in free mode, one whose partner is not up; a snapshot; a chunk that is the last of its body, and
one of a
device without an entry; a drain that ships, and one of its own; a received copy that is whole; and a write that a drain held. -/
theorem witness_DrainsSnapshotShipAndVerify :
    let p := packetOf [(0, 1, 5)]
    let home (s : State) : State := { s with res := { s.res with homeBase := 0x4000_0000, homeLength := 64 } }
    let s := home (holding .waiting p (paired (plainMem (one tileUp))))
    let lone := home (holding .waiting p (plainMem (one tileUp)))
    let d := drainOf true false
    let s1 := draining d
    let s2 := (s1.mainPut (s1.homeSlot 0 + copyBodyAt) (NMap.getRun 0 d.log 0 (2 ^ 20))).mainPut (s1.homeSlot 0 + copyScaleAt)
      ((List.range 8192).flatMap fun n => (NMap.get ScaleEntry.init d.scaleEntries n).bytes)
    let fill : ForeignFill := ⟨3, 0, bytesOf 256 [(8, 8, 3)], [], false⟩
    let f : State := { s with res := { s.res with fills := [(0, some fill)] } }
    let v := draining (drainOf true true)
    let w (bit : Option (Nat × Bool)) : HeldWrite := ⟨0, [5], 0, 0, none, none, bit⟩
    let leaves : NMap (List Byte) := (List.range 32).map fun k => (k, [])
    let root := rootOf (bodyBytes 0) (leaves.map (·.2))
    let whole : ForeignFill := ⟨3, 0, manifestOf root, leaves, false⟩
    s.starts 0x05 7 (heldOf .waiting p) ∧ s.res.drain = none ∧ s.freeMode = false ∧ s.drainBroken = false ∧ s.step = none
      ∧ s.pathEntry ((heldOf .waiting p).field 8 2) ((heldOf .waiting p).field 0x0A 1) = .ok 0
      ∧ ({ s with image := some { imageOne with flags := 4 } } : State).freeMode = true
      ∧ lone.pathEntry ((heldOf .waiting p).field 8 2) ((heldOf .waiting p).field 0x0A 1) = .error (.notReady, 0)
      ∧ s1.res.drain = some d ∧ d.begun = true ∧ d.shipping = false
      ∧ readRegions (d.bankRegions.filter fun r => !d.regions.contains r) s1 d = (s1, some d)
      ∧ (∃ s3 body, s2.mainRead 5 (s1.homeSlot 0 + copyBodyAt) (bodyBytes d.bankLen) = (s3, .ok body))
      ∧ f.admits (BitVec.ofNat 64 (leAt fill.manifest 8 8)) = true ∧ f.fillOf (BitVec.ofNat 64 (leAt fill.manifest 8 8))
        = some (0, fill)
      ∧ fill.bad = false ∧ 31 < bodyChunks (leAt fill.manifest 0x20 8) ∧ f.admits 4 = false
      ∧ v.res.drain = some (drainOf true true) ∧ v.held? 7 = some (heldOf .running p) ∧ v.freeMode = false
      ∧ ({ drainOf true true with n := none } : Drain).n = none
      ∧ whole.leaves.length = bodyChunks (leAt whole.manifest 0x20 8)
      ∧ rootOf (bodyBytes (leAt whole.manifest 0x20 8)) (whole.leaves.map (·.2)) = (whole.manifest.drop 0x30).take 32
      ∧ (∀ bit, ({ Train.init with held := [w bit] } : Train).held = [w bit] ∧ 1 ≤ (w bit).data.length) := by
  have calm : Calm (draining (drainOf true false)) := ⟨rfl, rfl, rfl, rfl, rfl⟩
  intro p home s lone d s1 s2 fill f v w leaves root whole
  have zero : leAt whole.manifest 0x20 8 = 0 := manifestOf_zero _ _ (by decide)
  refine ⟨⟨rfl, by decide, rfl, rfl⟩, by decide, by decide, by decide, by decide, rfl, by decide, rfl, rfl, by decide, by decide,
      rfl,
    ⟨_, _, ((calm.put _ _).put _ _).read _ _ _ (by decide)⟩, by decide, by decide, by decide, by decide, by decide, by decide,
        by decide,
    by decide, rfl, ?_, ?_, fun bit => ⟨rfl, Nat.le_refl 1⟩⟩
  · rw [zero]; rfl
  · rw [zero]
    exact (manifestOf_root _ (length_shake32 _)).symm

theorem length_fit {α : Type} (z : α) (n : Nat) (l : List α) : (fit z n l).length = n := by
  simp [fit]
  omega

theorem fit_of_length {α : Type} (z : α) (n : Nat) (l l' : List α) (h : l.length = n) : fit z n (l ++ l') = l := by
  simp [fit, List.take_left' h]
  omega

/-- A sealed manifest keeps its seal. -/
theorem seal_seal (m : List Byte) : sealManifest (sealManifest m) = sealManifest m := by
  have k : fit (0 : Byte) 0xE0 (sealManifest m) = fit 0 0xE0 m := by
    rw [sealManifest, fit_of_length _ _ _ _ (length_fit _ _ _)]
  rw [sealManifest, k, ← sealManifest]

theorem leaf_of_table (own : List (List Byte)) (h : ∀ x ∈ own, x.length = 32) (j : Nat) (hj : j < own.length) :
    own.getD j [] = (own.flatten.drop (32 * j)).take 32 := by
  induction own generalizing j with
  | nil => simp at hj
  | cons x xs ih =>
    have hx := h x (by simp)
    cases j with
    | zero => simp [← hx]
    | succ j =>
      have := ih (fun y hy => h y (by simp [hy])) j (by simpa using hj)
      rw [List.flatten_cons, show 32 * (j + 1) = x.length + 32 * j by omega, ← List.drop_drop, List.drop_left]
      simpa using this

/-- A copy that comes with its own leaves fails by its root only. -/
theorem copyFault_own (r : Restore) (body : List Byte) : copyFault r body (digestLeaves body).flatten
    = if rootOf body.length (digestLeaves body) = (r.manifest.drop 0x30).take 32 then none else some r.address := by
  have hl : ∀ x ∈ digestLeaves body, x.length = 32 := by
    intro x hx
    simp only [digestLeaves, List.mem_map] at hx
    obtain ⟨p, -, rfl⟩ := hx
    exact length_shake32 _
  have hn : (List.range (digestLeaves body).length).find?
      (fun j => (digestLeaves body).getD j [] != ((digestLeaves body).flatten.drop (32 * j)).take 32) = none := by
    rw [List.find?_eq_none]
    intro j hj
    rw [leaf_of_table _ hl j (List.mem_range.mp hj)]
    simp
  simp only [copyFault, hn]

/-- A copy that comes with its own leaves and its own root verifies. -/
theorem copyFault_none (n : Nat) (body : List Byte) (hb : body.length = n) :
    copyFault ⟨7, manifestOf (rootOf n (digestLeaves body)), 0, some 0, false⟩
      (fit 0 n (body ++ (digestLeaves body).flatten)) ((body ++ (digestLeaves body).flatten).drop n) = none := by
  rw [fit_of_length _ _ _ _ hb, List.drop_left' hb, copyFault_own, hb, if_pos]
  exact (manifestOf_root _ (length_shake32 _)).symm

/-- One of two roots does not verify. -/
theorem copyFault_some (body : List Byte) :
    ∃ root a, copyFault ⟨7, manifestOf root, 0, some 0, false⟩ body (digestLeaves body).flatten
      = some a := by
  by_cases hz : rootOf body.length (digestLeaves body) = List.replicate 32 0
  · exact ⟨List.replicate 32 1, 0, by rw [copyFault_own, hz]; rfl⟩
  · exact ⟨List.replicate 32 0, 0, by rw [copyFault_own]; exact if_neg hz⟩

/-- A partner copy that is sealed, from partner 0. -/
def sealedCopy : List Byte := sealManifest (bytesOf 224 [(0, 8, leNat copyMagic), (0x81, 1, 1)])


/-- A RESTORE of an empty bank from a partner, one without an image, one whose partner is not up, one whose manifest is no copy; a
body
of 2 MiB with the right leaves and root, and one whose root differs, from the partner and from main memory. -/
theorem witness_RestoresCheckThenApply :
    let p := packetOf [(0, 1, 6), (1, 1, 8)]
    let image := { imageOne with layoutId := List.replicate 16 0 }
    let at' (s : State) : State := { holding .waiting p s with image := some image }
    let s := at' (paired (loaded (one tileUp)))
    let h := heldOf .waiting p
    let r (root : List Byte) (from' : Option Nat) : Restore := ⟨7, manifestOf root, 0, from', false⟩
    let u (root : List Byte) (from' : Option Nat) :=
      plainMem { holding .running p (one tileUp) with res := { Resilience.init with restore := some (r root from') } }
    (holding .waiting p State.reset).starts 0x06 7 h ∧ (holding .waiting p State.reset).image = none
      ∧ s.starts 0x06 7 h ∧ s.image = some image ∧ s.restorePath h = .ok (some 0)
      ∧ s.restoreManifest h (some sealedCopy) = (s, .ok sealedCopy) ∧ s.restoreFault h image sealedCopy = none
      ∧ s.restoreManifest h (some []) = (s, .ok (List.replicate 256 0)) ∧ (s.restoreFault h image (List.replicate 256 0)).isSome
        = true
      ∧ (at' State.reset).restorePath h = .error (.notReady, 0) ∧ (at' State.reset).starts 0x06 7 h
      ∧ (∀ root from', (u root from').underway 0x06 7 (heldOf .running p) ∧ (u root from').res.restore = some (r root from')
        ∧ bodyBytes (leAt (r root from').manifest 0x20 8) = 2 ^ 21)
      ∧ (∀ body, body.length = 2 ^ 21 →
        copyFault (r (rootOf (2 ^ 21) (digestLeaves body)) (some 0)) (fit 0 (2 ^ 21) (body ++ (digestLeaves body).flatten))
            ((body ++ (digestLeaves body).flatten).drop (2 ^ 21)) = none
        ∧ ∃ root a, copyFault (r root (some 0)) body (digestLeaves body).flatten = some a)
      ∧ ∀ root, let w : State := { u root none with res := { (u root none).res with restore := none } }
        ∃ s1 bs, w.mainRead 5 ((r root none).address + copyBodyAt) (bodyAndLeaves (leAt (r root none).manifest 0x20 8))
            = (s1, .ok bs) := by
  intro p image at' s h r u
  have hl : sealedCopy.length = 256 := by simp [sealedCopy, sealManifest, length_shake32, length_fit]
  have hz : ∀ root, leAt (manifestOf root) 0x20 8 = 0 := fun root => manifestOf_zero root _ (by decide)
  refine ⟨⟨rfl, by decide, rfl, rfl⟩, rfl, ⟨rfl, by decide, rfl, rfl⟩, rfl, rfl, ?_, ?_, by rfl, by decide, rfl, ⟨rfl, by decide,
      rfl, rfl⟩,
    fun root from' => ⟨⟨rfl, by decide, rfl⟩, rfl, ?_⟩, fun body hb => ⟨copyFault_none (2 ^ 21) body hb, copyFault_some body⟩,
        fun root => ?_⟩
  · have hf : fit 0 256 sealedCopy = sealedCopy := by simp [fit, hl, List.take_of_length_le]
    show (s, Except.ok (fit 0 256 sealedCopy)) = _
    rw [hf]
  · have hs : sealManifest sealedCopy = sealedCopy := seal_seal _
    have h1 : sealedCopy.take 8 = copyMagic := by decide
    have h2 : natBit (leAt sealedCopy 0x81 1) 0 = true := by decide
    have h3 : leAt sealedCopy 0x10 8 = 0 := by decide
    have h4 : leAt sealedCopy 0x20 8 = s.train.bankLen.toNat := by decide
    have h5 : (sealedCopy.drop 0x70).take 16 = List.replicate 16 0 := by decide
    have h6 : h.field 0x18 8 = 0 := by decide
    have h7 : h.flag 3 = true := by decide
    simp [State.restoreFault, hs, h1, h2, h3, h4, h5, h6, h7, image]
  · show bodyBytes (leAt (manifestOf root) 0x20 8) = 2 ^ 21
    rw [hz]; rfl
  · have calm : Calm ({ u root none with res := { (u root none).res with restore := none } } : State) := ⟨rfl, rfl, rfl, rfl, rfl⟩
    exact ⟨_, _, calm.read _ _ _ (by show 0 + copyBodyAt + bodyAndLeaves (leAt (manifestOf root) 0x20 8) ≤ _; rw [hz]; decide)⟩

/-- A 64-bit word written into a packet is read back. -/
theorem leNat_leBytes (n v : Nat) : leNat (leBytes n v) = v % 256 ^ n := by
  induction n generalizing v with
  | zero => simp [leBytes, leNat, Nat.mod_one]
  | succ n ih =>
    rw [leBytes, leNat, ih, BitVec.toNat_ofNat, show 256 ^ (n + 1) = 256 * 256 ^ n from Nat.pow_succ', Nat.mod_mul (a := 256)]

/-- PAIR of entry 0, by a road or over Ethernet. -/
def pairPacket (path port : Byte) (identity : Word64) : List Byte :=
  [7, 0, 0, 0, 0, 0, 0, 0, 0, 0, path, port, 0, 0, 0, 0] ++ leBytes 8 identity.toNat ++ List.replicate 40 0

theorem pairPacket_identity (path port : Byte) (identity : Word64) :
    BitVec.ofNat 64 ((heldOf .waiting (pairPacket path port identity)).field 0x10 8) = identity := by
  have h : (leBytes 8 identity.toNat).length = 8 := rfl
  show BitVec.ofNat 64 (leNat (((pairPacket path port identity).drop 16).take 8)) = identity
  rw [pairPacket, List.append_assoc, List.drop_left' (by simp), List.take_left' h, leNat_leBytes]
  apply BitVec.eq_of_toNat_eq
  rw [BitVec.toNat_ofNat]
  have := identity.isLt
  omega

/-- PAIR with the own identity, with a self entry and without, and with another device, by an open road, by the Ethernet, in field
mode,
with an entry that is taken; its answer in time, at 100 ms, with shared groups; UNPAIR of the drain partner. -/
theorem witness_PairingFillsAndEmptiesEntries :
    let s (path port : Byte) (identity : Word64) := holding .waiting (pairPacket path port identity) State.reset
    let h (path port : Byte) (identity : Word64) := heldOf .waiting (pairPacket path port identity)
    let own := (s 0 0 Config.identity).setPartner 1 { Partner.init with state := 2, path := 2 }
    let up := (s 0 0 (Config.identity + 1)).setRoad 0 { Road.init with state := .up, lanes := 3 }
    let eth := (s 1 8 (Config.identity + 1)).setEth 0 { EthPort.init with state := 2, enable := true }
    let field : State := { s 0 0 (Config.identity + 1) with pw := { Power.init with bootSel := 8 } }
    let a (n : Nat) : State :=
      let a := paired (holding .running (packetOf [(0, 1, 7)]) State.reset)
      { a with link := { a.link with pairing := some ⟨7, 0, false, 0, 0x101⟩ }, clock := clockAt n }
    let p := packetOf [(0, 1, 8)]
    let u := paired (holding .waiting p State.reset)
    (∀ path port identity, (s path port identity).step = none ∧ (s path port identity).starts 0x07 7 (h path port identity)
        ∧ (s path port identity).link.pairing = none ∧ ((s path port identity).partner 0).state = 0
        ∧ (h path port identity).field 8 2 = 0 ∧ (s path port identity).rankTaken ((h path port identity).field 0x0C 1) = false
        ∧ (s path port identity).selfEntry = none ∧ (s path port identity).pw.bootSel ≠ 8)
      ∧ (s 0 0 (Config.identity + 1)).portGated 0 = false ∧ (h 0 0 (Config.identity + 1)).field 0x0A 1 = 0
      ∧ BitVec.ofNat 64 ((h 0 0 Config.identity).field 0x10 8) = Config.identity
      ∧ BitVec.ofNat 64 ((h 0 0 (Config.identity + 1)).field 0x10 8) ≠ Config.identity
      ∧ own.selfEntry ≠ none ∧ (up.road 0).state = .up ∧ eth.ethUp 0 = true ∧ eth.portGated 8 = false
      ∧ (h 1 8 (Config.identity + 1)).field 0x0A 1 = 1 ∧ (h 1 8 (Config.identity + 1)).field 0x0B 1 = 8
      ∧ field.pw.bootSel = 8 ∧ ((paired (s 0 0 Config.identity)).partner 0).state ≠ 0
      ∧ (a 0).link.pairing = some ⟨7, 0, false, 0, 0x101⟩ ∧ (a 0).held? 7 = some (heldOf .running (packetOf [(0, 1, 7)]))
      ∧ ((a 0).partner 0).port = 0 ∧ sharedFeed 0x101 0x102 = false ∧ sharedFeed 0x101 0x101 = true
      ∧ (a 104999999).now < 0 + 100000000 ∧ 0 + 100000000 ≤ (a 105000000).now
      ∧ u.step = none ∧ u.starts 0x08 7 (heldOf .waiting p) ∧ u.res.drain = none ∧ u.res.partner.toNat
        = (heldOf .waiting p).field 8 2 := by
  refine ⟨fun path port identity => ⟨rfl, ⟨rfl, rfl, rfl, rfl⟩, rfl, rfl, rfl, rfl, rfl, show (0 : BitVec 4) ≠ 8 by decide⟩, rfl,
      rfl,
    pairPacket_identity _ _ _, ?_, by decide, by decide, by decide, by decide, rfl, rfl, rfl, show (2 : Nat) ≠ 0 by decide,
        by decide,
    by decide, by decide, by decide, by decide, by decide, by decide, by decide, ?_, by decide, by decide⟩
  · rw [pairPacket_identity]
    intro e
    have := congrArg BitVec.toNat e
    simp at this
    omega
  · unfold State.starts; decide

theorem witness_ExpertEntriesAndFeedNotices :
    let s := { paired State.reset with pw := { Power.init with diagReady := true } }
    s.pw.diagReady = true ∧ s.upPartners.find? (fun p => p.2.identity == 3) = some (0, neighbour)
      ∧ s.upPartners.find? (fun p => p.2.identity == 4) = none := by decide

set_option maxRecDepth 20000 in
/-- A COPY from host memory to the end of tile 1, from there to main memory and to host memory, and one that the tile's reset
stops; a
QUERY of the last tile, and one past it; a READ_TELEMETRY. -/
theorem witness_TransfersMoveTheirBytes :
    let p (k src dst : Nat) := packetOf [(0, 1, 0x0B), (8, 8, src), (0x10, 8, dst), (0x18, 8, 4), (0x20, 1, k)]
    let tile := tileWindowBase + 2 ^ 22 + 0x1F_FFFC
    let s (phase : HeldPhase) (p : List Byte) := plainMem (hostWith [] (holding phase p { State.reset with tiles := [(1, tileUp)] }))
    let held (k src dst : Nat) := heldOf .running (p k src dst)
    let gone := { s .waiting (p 1 0x1000 tile) with pw := { Power.init with blockResets := [⟨0, 1, none, true⟩] } }
    let q (n : Nat) := packetOf [(0, 1, 0x0D), (8, 2, 1), (0x0C, 4, n), (0x10, 4, 9), (0x20, 4, 4096)]
    let r := packetOf [(0, 1, 0x0E), (8, 4, 0xFFFF_FFFF), (0x18, 4, 64)]
    let x := s .running (p 1 0x1000 tile)
    (s .waiting (p 1 0x1000 tile)).starts 0x0B 7 (heldOf .waiting (p 1 0x1000 tile)) ∧ x.underway 0x0B 7 (held 1 0x1000 tile)
      ∧ x.copySides (held 1 0x1000 tile) = (some (.host 0x1000), some (.tile 1 0x1F_FFFC))
      ∧ x.copySides (held 0 tile 0x80) = (some (.tile 1 0x1F_FFFC), some (.main 0x80))
      ∧ x.copySides (held 0 0x80 tile) = (some (.main 0x80), some (.tile 1 0x1F_FFFC))
      ∧ x.copySides (held 2 tile 0x1000) = (some (.tile 1 0x1F_FFFC), some (.host 0x1000))
      ∧ (x.copySides (held 0 (1984 * 2 ^ 30 - 2) tile)).1 = none
      ∧ x.sideIsolated 4 (.host 0x1000) = false ∧ x.sideIsolated 4 (.tile 1 0x1F_FFFC) = false
      ∧ gone.sideIsolated 4 (.tile 1 0x1F_FFFC) = true ∧ gone.starts 0x0B 7 (heldOf .waiting (p 1 0x1000 tile))
      ∧ x.hostAnswer .ok = .ok ∧ x.hostAnswer (.fail .timeout) = .fail .timeout
      ∧ x.isolated 1 = false ∧ (x.tile 1).mem.ready = true ∧ (x.tile 1).touch 0x1F_FFFC 4 = .ok ∧ (x.tile 1).readable 0x1F_FFFC 4
      ∧ x.inMain 0x80 4 = true ∧ ((linePieces 0x80 4).any fun p => x.memIsolated p.1) = false ∧ x.disturbed 4 0x80 4 = false
      ∧ (s .waiting (q 1535)).starts 0x0D 7 (heldOf .waiting (q 1535))
      ∧ (indexed 1 && (s .waiting (q 1535)).recordCount 1 ≤ 1535) = false
        ∧ (indexed 1 && (s .waiting (q 1536)).recordCount 1 ≤ 1536) = true
      ∧ takeRecordsOf (s .waiting (q 1535)) 1 (rangeFrom 1535 1) 4096 ≠ []
      ∧ (s .waiting r).starts 0x0E 7 (heldOf .waiting r) := by
  refine ⟨?_, ?_, by decide, by decide, by decide, by decide, by decide, by decide, by decide, by decide, ?_, by decide, by decide,
      by decide,
    by decide, by decide, ?_, by decide, by decide, by decide, ?_, by decide, by decide, by decide, ?_⟩
  all_goals first | (unfold State.starts; decide) | (unfold State.underway; decide) | (unfold Tile.readable; decide)

/-- A flit with its CRC: header word, slots. -/
def flitOf (header slot : Nat) : List Byte :=
  let b := bytesOf 536 [(0, 8, header), (8, 8, slot)]
  b ++ leBytes 4 (crc32 b).toNat ++ [0, 0, 0, 0]
def goodCrc (f : List Byte) : Bool := crc32 (f.take 0x218) == BitVec.ofNat 32 (leAt f 0x218 4)

set_option maxRecDepth 20000 in
theorem flits_good : goodCrc (flitOf 0 0) = true ∧ goodCrc (flitOf (2 ^ 24) (255 * 2 ^ 54 + 9 * 2 ^ 46)) = true
    ∧ goodCrc (patch (flitOf 0 0) 100 [1]) = false ∧ (flitOf 0 0).length = 544
    ∧ (patch (flitOf 0 0) 100 [1]).length = 544 ∧ goodCrc (flitOf (2 ^ 24 + 2 ^ 52) 0) = true := by decide +kernel

/-- The last road in a state, with partner 0 behind it. -/
def roadState (r : Road) : State :=
  let s := State.reset.setPartner 0 { neighbour with port := 7 }
  { s.setRoad 7 r with clock := clockAt (2 ^ 30) }

set_option maxRecDepth 20000 in
/-- A road that is up, to which the flits of `flits_good` come; one that is silent and has retried; one that trains, one that is
down
within 10 ms and one past it. -/
theorem witness_RoadsReceiveRetrainAndFail :
    let up := { Road.init with state := .up, retries := 8 }
    let down := { Road.init with state := .down }
    let late := { down with downSince := 1022000000 }
    let s := roadState up
    let f := flitOf (2 ^ 24) (255 * 2 ^ 54 + 9 * 2 ^ 46)
    let k := flitSlot f 0
    (s.road 7).state = .up ∧ s.link.srefclk = true ∧ f.length = 544 ∧ bitsAt (leAt (flitOf 0 0) 0 8) 24 2 = 0
      ∧ bitsAt (leAt (flitOf (2 ^ 24 + 2 ^ 52) 0) 0 8) 24 2 ≠ 0
        ∧ bitsAt (leAt (flitOf (2 ^ 24 + 2 ^ 52) 0) 0 8) 52 12 ≠ (s.road 7).rxSeq
      ∧ bitsAt (leAt f 0 8) 24 2 = 1 ∧ bitsAt (leAt f 0 8) 52 12 = (s.road 7).rxSeq ∧ (PktHeader.parse k.header).vc = 0
      ∧ (PktHeader.parse k.header).destRank = s.ownRank ∧ s.senderEntry 7 (PktHeader.parse k.header).srcRank = some 0
      ∧ 8 ≤ (s.road 7).retries ∧ (s.road 7).lastValid + 100000 ≤ s.now ∧ ((roadState down).road 7).state = .down
      ∧ ((roadState { Road.init with state := .training }).road 7).state = .training ∧ (3 : BitVec 2) ≠ 0
      ∧ ((roadState down).road 7).downSince + 10000000 ≤ (roadState down).now
      ∧ (roadState late).now < ((roadState late).road 7).downSince + 10000000 := by decide +kernel

/-- A frame for port 3, of these transport bytes. -/
def frameOf (d : List Byte) : EthFrame := ⟨Config.mac 3, 0, none, 0, 9, 0, some (0xB75A, 0xB75A), d⟩
/-- Port 3 up, partner 4095 behind it. -/
def etherState (c : EthCtx) : State :=
  let x := { EthPort.init with state := 2, enable := true, pfcEnable := true, ipv6 := 9 }
  let p := { Partner.init with state := 2, path := 1, port := 11, identity := 3 }
  { ((State.reset.setEth 3 x).setPartner 4095 p).setCtx 4095 c with clock := clockAt (2 ^ 30) }

theorem forPort_frameOf (c : EthCtx) (d : List Byte) (h : 32 ≤ d.length) (k : d.length ≤ 9000) (o : leAt d 0 1 = 1) :
    (etherState c).forPort 3 (frameOf d) = true := by
  have ht : frameBytes (frameOf d) ≤ 9216 := by
    unfold frameBytes frameOf
    simp
    omega
  have hu : (etherState c).link.udpPort = 0xB75A := rfl
  have hx : (etherState c).ethPort 3 = { EthPort.init with state := 2, enable := true, pfcEnable := true, ipv6 := 9 } := rfl
  have hd : decide (frameBytes (frameOf d) ≤ 9216) = true := decide_eq_true ht
  unfold State.forPort
  rw [hu, hx, hd]
  simp [frameOf, h, o, EthPort.init]

set_option maxRecDepth 20000 in
/-- Frames that are too short, of an unknown device, an acknowledgement, an ece, and one of a packet; a datagram that waits at its
sixth
and at its seventh timeout; a port, and one without its reference clock. -/
theorem witness_EthernetFollowsItsTransport :
    let g : Datagram := ⟨5, 0, [], 0, false, some (frameOf [])⟩
    let s (n : Nat) := etherState { EthCtx.init with unacked := [g], sinceAck := 1, timeouts := n }
    let quiet := etherState EthCtx.init
    let p := { Partner.init with state := 2, path := 1, port := 11, identity := 3 }
    let d (kind slots psn ece id : Nat) := bytesOf 104 [(0, 1, 1), (1, 1, kind), (2, 2, slots), (4, 4, psn), (8, 4, ece), (0x10, 8,
        id),
      (32, 8, 255 * 2 ^ 54)]
    let k : LinkPacket := ⟨BitVec.ofNat 64 (255 * 2 ^ 54), [List.replicate 64 0]⟩
    let found (s : State) (b : List Byte) := s.link.partners.find? fun p => (p.2.state == 2 || p.2.state == 1) && p.2.path == 1
      && p.2.port == 8 + 3 && p.2.identity.toNat == leAt b 0x10 8
    let off : State := { quiet with link := { quiet.link with srefclk := false } }
    (s 6).ethUp 3 = true ∧ (frameOf []).payload.length < 32
      ∧ (∀ kind slots psn ece id, 32 ≤ (d kind slots psn ece id).length → (d kind slots psn ece id).length ≤ 9000
        → leAt (d kind slots psn ece id) 0 1 = 1 → quiet.forPort 3 (frameOf (d kind slots psn ece id)) = true)
      ∧ (d 3 0 0 0 3).length = 104 ∧ leAt (d 3 0 0 0 3) 0 1 = 1 ∧ leAt (d 3 0 0 0 3) 2 2 = 0 ∧ found quiet (d 3 0 0 0 4) = none
      ∧ found quiet (d 3 0 0 0 3) = some (4095, p) ∧ leAt (d 3 0 0 0 3) 1 1 = 3 ∧ natBit (leAt (d 3 0 0 0 3) 8 4) 31 = false
      ∧ natBit (leAt (d 3 0 0 (2 ^ 31) 3) 8 4) 31 = true ∧ (quiet.ethCtx 4095).lastCut = none
      ∧ found quiet (d 0 1 0 0 3) = some (4095, p) ∧ leAt (d 0 1 0 0 3) 1 1 = 0 ∧ (quiet.ethCtx 4095).rxPsn < 2 ^ 24
      ∧ (quiet.ethCtx 4095).early = [] ∧ leAt (d 0 1 0 0 3) 4 4 % 2 ^ 24 = ((quiet.ethCtx 4095).rxPsn + 1) % 2 ^ 24
      ∧ parseSlots (leAt (d 0 1 0 0 3) 2 2) ((d 0 1 0 0 3).drop 32) = [k] ∧ (PktHeader.parse k.header).vc = 0
      ∧ (PktHeader.parse k.header).destRank = quiet.ownRank ∧ quiet.senderEntry (8 + 3) (PktHeader.parse k.header).srcRank
        = some 4095
      ∧ ((s 6).ethCtx 4095).unacked.find? (fun g => !g.sacked) = some g ∧ g.sentAt + 100000 * 2 ^ 7 ≤ (s 7).now
      ∧ ((s 6).ethCtx 4095).timeouts + 1 < 8 ∧ 8 ≤ ((s 7).ethCtx 4095).timeouts + 1
      ∧ ((s 6).ethCtx 4095).unacked.find? (fun y => y.psn == g.psn) = some g ∧ g.frame ≠ none
      ∧ ((s 6).ethCtx 4095).sinceAck ≠ 0 ∧ ((s 6).ethCtx 4095).ackFrom + 10000 ≤ (s 6).now
      ∧ (quiet.partner 4095).state = 2 ∧ (quiet.partner 4095).path = 1 ∧ (quiet.ethCtx 4095).rateSince + 50000 ≤ quiet.now
      ∧ (quiet.ethPort 3).pfcEnable = true ∧ (9 : BitVec 128) = (quiet.ethPort 3).ipv6 ∧ (10 : BitVec 128) ≠ (quiet.ethPort 3).ipv6
      ∧ (quiet.ethPort 3).enable = true ∧ quiet.link.srefclk = true ∧ quiet.portGated 11 = false ∧ quiet.portInReset 11 = false
      ∧ quiet.deviceAsleep = false ∧ off.link.srefclk = false ∧ off.deviceAsleep = false ∧ (off.road 7).state = .disabled
      ∧ off.pw.bootSel ≠ 8 ∧ off.portGated 7 = false := by
  refine ⟨by decide, by decide, fun _ _ _ _ _ a b c => forPort_frameOf _ _ a b c, by decide, by decide, by decide, by decide,
      by decide,
    by decide, by decide, by decide, by decide, by decide, by decide, by decide, by decide, by decide, by decide, by decide,
        by decide,
    by decide, rfl, by decide, by decide, by decide, rfl, Option.some_ne_none _, by decide, by decide, by decide, by decide,
        by decide,
    by decide, by decide, by decide, by decide, by decide, by decide, by decide, by decide, by decide, by decide, by decide,
        by decide,
    by decide⟩

/-- A device after D3, with registers open. -/
def open' (s : State) : State := { s with pw := { s.pw with diagReady := true, stage := 6, service := 1, standing := .ended } }

/-- The condition of each kind of reset, and those of its clauses about memory. -/
theorem witness_ResetsEndWorkAndRestartDawn :
    let p := packetOf [(0, 1, 0x11), (1, 1, 4)]
    let s := holding .waiting p (open' (one { tileUp with pages := { Pages.init with attr := [(511, 1)] } }))
    s.starts 0x11 7 (heldOf .waiting p) ∧ (heldOf .waiting p).flag 2 = true ∧ s.pw.diagReady = true
        ∧ (0x8000_0000 : Word32).getLsbD 31 = true
      ∧ (if true then s.pw.aux else s.pw.v48) = false ∧ ({ s.pw with v48 := false } : Power).v48 = false ∧ s.pw.perst = false
      ∧ ({ Security.init with debugScope := 4 } : Security).debugScope.getLsbD 2 = true ∧ s.pw.standing = .ended ∧ s.pw.fieldBench
        = none
      ∧ NMap.wf 0 (s.tile 0).pages.attr = true ∧ (s.tile 0).pageAttr (0x1F_FFFF / 4096) = 1 ∧ (s.tile 0).pageAttr 0 = 0
      ∧ ResetKind.powerOn.level = 4 ∧ ResetKind.command.level < 4 ∧ s.pw.d3cold = false := by
  refine ⟨?_, by decide, by decide, by decide, by decide, by decide, by decide, rfl, by decide, by decide, by decide, by decide,
      by decide,
    by decide, by decide, by decide⟩
  unfold State.starts; decide

/-- A list of checks whose first one fails has a fault. -/
theorem firstFault_cons (o : Nat) (l : List (Nat × Bool)) : (firstFault ((o, true) :: l)).isSome = true := by
  have keep : ∀ (l : List (Nat × Bool)) (a : Nat), (l.foldl (fun a x => if !x.2 then a else
      match a with | none => some x.1 | some o => some (min o x.1)) (some a)).isSome = true := by
    intro l
    induction l with
    | nil => exact fun _ => rfl
    | cons x xs ih =>
      intro a
      rw [List.foldl_cons]
      cases h : x.2
      · simpa [h] using ih a
      · simpa [h] using ih (min a x.1)
  exact keep l o

/-- An empty bank holds no image. -/
theorem bankValid_nil (n : Nat) : bankValid n [] = false := by
  have h := firstFault_cons 0 ((fwFaults n []).drop 1)
  have e : fwFaults n [] = (0, true) :: (fwFaults n []).drop 1 := by simp [fwFaults, fwMagic]
  rw [← e] at h
  simp [bankValid, Option.isNone_eq_false_iff.mpr h]

/-- Dawn at each stage; the banks that boot are any images that the part's key signs. -/
theorem witness_DawnRunsToService :
    let at' (standing : Standing) (stage : Nat) (sel : BitVec 4) : State :=
      { State.reset with
        pw := { Power.init with standing := standing, stage := stage, bootSel := sel, perst := decide (standing = .inReset) }
        sec := { Security.init with counter := 0, bankA := [], bankB := [] } }
    let received (x : State) (b : List Byte) : State := { x with sec := { x.sec with recReceived := b } }
    let failed (bs : List Nat) : State := { at' .dawn 6 15 with pw := { (at' .dawn 6 15).pw with benchFailed := bs } }
    (at' .inReset 0 0).pw.perst = true ∧ (at' .inReset 0 0).pw.standing = .inReset ∧ (at' .hot 0 0).pw.standing = .hot
      ∧ (∀ k sel, (at' .dawn k sel).pw.standing = .dawn ∧ (at' .dawn k sel).pw.stage = k ∧ (at' .dawn k sel).pw.bootSel = sel)
      ∧ (at' .dawn 3 14).sec.selectBank (decide ((at' .dawn 3 14).pw.bootSel = 14)) = none
      ∧ (∀ b, bankValid 0 b = true → { (at' .dawn 3 14).sec with bankB := b }.selectBank true = some (true, false))
      ∧ (at' .dawn 4 15).pw.holdsDawn = false ∧ (at' .dawn 4 15).pw.diagOnly = false
      ∧ (at' .dawn 4 15).pw.fillDue = true ∧ (at' .dawn 6 15).pw.bootSel ≠ 9
        ∧ (∀ b, b < 6 → (at' .dawn 6 15).benchComplete b = true)
      ∧ (List.range 6).all (failed [0]).benchComplete = false ∧ (List.range 6).find? (failed [0]).benchComplete = some 1
      ∧ (List.range 6).find? (failed [0, 1, 2, 3, 4, 5]).benchComplete = none
      ∧ (at' .hold 4 15).pw.standing = .hold ∧ (at' .hold 4 15).pw.diagOnly = false ∧ (at' .recovery 3 0).pw.standing = .recovery
      ∧ (at' .recovery 3 0).sec.recSideband = false ∧ (at' .recovery 3 0).sec.recFault = some 5
      ∧ ∀ b, 256 ≤ b.length → fwBodyOk (fwBody b) = true → b.length = fwLength (fwBody b) → bankValid 0 b = true →
          (received (at' .recovery 3 0) b).sec.recFault = none := by
  refine ⟨rfl, rfl, rfl, fun _ _ => ⟨rfl, rfl, rfl⟩,
    by simp [Security.selectBank, Security.bank, bankValid_nil], fun b h => by simp [Security.selectBank, Security.bank, h],
        by decide, by decide,
    by decide, by decide, by decide, by decide, by decide, by decide, by decide, by decide, by decide, by decide, by decide,
    fun b h1 h2 h3 h4 => ?_⟩
  simp only [bankValid, Bool.and_eq_true, Option.isNone_iff_eq_none] at h4
  simp [Security.recFault, h2, ← h3, h4.1, h4.2, Nat.not_lt.mpr h1]

/-- SET_POWER to Evening at once, out of a gated level, to Night-hold of a bench, beside a running step, and of a bench that is
there;
the end of each transition; D3hot; POWER_CONTROL of the last bench and of the whole device. -/
theorem witness_PowerCommandsChangeTheirBenches :
    let wake := packetOf [(0, 1, 0x0F), (8, 1, 1), (9, 1, 4)]
    let dusk := packetOf [(0, 1, 0x0F), (8, 1, 2), (0x0A, 1, 2), (0x0B, 1, 5)]
    let bench (l : PowerLevel) (s : State) : State :=
      { s with pw := { s.pw with benches := [(0, { BenchClock.init with level := l }), (5, { BenchClock.init with level := l })] } }
    let s (p : List Byte) := open' (holding .waiting p (one Tile.init))
    let x (l : PowerLevel) : Transition := ⟨some 7, [0], l, false, true⟩
    let t (l : PowerLevel) := { holding .running dusk (one Tile.init) with pw := { Power.init with transition := some (x l) } }
    (s wake).pw.transition = none ∧ (s wake).starts 0x0F 7 (heldOf .waiting wake)
        ∧ (levelOf ((heldOf .waiting wake).field 8 1)).isGated = false
      ∧ scopeBenches ((heldOf .waiting wake).field 0x0A 1) ((heldOf .waiting wake).field 0x0B 1) = [0, 1, 2, 3, 4, 5]
      ∧ (s wake).gatedOf [0, 1, 2, 3, 4, 5] = [] ∧ (s wake).refusesPower 7 [0, 1, 2, 3, 4, 5] true .evening = false
      ∧ (bench .nightHold (s wake)).gatedOf [0, 1, 2, 3, 4, 5] ≠ [] ∧ ((bench .nightHold (s wake)).bench 0).level.mayGo .evening
        = true
      ∧ (s dusk).starts 0x0F 7 (heldOf .waiting dusk) ∧ (levelOf ((heldOf .waiting dusk).field 8 1)).isGated = true
      ∧ scopeBenches ((heldOf .waiting dusk).field 0x0A 1) ((heldOf .waiting dusk).field 0x0B 1) = [5]
      ∧ ((s dusk).bench 5).level.mayGo .nightHold = true ∧ (s dusk).refusesPower 7 [5] false .nightHold = false
      ∧ ((s dusk).bench 5).level ≠ .nightHold ∧ ((bench .midnight (s dusk)).bench 5).level.mayGo .nightHold = false
      ∧ ((bench .nightHold (s dusk)).bench 5).level = .nightHold
      ∧ ({ s dusk with step := some (runOf .step) } : State).refusesPower 7 [5] false .nightHold = true
      ∧ (∀ l, (t l).pw.transition = some (x l) ∧ (t l).held? 7 = some (heldOf .running dusk) ∧ (t l).step = none
        ∧ (t l).quiet (x l).benches = true) ∧ (t .midnight).res.drain = none
      ∧ (s wake).pw.diagReady = true ∧ (s wake).host.d3hot = false
      ∧ ({ HostIf.init with d3hot := true } : HostIf).d3hot = true
      ∧ (0x8000_0020 : Word32).getLsbD 31 = true ∧ (0x8000_0020 : Word32).extractLsb' 29 2 = 0 ∧ (0x8000_0020 : Word32).getLsbD 5
        = true
      ∧ (levelOf ((0xC000_003F : Word32).extractLsb' 29 2).toNat).isGated = true
      ∧ ((setBits ((0xC000_003F : Word32).extractLsb' 0 6).toNat 6 0).filter fun b => ((s wake).bench b).level.mayGo .nightHold) ≠ [] := by
  refine ⟨by decide, ?_, by decide, by decide, by decide, by decide, by decide, by decide, ?_, by decide, by decide, by decide,
      by decide,
    by decide, by decide, by decide, by decide, fun l => ⟨rfl, rfl, rfl, rfl⟩, by decide, by decide, by decide, by decide,
        by decide,
    by decide, by decide, by decide, by decide⟩
  all_goals (unfold State.starts; decide)

theorem witness_TwilightCapAndHeatDivideBenches :
    let c := railCode (.core 5)
    let o := { State.reset with pw := { Power.init with openTwilight := [(c, 0)], benches := [(5, { BenchClock.init with cap := 1 })] } }
    c < 7 ∧ (∀ o ∈ State.reset.pw.openTwilight, o.1 ≠ c) ∧ o.pw.openTwilight.find? (fun o => o.1 == c) = some (c, 0)
        ∧ o.pw.cap < 3001
      ∧ o.pw.lastSlow = none ∧ (o.bench 5).cap ≠ 2 ∧ 100 * 2849 < 95 * o.pw.cap
      ∧ (List.range 6).filter (fun j => (o.bench j).cap != 0) = [5] ∧ 96 < 97
      ∧ ({ Power.init with twiTimes := List.replicate 8 0 } : Power).twiTimes.length = 8 := by decide

set_option maxRecDepth 20000 in
/-- A RESET_BLOCK of the last tile, of one that is gated, of a tile that field mode does not have, and one that overlaps a
bench's; the
same by its register; the end of a tile's, of a port's and of a controller group's. -/
theorem witness_BlockResetsIsolateAndClear :
    let p := packetOf [(0, 1, 0x10), (8, 1, 0), (0x0C, 2, 1535)]
    let s := holding .waiting p (open' State.reset)
    let g := { s with pw := { s.pw with benches := [(s.tb 1535, { BenchClock.init with level := .midnight })] } }
    let f := { s with pw := { s.pw with fieldBench := some 0 } }
    let o := { s with pw := { s.pw with blockResets := [⟨1, s.tb 1535, none, true⟩] } }
    let w : Word32 := 0x8000_05FF
    let e (k i : Nat) := { holding .running p State.reset with
      pw := { Power.init with blockResets := [⟨k, i, some 7, true⟩], bootSel := 1 } }
    s.starts 0x10 7 (heldOf .waiting p) ∧ (heldOf .waiting p).field 8 1 = 0 ∧ (heldOf .waiting p).field 0x0C 2 = 1535
        ∧ s.pw.fieldBench = none
      ∧ s.blockGated 0 1535 = false ∧ s.pw.blockResets = [] ∧ g.starts 0x10 7 (heldOf .waiting p)
      ∧ g.blockGated 0 1535 = true ∧ f.starts 0x10 7 (heldOf .waiting p) ∧ f.pw.fieldBench.isSome = true ∧ 256 ≤ 1535
      ∧ o.starts 0x10 7 (heldOf .waiting p) ∧ (∃ b ∈ o.pw.blockResets, o.overlaps b.kind b.index 0 1535 = true)
      ∧ s.pw.diagReady = true ∧ w.getLsbD 31 = true ∧ (w.extractLsb' 27 3).toNat = 0
      ∧ (w.extractLsb' 0 11).toNat = 1535 ∧ 1535 < blockCount 0 ∧ s.inBlock 0 1535 1535 = true ∧ 1535 < s.tilesServed
      ∧ (e 3 7).pw.blockResets = [⟨3, 7, some 7, true⟩] ∧ (e 3 7).held? 7 = some (heldOf .running p) ∧ (e 3 7).pw.bootSel ≠ 8
      ∧ (e 3 7).link.srefclk = true ∧ (e 3 7).deviceAsleep = false ∧ (e 4 31).mm.chanFail = [] := by
  refine ⟨?_, by decide, by decide, by decide, by decide, by decide, ?_, by decide, ?_, by decide, by decide, ?_, by decide,
      by decide,
    by decide, by decide, by decide, by decide, by decide, by decide, by decide, by decide, by decide, by decide, by decide,
        by decide⟩
  all_goals (unfold State.starts; decide)

/-- The last queue, with its packet at 0x1000 of host memory. -/
def queueState (seq op : Nat) (x : Queue) : State :=
  (open' (hostWith (packetOf [(0, 1, op), (4, 4, seq)]) State.reset)).setQueue 63
    { x with sqBase := 0x1000, enable := true, state := .active, lastEntry := 7, sqTail := 1 }

/-- A packet in sequence, one that is refused, one out of sequence; a completion to write, with its vector masked or not;
doorbells at the
last entry and past it, and of a queue that is off; a queue that ends; a vector that waited. -/
theorem witness_QueuesFetchAndAnswer :
    let s := queueState 0 0x0D Queue.init
    let p := s.getHost ((s.queue 63).sqBase.toNat + 64 * (s.queue 63).sqHead) 64
    let bad := queueState 0 0xFF Queue.init
    let late := queueState 5 0x0D Queue.init
    let d : Done := ⟨63, 0, 0, 0, 0x0D, 0, 0, false, true, some 0⟩
    let e := s.setQueue 63 { s.queue 63 with irqEnable := true, vector := 127 }
    let e : State := { e with host := { e.host with done := [d] } }
    let off := s.setQueue 63 { Queue.init with state := .disabling }
    let q := late.getHost ((late.queue 63).sqBase.toNat + 64 * (late.queue 63).sqHead) 64
    s.host.pcie.busMaster = true ∧ State.reset.host.pcie.busMaster = false
      ∧ s.fetchQueue = some 63 ∧ s.journalSlot = some 0 ∧ s.pw.diagReady = true ∧ s.host.d3hot = false ∧ s.host.held.length < 256
      ∧ (∀ h ∈ s.host.held, h.n < s.host.nextStart) ∧ leAt p 4 4 = (s.queue 63).nextSeq.toNat ∧ s.refuse 63 p = none
      ∧ bad.fetchQueue = some 63 ∧ s.hostAnswer .ok = .ok ∧ s.hostAnswer (.fail .timeout) = .fail .timeout
      ∧ bad.refuse 63 (bad.getHost ((bad.queue 63).sqBase.toNat + 64 * (bad.queue 63).sqHead) 64) = some (.badPacket, 0)
      ∧ leAt q 4 4 ≠ (late.queue 63).nextSeq.toNat ∧ State.reset.fetchQueue = none
      ∧ e.host.done.find? (fun d => d.queue == 63) = some d ∧ (e.queue 63).hasRoom = true
      ∧ (e.queue 63).state ≠ .disabled ∧ (e.queue 63).state ≠ .error ∧ (e.queue 63).irqEnable = true ∧ d.irq = true
      ∧ 7 % 4096 ≤ (s.queue 63).lastEntry.toNat ∧ (s.queue 63).state = .active
      ∧ (s.queue 63).lastEntry.toNat < 8 % 4096 ∧ (0x8000_0000 : Word32).getLsbD 31 = true ∧ (State.reset.queue 63).enable = false
      ∧ (State.reset.queue 63).state = .disabled ∧ (s.queue 63).enable = true ∧ (off.queue 63).state = .disabling
        ∧ off.inFlight 63 = 0
      ∧ 127 ∈ ({ HostIf.init with pba := [127] } : HostIf).pba ∧ ¬ 127 ∈ HostIf.init.pba := by decide

/-- Tile 1535, halted, with its code window open and an ADD in code word 0. -/
def haltedTile : Tile :=
  { Tile.init with core := { Tile.init.core with codeWindow := true, codePage := 31 }
                   mem := { TileMem.init with code := [(0, 0x0011_8440_0000_0000)] } }

theorem witness_RegisterWritesReachTheirRegister :
    let s := open' { State.reset with tiles := [(1535, haltedTile)], host := { HostIf.init with bcast := [(15, 0)] } }
    let c := s.tile 1535
    let gone := { s with pw := { s.pw with benches := [(s.tb 1535, { BenchClock.init with level := .midnight })] } }
    let busy : State := { s with res := { s.res with retire := some 7 } }
    let w : Word32 := 0x901F_FFF8
    s.pw.diagReady = true ∧ 2 % 4 ≠ 0 ∧ ([0, 0, 0, 0, 0, 0, 0, 0] : List Byte).length = 8 ∧ 8 % 8 = 0
      ∧ (∃ s', exec (.registerWrite (.bar0 8) [0, 0, 0, 0]) s = .next s') ∧ s.configOpen = true ∧ State.reset.configOpen = false
      ∧ State.reset.pw.diagReady = false ∧ s.dropsExpert = false ∧ s.inService 1535 = true ∧ gone.dropsExpert = false
      ∧ gone.inService 1535 = false ∧ busy.dropsExpert = true
      ∧ (s.bcastTiles (NMap.get 0xE000_0000 s.host.bcast 15)).isSome = true
      ∧ s.bcastTiles (NMap.get 0xE000_0000 s.host.bcast 14) = none ∧ 0xFFC % 4 = 0
      ∧ c.core.run ≠ .faulted ∧ (1 : Word32).getLsbD 2 = false ∧ (1 : Word32).getLsbD 3 = false ∧ c.core.halt = true ∧ c.core.run
        = .halted
      ∧ c.mem.ready = true ∧ c.core.pc < c.core.codeLen
      ∧ (flipsIn c.mem.eccCode c.core.pc 1).isEmpty = true ∧ c.anyPending [3, 1, 2] [] = false
      ∧ decodeInsn 1535 (NMap.get 0 c.mem.code c.core.pc) = some (.add 1535 3 1 (.reg 2))
      ∧ insnOf (.add 1535 3 1 (.reg 2)) ≠ none ∧ c.core.codeWindow = true
      ∧ (c.ring 31).claimed = 0 ∧ (c.ring 31).reserved = 0 ∧ w.getLsbD 31 = true ∧ w.getLsbD 30 = false
      ∧ w.extractLsb' 28 2 = 1 ∧ (0xD01F_FFF8 : Word32).getLsbD 30 = true ∧ tileUp.core.halt = false
      ∧ (running (runOf .step) 3 (one tileUp)).step.isSome = true ∧ s.step = none := by
  refine ⟨by decide, by decide, by decide, by decide, ⟨_, rfl⟩, by decide, by decide, by decide, by decide, by decide, by decide,
      by decide,
    by decide, by decide, by decide, by decide, by decide, by decide, by decide, by decide, by decide, by decide, by decide,
        by decide,
    by decide, by decide, by decide, by decide, by decide, by decide, by decide, by decide, by decide, by decide, by decide,
        by decide,
    by decide⟩

/-- The aperture at the last line of main memory, and past its size; a line whose check does not match, and one that fails twice. -/
theorem witness_MemoryAccessesReachTheirBytes :
    let a := 1984 * 2 ^ 30 - 64
    let s0 := plainMem (open' State.reset)
    let s := { s0 with host := { s0.host with bar2Base := BitVec.ofNat 64 (1984 * 2 ^ 30 - 2 ^ 36) } }
    let bad := { s with mm := { s.mm with checks := [(a / 64, 1)] } }
    let twice : LineCheck := ⟨[], true, ⟨none, [], true⟩, ⟨none, [], true⟩⟩
    let once : LineCheck := { twice with second := .clean }
    s.pw.diagReady = true ∧ s.host.d3hot = false ∧ 2 ^ 36 - 64 + 64 ≤ 2 ^ s.host.bar2Log2 ∧ ¬ 2 ^ 36 - 63 + 64 ≤ 2 ^ s.host.bar2Log2
      ∧ s.host.bar2Base.toNat + (2 ^ 36 - 64) = a ∧ s.inMain a 64 = true
      ∧ (∀ p ∈ linePieces a 64, s.memIsolated p.1 = false) ∧ s.disturbed 3 a 64 = false ∧ s.disturbed 6 a 64 = false
      ∧ (∃ p ∈ linePieces a 64, bad.mm.cur.unchecked = false ∧ bad.mm.served = [] ∧ NMap.get 0 bad.mm.checks (p.1 / 64) ≠ 0)
      ∧ s.inMain a 1 = true ∧ s.memIsolated a = false ∧ (one tileUp).memIsolated a = true
      ∧ (s.lineReads (a / 64) twice.first = none ∧ s.lineReads (a / 64) twice.second = none)
      ∧ (s.lineReads (a / 64) once.second).isSome = true ∧ s.mm.ueLog.valid = false
      ∧ s.mm.cur.unchecked = false ∧ s.channelUp 127 = true ∧ State.reset.channelUp 127 = false := by decide

/-- An update beside a bank that the part's key signs, and beside an empty one; a report; a challenge in time and at 60 s. -/
theorem witness_RootOfTrustUpdatesAttestsUnlocks :
    let p := packetOf [(0, 1, 0x14), (8, 8, 0x1000), (0x10, 8, 2 ^ 20)]
    let q (n : Nat) := packetOf [(0, 1, 0x13), (0x30, 4, n)]
    let s (w : Option FwWrite) (a b : List Byte) (phase : HeldPhase) (p : List Byte) : State :=
      { hostWith [] (holding phase p (open' State.reset)) with
        sec := { Security.init with counter := 0, bankA := a, bankB := b, write := w } }
    let r (n : Option Nat) : SignRequest := ⟨n, [], 0x1000, some (List.replicate 512 0)⟩
    let g (n : Option Nat) := { hostWith [] (holding .running (q 80240) (open' State.reset)) with sec := { Security.init with signing := [r n] } }
    let c (n : Nat) := { open' State.reset with sec := { Security.init with challenge := some ⟨0, 0⟩ }, clock := clockAt n }
    (∀ a b, (s none a b .waiting p).sec.write = none ∧ (s none a b .waiting p).starts 0x14 7 (heldOf .waiting p)
        ∧ (s none a b .waiting p).hostAnswer .ok = .ok ∧ (s none a b .waiting p).hostAnswer (.fail .timeout) = .fail .timeout)
      ∧ (∀ x, bankValid 0 x = true → bankValid (s none x [] .waiting p).sec.counter ((s none x [] .waiting p).sec.bank false) = true
          ∧ bankValid (s none x [] .waiting p).sec.counter ((s none x [] .waiting p).sec.bank true) = false
          ∧ (firstFault (fwFaults (s none x [] .waiting p).sec.counter x)).isNone = true)
      ∧ (∀ x, (s (some ⟨7, true, x⟩) [] [] .running p).sec.write = some ⟨7, true, x⟩
          ∧ (s (some ⟨7, true, x⟩) [] [] .running p).held? 7 = some (heldOf .running p))
      ∧ bankValid 0 [] = false
      ∧ (∀ n, (holding .waiting (q n) State.reset).starts 0x13 7 (heldOf .waiting (q n)))
      ∧ 80240 ≤ (heldOf .waiting (q 80240)).field 0x30 4 ∧ (heldOf .waiting (q 80239)).field 0x30 4 < 80240
      ∧ (∀ n, (g n).sec.signing = [r n] ∧ (g n).hostAnswer .ok = .ok) ∧ (g (some 7)).held? 7 = some (heldOf .running (q 80240))
      ∧ (List.replicate 512 (0 : Byte)).length = 512 ∧ (g none).pw.diagReady = true ∧ (List.replicate 32 (0 : Byte)).length = 32
      ∧ (c 0).rootReady = true ∧ State.reset.rootReady = false ∧ (c 0).sec.rejected < 3 ∧ (c 0).unlockOk [] = false
      ∧ (c 0).sec.challenge = some ⟨0, 0⟩ ∧ (c 0).now < 0 + 60 * 10 ^ 9 ∧ 0 + 60 * 10 ^ 9 ≤ (c (63 * 10 ^ 9)).now := by
  refine ⟨fun _ _ => ⟨rfl, ⟨rfl, by decide, rfl, rfl⟩, rfl, rfl⟩, fun x h => ⟨h, bankValid_nil 0, ?_⟩, fun _ => ⟨rfl, rfl⟩,
      bankValid_nil 0,
    fun _ => ⟨rfl, rfl, rfl, rfl⟩, by decide, by decide, fun _ => ⟨rfl, rfl⟩, rfl, List.length_replicate, rfl, by decide,
        by decide, by decide,
    by decide, by decide, rfl, by decide, by decide⟩
  exact (Bool.and_eq_true _ _ ▸ h).1

/-- The sideband served and not; a condition that waits; vendor messages of a command that is taken, and of one that is not; a
recovery
image that comes by it. -/
theorem witness_SidebandServesTheBoard :
    let p := packetOf [(0, 1, 0x0D)]
    let s := { open' State.reset with mod := { Module.init with alert := true, conditions := [3] } }
    let r : State := { State.reset with pw := { Power.init with standing := .recovery }, sec := { Security.init with recSideband := true } }
    let d : Done := ⟨64, 0, 0, 0, 0x0D, 0, 0, false, false, none⟩
    let e : State := { s with host := { s.host with done := [d] } }
    s.sidebandUp = true ∧ 12 < 13 ∧ s.mod.alert = true ∧ s.mod.conditions = 3 :: [] ∧ p.length = 64 ∧ s.pw.service = 1
      ∧ s.pw.standing ≠ .recovery ∧ (∀ h ∈ s.host.held, h.n < s.host.nextStart) ∧ leAt p 0 1 ∈ [0x0D, 0x0E, 0x13, 0x14]
      ∧ s.refuse 0 p = none ∧ ¬ leAt (packetOf [(0, 1, 0x0C)]) 0 1 ∈ [0x0D, 0x0E, 0x13, 0x14]
      ∧ (∀ d ∈ s.host.done, d.queue ≠ 64) ∧ e.host.done.find? (fun d => d.queue == 64) = some d
      ∧ r.pw.standing = .recovery ∧ r.sec.recSideband = true ∧ State.reset.mod.alert = false ∧ State.reset.mod.conditions
        = [] := by decide

theorem witness_DecodeReadsWhatEncodeWrites :
    encodeInsn (.addi 1535 31 1 (.imm 0xFFFF_FFFF)) = some 0x051F_8400_FFFF_FFFF := by decide

theorem witness_TileInstructionsKeepToTheirTile :
    (encodeInsn (.halt 1535)).isSome = true ∧ (Instr.halt 1535).units = [(1535, 1536)] ∧ (one tileUp).memOk = true
      ∧ (∃ s', exec (.halt 1535) (one tileUp) = .next s') := ⟨by decide, by decide, by decide, _, rfl⟩

/-- A device at D6, an update by any image that the part's key signs, and a full set of fuses. -/
theorem witness_RollbackCounterFollowsTheBanks :
    let s := { State.reset with pw := { Power.init with stage := 6 }, sec := { Security.init with counter := 64 } }
    let p := packetOf [(0, 1, 0x14)]
    let u (x : List Byte) := { holding .running p State.reset with sec := { Security.init with write := some ⟨7, true, x⟩ } }
    s.pw.standing = .dawn ∧ s.pw.stage = 6 ∧ s.sec.counter ≤ 64 ∧ (∃ s', step s = .next s')
      ∧ ∀ x, bankValid (u x).sec.counter x = true → (u x).sec.write = some ⟨7, true, x⟩ ∧ (u x).held? 7
        = some (heldOf .running p) :=
  ⟨rfl, rfl, by decide, ⟨_, rfl⟩, fun _ _ => ⟨rfl, rfl⟩⟩

/-! ### Worked examples of the spec -/

/-- Main memory: one address under both interleaves. -/
theorem test_interleave_global :
    channelOf ⟨false, false, false⟩ 0x1234800 = (33, 72) ∧ physicalGranule 72 = 74 ∧ 64 * checkLine 72 = 0x2FA80
      ∧ channelEntry 33 = 20 := by decide
theorem test_interleave_pools : channelOf ⟨true, false, false⟩ 0x1234800 = (13, 388) ∧ channelEntry 13 = 0 := by decide

/-- Surviving Failures: tile 700 lies at offset 12 of row 30, and its retirement moves it one physical column east. -/
theorem test_row_shift :
    let s := State.reset.setRow 30 ⟨12, true, 1, 4⟩
    rowAt (tileX 700) (tileY 700) = 30 ∧ s.physColumn 28 14 = 30 ∧ s.physColumn 27 14 = 28 ∧ s.physGated 29 14 = true
      ∧ s.routerSelector 28 14 true = some (-1) := by decide

end Sys2Proof.Tests
end

section
/-! SUPPORT. Registers, scalar division and the accesses of the S-core to tile memory (R46, R49, R52): the rules of each, and the
proofs of the statements that rest on them. -/
namespace Sys2Proof.Machine

/-! ### Registers (R46) -/

theorem Tile.sreg_setS (c : Tile) (d r : SReg) (w : Word64) :
    (c.setS d w).sreg r = if r = 0 then 0 else if r = d then w else c.sreg r := by
  by_cases hr : r = 0
  · simp only [Tile.sreg, hr, if_true]
  by_cases hd : d = 0
  · have hne : r ≠ d := fun e => hr (e.trans hd)
    rw [Tile.setS, if_pos hd, if_neg hr, if_neg hne]
  simp only [Tile.sreg, Tile.setS, hr, hd, if_false]
  split
  · next e => subst e; exact Vector.getElem_set_self (xs := c.core.s) r.isLt
  · next e =>
    have hne : d.toNat ≠ r.toNat := fun h => e (BitVec.eq_of_toNat_eq h).symm
    exact Vector.getElem_set_ne (xs := c.core.s) d.isLt r.isLt hne

theorem Tile.vreg_setV (c : Tile) (e q : VReg) (x : Vector Word32 32) :
    (c.setV e x).vreg q = if q = e then x else c.vreg q := by
  split
  · next h => subst h; exact Vector.getElem_set_self (xs := c.core.v) q.isLt
  · next h =>
    have hne : e.toNat ≠ q.toNat := fun k => h (BitVec.eq_of_toNat_eq k).symm
    exact Vector.getElem_set_ne (xs := c.core.v) e.isLt q.isLt hne

@[simp] theorem Tile.vreg_setS (c : Tile) (d : SReg) (w : Word64) (q : VReg) : (c.setS d w).vreg q = c.vreg q := by
  unfold Tile.setS; split <;> rfl

@[simp] theorem Tile.sreg_setV (c : Tile) (e : VReg) (x : Vector Word32 32) (r : SReg) : (c.setV e x).sreg r = c.sreg r := rfl

/-- Settles O3: each register file is read at the index that was written, and s0 apart. -/
theorem registersReadWhatWasWritten : Obligations.RegistersReadWhatWasWritten :=
  fun c d r w e q x _ => ⟨c.sreg_setS d r w, c.vreg_setV e q x, c.vreg_setS d w q, c.sreg_setV e x r, rfl, rfl⟩

/-! ### The tile that takes an instruction

`State.taking` is the tile with its stall status cleared; every effect is the same on the tile as it stood. -/

@[simp] theorem Tile.sreg_resume (c : Tile) (r : SReg) : c.resume.sreg r = c.sreg r := rfl
@[simp] theorem Tile.vreg_resume (c : Tile) (q : VReg) : c.resume.vreg q = c.vreg q := rfl

@[simp] theorem Tile.src2_resume (c : Tile) (x : Src2) : c.resume.src2 x = c.src2 x := by cases x <;> rfl

theorem Tile.setS_resume (c : Tile) (d : SReg) (w : Word64) : c.resume.setS d w = (c.setS d w).resume := by
  unfold Tile.setS; split <;> rfl

theorem Tile.setV_resume (c : Tile) (d : VReg) (x : Vector Word32 32) : c.resume.setV d x = (c.setV d x).resume := rfl

theorem Tile.markPage_resume (c : Tile) (p : Nat) : c.resume.markPage p = (c.markPage p).resume := by
  have ha : c.resume.pageAttr p = c.pageAttr p := rfl
  have he : c.resume.entryOf p = c.entryOf p := rfl
  have hp : ∀ n, c.resume.pageEntry n = c.pageEntry n := fun _ => rfl
  simp only [Tile.markPage, ha, he, hp]
  split
  · rfl
  · split
    · split
      · split <;> rfl
      · rfl
    · rfl

theorem Tile.markPages_resume (ps : List Nat) (c : Tile) :
    ps.foldl Tile.markPage c.resume = (ps.foldl Tile.markPage c).resume := by
  induction ps generalizing c with
  | nil => rfl
  | cons p ps ih => rw [List.foldl_cons, List.foldl_cons, Tile.markPage_resume, ih]

theorem Tile.writeData_resume (c : Tile) (off : Nat) (bs : List Byte) :
    c.resume.writeData off bs = (c.writeData off bs).resume := by
  unfold Tile.writeData
  split
  · rfl
  · refine .trans ?_ (Tile.markPages_resume _ _)
    rfl

/-- A tile that waits for no register of a list waits for none of a part of it. -/
theorem State.takes_mono {s : State} {t : Nat} {ss ss' : List SReg} {vs vs' : List VReg} (h : s.takes t ss vs = true)
    (hs : ss' ⊆ ss) (hv : vs' ⊆ vs) : s.takes t ss' vs' = true := by
  simp only [State.takes, Tile.anyPending, Bool.and_eq_true, Bool.not_eq_true', Bool.or_eq_false_iff, List.any_eq_false] at h ⊢
  obtain ⟨hfetch, hscalars, hvectors⟩ := h
  exact ⟨hfetch, fun r hr => hscalars r (hs hr), fun r hr => hvectors r (hv hr)⟩

/-- What an instruction leaves that completes with the tile as `c`, its stall status cleared. -/
theorem issue_done {s : State} {t : Nat} {i : Insn} {c : Tile} (h : s.takes t i.scalars i.vectors = true)
    (hb : i.body s t (s.taking t) = .done c.resume) :
    ∃ s', issue false t i s = .next s' ∧ Issued s s' t c ((s.tile t).core.pc + 1) :=
  ⟨_, by rw [issue_takes h, hb], issued_done (c := c.resume) rfl rfl rfl⟩

@[simp] theorem State.tile_noteFault (s : State) (t u : Nat) (f : TileFault) : (s.noteFault t f).tile u = s.tile u := by
  unfold State.tile; rw [State.noteFault_tiles]

theorem State.noteFault_frame (s : State) (t : Nat) (f : TileFault) :
    s.noteFault t f = { s with step := (s.noteFault t f).step } := by
  unfold State.noteFault; split <;> rfl

theorem State.noteFault_setTile (s : State) (t u : Nat) (x : Tile) (f : TileFault) :
    (s.setTile u x).noteFault t f = (s.noteFault t f).setTile u x := by
  unfold State.noteFault; rw [State.setTile_step]; split <;> rfl

/-- A fault of a core that runs changes its status and its record, where that is free (R79, R86). -/
theorem Tile.recordFault_of_running {c : Tile} (h : c.core.run = .running) (f : TileFault) (pc : Nat) (word : Word64)
    (addr : Nat) :
    c.recordFault f pc word addr = { c with core := { c.core with
      run := .faulted, stallKind := .none, stallRing := 0, held := none
      fault := if c.core.fault.valid then c.core.fault else
        { valid := true, hardware := f.hardware, code := f.code, pc := BitVec.ofNat 13 pc, insn := word
          addr := BitVec.ofNat 64 addr } } } := by
  simp [Tile.recordFault, h]

/-- A body that faults on the tile as it was taken leaves that tile faulted. -/
theorem faulted_settle (s : State) (t : Nat) (f : TileFault) (word : Word64) (addr : Nat) :
    Faulted s (s.settle false t (s.tile t) word (.fault f addr (s.taking t))) t f word addr := by
  obtain ⟨hrings, hleave⟩ := Tile.leaveStall_spec (s.taking t) (s.tile t)
  have hrun : ((s.taking t).leaveStall (s.tile t)).core.run = .running := by rw [hleave]; rfl
  simp only [State.settle, State.tileFault, State.tile_setTile, Tile.recordFault_of_running hrun]
  generalize (s.taking t).leaveStall (s.tile t) = left at hrings hleave
  refine ⟨fun u hu => by simp [hu], ?_, fun r => ?_, ?_⟩
  · rw [State.noteFault_tiles, State.noteFault_setTile, State.noteFault_setTile, State.noteFault_frame s t f]
    rfl
  · rw [State.tile_noteFault, State.tile_setTile]
    exact hrings r
  · rw [State.tile_noteFault, State.tile_setTile, hleave]
    rfl

/-- What an instruction leaves that faults with the tile as it was taken. -/
theorem issue_fault {s : State} {t : Nat} {i : Insn} {f : TileFault} {addr : Nat} (h : s.takes t i.scalars i.vectors = true)
    (hb : i.body s t (s.taking t) = .fault f addr (s.taking t)) :
    ∃ s', issue false t i s = .next s' ∧ Faulted s s' t f i.word addr :=
  ⟨_, by rw [issue_takes h, hb], faulted_settle ..⟩

/-! ### Division (R52) -/

theorem divSigned_zero (a : Word64) : divSigned a 0 = BitVec.allOnes 64 := rfl

theorem divSigned_eq_sdiv (a : Word64) {b : Word64} (h : b ≠ 0) : divSigned a b = a.sdiv b := by
  rw [divSigned, if_neg h]
  exact BitVec.eq_of_toInt_eq ((BitVec.toInt_ofInt _).trans (BitVec.toInt_sdiv a b).symm)

theorem remSigned_eq_srem (a b : Word64) : remSigned a b = a.srem b := by
  unfold remSigned
  split
  · next h => rw [h]; exact BitVec.srem_zero.symm
  · rw [← BitVec.toInt_srem, BitVec.ofInt_toInt]

/-- A scalar operation writes its result. -/
theorem scalarOp_issued {s : State} {t : Nat} {d a : SReg} {x : Src2} (op : BitVec 8)
    (f : Word64 → Word64 → Word64 → Word64) (h : s.takes t (d :: a :: operandRegs x) [] = true) :
    let c := s.tile t
    ∃ s', issue false t (scalarOp op d a x f) s = .next s'
      ∧ Issued s s' t (c.setS d (f (c.sreg a) (c.src2 x) (c.sreg d))) (c.core.pc + 1) :=
  issue_done h (by simp [scalarOp, State.taking, Tile.setS_resume])

/-- Settles O5: away from a zero divisor the quotient and remainder are those of `BitVec.sdiv` and `BitVec.srem`, which round
toward zero and wrap in the one case that overflows. -/
theorem divisionHasDefinedResults : Obligations.DivisionHasDefinedResults := by
  intro s t d a x h c A B
  obtain ⟨s', hdiv, hq⟩ := scalarOp_issued 0x0B (fun a b _ => divSigned a b) h
  obtain ⟨s'', hrem, hr⟩ := scalarOp_issued 0x0C (fun a b _ => remSigned a b) h
  refine ⟨divSigned A B, remSigned A B, s', s'', hdiv, hq, hrem, hr, ?_, ?_, ?_⟩
  · intro hB
    rw [hB]
    exact ⟨divSigned_zero A, (remSigned_eq_srem A 0).trans BitVec.srem_zero⟩
  · rintro ⟨hA, hB⟩
    rw [hA, hB]
    exact ⟨(divSigned_eq_sdiv _ (by decide)).trans BitVec.intMin_sdiv_neg_one, by decide⟩
  · rintro ⟨hB, hover⟩
    rw [divSigned_eq_sdiv A hB, remSigned_eq_srem]
    refine ⟨BitVec.toInt_sdiv_of_ne_or_ne A B ?_, BitVec.toInt_srem A B⟩
    rw [BitVec.neg_one_eq_allOnes]
    exact Decidable.not_and_iff_or_not.mp hover


/-! ### Bytes of words and lanes (R46, R49) -/

theorem getElem?_leBytes (n w k : Nat) : (leBytes n w)[k]? = if k < n then some (BitVec.ofNat 8 (w / 256 ^ k)) else none := by
  induction n generalizing w k with
  | zero => rfl
  | succ n ih =>
    cases k with
    | zero => simp [leBytes]
    | succ k => simp [leBytes, ih, Nat.div_div_eq_div_mul, Nat.pow_succ']

/-- Byte k of a word, as its bits [8k + 7 : 8k]. -/
theorem ofNat_div_eq_shift {v : Nat} (w : BitVec v) (k : Nat) :
    BitVec.ofNat 8 (w.toNat / 256 ^ k) = (w >>> (8 * k)).setWidth 8 := by
  apply BitVec.eq_of_toNat_eq
  rw [BitVec.toNat_ofNat, BitVec.toNat_setWidth, BitVec.toNat_ushiftRight, Nat.shiftRight_eq_div_pow, Nat.pow_mul]

theorem getD_leBytes {v : Nat} (w : BitVec v) {n k : Nat} (h : k < n) :
    (leBytes n w.toNat).getD k 0 = (w >>> (8 * k)).setWidth 8 := by
  rw [List.getD_eq_getElem?_getD, getElem?_leBytes, if_pos h, Option.getD_some, ofNat_div_eq_shift]

/-- An entry of lists of one length in a row. -/
theorem getElem?_flatMap_of_length {α β : Type} {f : α → List β} {m : Nat} (hm : 0 < m) (hf : ∀ a, (f a).length = m)
    (l : List α) (k : Nat) : (l.flatMap f)[k]? = l[k / m]?.bind fun a => (f a)[k % m]? := by
  induction l generalizing k with
  | nil => simp
  | cons a l ih =>
    rw [List.flatMap_cons]
    by_cases hk : k < m
    · rw [List.getElem?_append_left (by rw [hf]; exact hk), Nat.div_eq_of_lt hk, Nat.mod_eq_of_lt hk]
      rfl
    · have hle : m ≤ k := Nat.le_of_not_lt hk
      rw [List.getElem?_append_right (by rw [hf]; exact hle), hf, ih, Nat.div_eq_sub_div hm hle, List.getElem?_cons_succ,
        ← Nat.mod_eq_sub_mod hle]

theorem length_laneBytes (x : Vector Word32 32) : (laneBytes x).length = 128 := by
  have hfour : (fun w : Word32 => (leBytes 4 w.toNat).length) = fun _ => 4 := rfl
  rw [laneBytes, List.length_flatMap, hfour, List.map_const', List.sum_replicate_nat, Vector.length_toList]

theorem getD_laneBytes (x : Vector Word32 32) {k : Nat} (h : k < 128) :
    (laneBytes x).getD k 0 = ((lane x (k / 4)) >>> (8 * (k % 4))).setWidth 8 := by
  have hk : k / 4 < 32 := by omega
  have hlane : x.toList[k / 4]? = some (lane x (k / 4)) := by
    simp [lane, Nat.mod_eq_of_lt hk, hk, Vector.get]
  have hbyte := getElem?_flatMap_of_length (f := fun w : Word32 => leBytes 4 w.toNat) (m := 4) (by decide) (fun _ => rfl)
    x.toList k
  rw [List.getD_eq_getElem?_getD, laneBytes, hbyte, hlane, Option.bind_some, ← List.getD_eq_getElem?_getD,
    getD_leBytes _ (Nat.mod_lt _ (by decide))]

theorem getRun_eq_map {α : Type} (d : α) (m : NMap α) (k n : Nat) :
    NMap.getRun d m k n = (List.range n).map fun j => NMap.get d m (k + j) := by
  induction n generalizing k with
  | zero => rfl
  | succ n ih => simp [NMap.getRun, ih, List.range_succ_eq_map, Nat.add_assoc, Nat.add_comm 1]

/-! ### Accesses of the S-core (R49, R78) -/

/-- A page may be touched at once when it is not backed, or is present (R117). -/
theorem Tile.touchPage_eq_ok_iff (c : Tile) (p : Nat) :
    c.touchPage p = .ok ↔ c.pageAttr p ≠ 2 ∨ ∃ n, c.entryOf p = some n ∧ (c.pageEntry n).state = 3 := by
  unfold Tile.touchPage
  by_cases ha : c.pageAttr p = 2
  · rw [if_neg (by simp [ha])]
    cases c.entryOf p with
    | none => simp [ha]
    | some n =>
      simp only [ha, ne_eq, not_true_eq_false, false_or, Option.some.injEq, exists_eq_left']
      split
      · next h => exact iff_of_true rfl (eq_of_beq h)
      · next h =>
        refine iff_of_false ?_ fun e => h (beq_iff_eq.mpr e)
        repeat' split
        all_goals nofun
  · exact iff_of_true (if_pos (bne_iff_ne.mpr ha)) (.inl ha)

theorem Tile.touchPages_eq_ok_iff (c : Tile) (ps : List Nat) : c.touchPages ps = .ok ↔ ∀ p ∈ ps, c.touchPage p = .ok := by
  induction ps with
  | nil => simp [Tile.touchPages]
  | cons p ps ih =>
    unfold Tile.touchPages
    split
    · next h => simp [h, ih]
    · next h => exact iff_of_false h fun hall => h (hall p List.mem_cons_self)

theorem Tile.touch_resume {c : Tile} {off n : Nat} (h : c.touch off n = .ok) : c.resume.touch off n = .ok := by
  unfold Tile.touch at h ⊢
  split
  · rfl
  · next hn =>
    rw [if_neg hn, Tile.touchPages_eq_ok_iff] at h
    exact (Tile.touchPages_eq_ok_iff _ _).mpr fun p hp =>
      (Tile.touchPage_eq_ok_iff c.resume p).mpr ((Tile.touchPage_eq_ok_iff c p).mp (h p hp))

theorem withAddress_misaligned {c : Tile} {a : Word64} {n : Nat} (w : Bool) (k : Nat → Tile → Issue) (h : a.toNat % n ≠ 0) :
    withAddress c a n w k = .fault .misaligned a.toNat c := by
  rw [withAddress, if_pos h]

theorem withAddress_past_end {c : Tile} {a : Word64} {n : Nat} (w : Bool) (k : Nat → Tile → Issue) (ha : a.toNat % n = 0)
    (h : dataBytes < a.toNat + n) : withAddress c a n w k = .fault .addressRange a.toNat c := by
  rw [withAddress, if_neg (not_not_intro ha), if_pos h]

theorem withAddress_ok {c : Tile} {a : Word64} {n : Nat} (w : Bool) (k : Nat → Tile → Issue) (ha : a.toNat % n = 0)
    (h : a.toNat + n ≤ dataBytes) (ht : c.touch a.toNat n = .ok) : withAddress c a n w k = k a.toNat c := by
  rw [withAddress, if_neg (not_not_intro ha), if_neg (Nat.not_lt.mpr h), ht]

/-- An aligned read of words that have no bit flipped (R127). -/
theorem Tile.readData_clean {c : Tile} {off n : Nat} (k : BitVec 3) (ho : off % 8 = 0) (hn : n % 8 = 0)
    (h : (flipsIn c.mem.eccData (off / 8) (n / 8)).isEmpty = true) :
    c.readData k off n = (c, some ((List.range n).map fun j => NMap.get 0 c.mem.data (off + j))) := by
  have hwords : ceilDiv (off % 8 + n) 8 = n / 8 := by unfold ceilDiv; omega
  have hcheck : c.mem.checkWords false k (off / 8) (n / 8) = (c.mem, true) := TileMem.checkWords_clean h
  rw [Tile.readData, hwords, hcheck, getRun_eq_map]
  rfl

/-- What a load that is in place reads (R49, R128). -/
theorem loadBody_ok {c : Tile} {a : Word64} {n : Nat} (k : List Byte → Tile → Tile) (hn : 8 ∣ n) (ha : a.toNat % n = 0)
    (h : a.toNat + n ≤ dataBytes) (ht : c.touch a.toNat n = .ok)
    (hf : (flipsIn c.mem.eccData (a.toNat / 8) (n / 8)).isEmpty = true) :
    loadBody a n k c = .done (k ((List.range n).map fun j => NMap.get 0 c.mem.data (a.toNat + j)) c) := by
  have hoff : a.toNat % 8 = 0 := Nat.mod_eq_zero_of_dvd (Nat.dvd_trans hn (Nat.dvd_of_mod_eq_zero ha))
  rw [loadBody, withAddress_ok false _ ha h ht, Tile.readData_clean 0 hoff (Nat.mod_eq_zero_of_dvd hn) hf]

theorem storeBody_ok {c : Tile} {a : Word64} {bs : List Byte} (ha : a.toNat % bs.length = 0)
    (h : a.toNat + bs.length ≤ dataBytes) (ht : c.touch a.toNat bs.length = .ok) :
    storeBody a bs c = .done (c.writeData a.toNat bs) := by
  rw [storeBody, withAddress_ok true _ ha h ht]

/-- The answer is that of an access of n bytes at `a` by the tile c. -/
def IsAccess (c : Tile) (a : Word64) (n : Nat) (b : Issue) : Prop := ∃ w k, b = withAddress c a n w k

theorem isAccess_loadBody (c : Tile) (a : Word64) (n : Nat) (k : List Byte → Tile → Tile) :
    IsAccess c a n (loadBody a n k c) := ⟨false, _, rfl⟩

theorem isAccess_storeBody (c : Tile) (a : Word64) {n : Nat} {bs : List Byte} (h : bs.length = n) :
    IsAccess c a n (storeBody a bs c) := by
  subst h; exact ⟨true, _, rfl⟩

/-- The instruction, as tile t issues it, is an access of n bytes of tile memory at `a`. -/
def Accesses (s : State) (t : Nat) (i : Instr) (a : Word64) (n : Nat) : Prop :=
  ∃ j : Insn, exec i s = issue false t j s ∧ s.takes t j.scalars j.vectors = true ∧ j.word = (encodeInsn i).getD 0
    ∧ IsAccess (s.taking t) a n (j.body s t (s.taking t))

/-! Each of the four instructions waits for a part of the registers d, a and v. -/

section
variable {s : State} {t : Nat} {a d : SReg} {v : VReg} (h : s.takes t [d, a] [v] = true) (imm : Word32)
include h

theorem takes_ld : s.takes t (insnLd d a imm).scalars (insnLd d a imm).vectors = true :=
  State.takes_mono h (by simp [insnLd]) (by simp [insnLd])

theorem takes_st : s.takes t (insnSt a d imm).scalars (insnSt a d imm).vectors = true :=
  State.takes_mono h (by simp [insnSt]) (by simp [insnSt])

theorem takes_vld : s.takes t (insnVld v a imm).scalars (insnVld v a imm).vectors = true :=
  State.takes_mono h (by simp [insnVld]) (by simp [insnVld])

theorem takes_vst : s.takes t (insnVst a v imm).scalars (insnVst a v imm).vectors = true :=
  State.takes_mono h (by simp [insnVst]) (by simp [insnVst])

end

/-- LD, ST, VLD and VST are accesses of their size at a + imm. -/
theorem accesses_of_mem {s : State} {t : Nat} {a d : SReg} {v : VReg} {imm : Word32} {n : Nat} (hn : n = 8 ∨ n = 128)
    (h : s.takes t [d, a] [v] = true) {i : Instr}
    (hi : i ∈ (if n = 8 then [.ld t d a imm, .st t a d imm] else [.vld t v a imm, .vst t a v imm] : List Instr)) :
    Accesses s t i ((s.tile t).sreg a + imm.signExtend 64) n := by
  obtain rfl | rfl := hn
  · obtain rfl | rfl : i = .ld t d a imm ∨ i = .st t a d imm := by simpa using hi
    · exact ⟨insnLd d a imm, rfl, takes_ld h imm, rfl, isAccess_loadBody ..⟩
    · exact ⟨insnSt a d imm, rfl, takes_st h imm, rfl, isAccess_storeBody _ _ rfl⟩
  · obtain rfl | rfl : i = .vld t v a imm ∨ i = .vst t a v imm := by simpa using hi
    · exact ⟨insnVld v a imm, rfl, takes_vld h imm, rfl, isAccess_loadBody ..⟩
    · exact ⟨insnVst a v imm, rfl, takes_vst h imm, rfl,
        isAccess_storeBody _ _ (length_laneBytes _)⟩

theorem Accesses.misaligned {s : State} {t : Nat} {i : Instr} {a : Word64} {n : Nat} (h : Accesses s t i a n)
    (ha : a.toNat % n ≠ 0) : ∃ s', exec i s = .next s' ∧ Faulted s s' t .misaligned ((encodeInsn i).getD 0) a.toNat := by
  obtain ⟨j, hexec, htakes, hword, w, k, hbody⟩ := h
  rw [hexec, ← hword]
  exact issue_fault htakes (hbody.trans (withAddress_misaligned w k ha))

theorem Accesses.past_end {s : State} {t : Nat} {i : Instr} {a : Word64} {n : Nat} (h : Accesses s t i a n)
    (ha : a.toNat % n = 0) (hend : dataBytes < a.toNat + n) :
    ∃ s', exec i s = .next s' ∧ Faulted s s' t .addressRange ((encodeInsn i).getD 0) a.toNat := by
  obtain ⟨j, hexec, htakes, hword, w, k, hbody⟩ := h
  rw [hexec, ← hword]
  exact issue_fault htakes (hbody.trans (withAddress_past_end w k ha hend))

/-- An issued instruction leaves the data memory that its effect gives. -/
theorem Issued.dataByte {s s' : State} {t : Nat} {c : Tile} {pc : Nat} (h : Issued s s' t c pc) (a : Nat) :
    s'.dataByte t a = NMap.get 0 c.mem.data a := by
  obtain ⟨-, -, htile⟩ := h
  rw [State.dataByte, htile]

/-- An instruction that leaves the data memory as it was keeps every byte. -/
theorem Issued.dataKept {s s' : State} {t : Nat} {c : Tile} {pc : Nat} (h : Issued s s' t c pc)
    (hm : c.mem = (s.tile t).mem) : DataKept s s' t 0 0 := fun a _ => by
  rw [h.dataByte, hm, State.dataByte]

/-- A store keeps every byte outside its run, and each byte of the run reads as written. -/
theorem Issued.dataWritten {s s' : State} {t off pc : Nat} {bs : List Byte}
    (h : Issued s s' t ((s.tile t).writeData off bs) pc) :
    DataKept s s' t off bs.length ∧ ∀ k, k < bs.length → s'.dataByte t (off + k) = bs.getD k 0 := by
  refine ⟨fun a ha => ?_, fun k hk => ?_⟩
  · rw [h.dataByte, Tile.byte_writeData, if_neg (by omega), State.dataByte]
  · rw [h.dataByte, Tile.byte_writeData, if_pos (by omega), Nat.add_sub_cancel_left]

/-- The n bytes at `a` can be moved at once: aligned, inside the memory, and their pages ready. -/
def Reaches (c : Tile) (a : Word64) (n : Nat) : Prop :=
  a.toNat % n = 0 ∧ a.toNat + n ≤ dataBytes ∧ c.touch a.toNat n = .ok

/-- A load that reaches clean words completes with what its continuation makes of the bytes. -/
theorem load_issued {s : State} {t : Nat} {i : Insn} {a : Word64} {n : Nat} {k : List Byte → Tile → Tile}
    (h : s.takes t i.scalars i.vectors = true) (hb : i.body s t (s.taking t) = loadBody a n k (s.taking t)) (hn : 8 ∣ n)
    (hr : Reaches (s.tile t) a n) (hf : (flipsIn (s.tile t).mem.eccData (a.toNat / 8) (n / 8)).isEmpty = true)
    (hk : ∀ bs, k bs (s.taking t) = (k bs (s.tile t)).resume) (hm : ∀ bs, (k bs (s.tile t)).mem = (s.tile t).mem) :
    ∃ s', issue false t i s = .next s' ∧ DataKept s s' t 0 0
      ∧ Issued s s' t (k ((List.range n).map fun j => s.dataByte t (a.toNat + j)) (s.tile t)) ((s.tile t).core.pc + 1) := by
  obtain ⟨hal, hend, htouch⟩ := hr
  have hread := loadBody_ok (c := s.taking t) k hn hal hend (Tile.touch_resume htouch) hf
  obtain ⟨s', hnext, hissued⟩ := issue_done h (hb.trans (hread.trans (congrArg _ (hk _))))
  exact ⟨s', hnext, hissued.dataKept (hm _), hissued⟩

/-- A store that reaches its place completes with its bytes written there, and no others. -/
theorem store_issued {s : State} {t : Nat} {i : Insn} {a : Word64} {n : Nat} {bs : List Byte}
    (h : s.takes t i.scalars i.vectors = true) (hb : i.body s t (s.taking t) = storeBody a bs (s.taking t))
    (hn : bs.length = n) (hr : Reaches (s.tile t) a n) :
    ∃ s', issue false t i s = .next s' ∧ DataKept s s' t a.toNat n
      ∧ (∀ k, k < n → s'.dataByte t (a.toNat + k) = bs.getD k 0)
      ∧ Issued s s' t ((s.tile t).writeData a.toNat bs) ((s.tile t).core.pc + 1) := by
  subst hn
  obtain ⟨hal, hend, htouch⟩ := hr
  have hwrite := storeBody_ok (c := s.taking t) hal hend (Tile.touch_resume htouch)
  obtain ⟨s', hnext, hissued⟩ := issue_done h (hb.trans (hwrite.trans (congrArg _ (Tile.writeData_resume ..))))
  obtain ⟨hkept, hbytes⟩ := hissued.dataWritten
  exact ⟨s', hnext, hkept, hbytes, hissued⟩

section
variable {s : State} {t : Nat} {a d : SReg} {v : VReg} {imm : Word32} (h : s.takes t [d, a] [v] = true)
include h

theorem ld_reads (hr : Reaches (s.tile t) ((s.tile t).sreg a + imm.signExtend 64) 8)
    (hf : (flipsIn (s.tile t).mem.eccData (((s.tile t).sreg a + imm.signExtend 64).toNat / 8) (8 / 8)).isEmpty = true) :
    let c := s.tile t
    let off := (c.sreg a + imm.signExtend 64).toNat
    ∃ s', exec (.ld t d a imm) s = .next s' ∧ DataKept s s' t 0 0
      ∧ Issued s s' t (c.setS d (BitVec.ofNat 64 (leNat ((List.range 8).map fun k => s.dataByte t (off + k)))))
          (c.core.pc + 1) :=
  load_issued (k := fun bs c => c.setS d (BitVec.ofNat 64 (leNat bs))) (takes_ld h imm) rfl (by decide) hr hf
    (fun _ => Tile.setS_resume ..) (fun _ => Tile.setS_mem ..)

theorem vld_reads (hr : Reaches (s.tile t) ((s.tile t).sreg a + imm.signExtend 64) 128)
    (hf : (flipsIn (s.tile t).mem.eccData (((s.tile t).sreg a + imm.signExtend 64).toNat / 8) (128 / 8)).isEmpty = true) :
    let c := s.tile t
    let off := (c.sreg a + imm.signExtend 64).toNat
    ∃ s', exec (.vld t v a imm) s = .next s' ∧ DataKept s s' t 0 0
      ∧ Issued s s' t (c.setV v (bytesLanes ((List.range 128).map fun k => s.dataByte t (off + k)))) (c.core.pc + 1) :=
  load_issued (k := fun bs c => c.setV v (bytesLanes bs)) (takes_vld h imm) rfl (by decide) hr hf
    (fun _ => Tile.setV_resume ..) (fun _ => Tile.setV_mem ..)

theorem st_writes (hr : Reaches (s.tile t) ((s.tile t).sreg a + imm.signExtend 64) 8) :
    let c := s.tile t
    let off := (c.sreg a + imm.signExtend 64).toNat
    ∃ s', exec (.st t a d imm) s = .next s' ∧ DataKept s s' t off 8
      ∧ (∀ k, k < 8 → s'.dataByte t (off + k) = ((c.sreg d) >>> (8 * k)).setWidth 8)
      ∧ Issued s s' t (c.writeData off (leBytes 8 (c.sreg d).toNat)) (c.core.pc + 1) := by
  obtain ⟨s', hnext, hkept, hbytes, hissued⟩ :=
    store_issued (bs := leBytes 8 ((s.tile t).sreg d).toNat) (takes_st h imm) rfl rfl hr
  exact ⟨s', hnext, hkept, fun k hk => (hbytes k hk).trans (getD_leBytes _ hk), hissued⟩

theorem vst_writes (hr : Reaches (s.tile t) ((s.tile t).sreg a + imm.signExtend 64) 128) :
    let c := s.tile t
    let off := (c.sreg a + imm.signExtend 64).toNat
    ∃ s', exec (.vst t a v imm) s = .next s' ∧ DataKept s s' t off 128
      ∧ (∀ k, k < 128 → s'.dataByte t (off + k) = ((lane (c.vreg v) (k / 4)) >>> (8 * (k % 4))).setWidth 8)
      ∧ Issued s s' t (c.writeData off (laneBytes (c.vreg v))) (c.core.pc + 1) := by
  obtain ⟨s', hnext, hkept, hbytes, hissued⟩ :=
    store_issued (bs := laneBytes ((s.tile t).vreg v)) (takes_vst h imm) rfl (length_laneBytes _) hr
  exact ⟨s', hnext, hkept, fun k hk => (hbytes k hk).trans (getD_laneBytes _ hk), hissued⟩

end

/-- Settles O9: each of the four instructions is an access of its size, which faults before it moves anything, or else reads or
writes exactly the bytes of its place. -/
theorem loadsAndStoresReachTheirBytes : Obligations.LoadsAndStoresReachTheirBytes := by
  intro s t a d v imm n hn h c at' both
  refine ⟨fun i hi hmis => (accesses_of_mem hn h hi).misaligned hmis,
    fun i hi hal hend => (accesses_of_mem hn h hi).past_end hal hend, fun hal hend htouch hclean => ?_⟩
  have hr : Reaches c (c.sreg a + imm.signExtend 64) n := ⟨hal, hend, htouch⟩
  refine ⟨?_, ?_, ?_, ?_⟩ <;> rintro rfl
  · exact ld_reads h hr hclean
  · exact vld_reads h hr hclean
  · exact st_writes h hr
  · exact vst_writes h hr

end Sys2Proof.Machine
end

section
/-! SUPPORT. What the operations of the model leave of the root of trust: a rule per operation, in the order of the definitions.
Most leave the record `sec` whole; those that write it leave its rollback counter. Only `Security.rollbackCheck` moves the
counter (R538). Where an operation accesses main memory, a proof may first put a name in the place of that access
(`exists_eq'`), so that no check of the proof evaluates it. -/
namespace Sys2Proof.Machine

/-! ### Shapes that many operations share -/

theorem foldl_sec {α : Type} {f : State → α → State} (h : ∀ s a, (f s a).sec = s.sec) (l : List α) (s : State) :
    (l.foldl f s).sec = s.sec := by
  induction l generalizing s with
  | nil => rfl
  | cons a l ih => rw [List.foldl_cons, ih, h]

@[simp] theorem ite_sec (c : Prop) [Decidable c] (a b : State) : (if c then a else b).sec = if c then a.sec else b.sec :=
  apply_ite ..

theorem sec_of_eq {α : Type} {p : State × α} {s : State} {a : α} (h : p = (s, a)) : s.sec = p.1.sec := by rw [h]

theorem Security.setBank_counter (x : Security) (south : Bool) (b : List Byte) :
    (x.setBank south b).counter = x.counter := by
  cases south <;> rfl

theorem Security.afterReset_counter (x : Security) (b : Bool) : (x.afterReset b).counter = x.counter := by
  cases b <;> rfl

/-! ### Ops -/

@[simp] theorem State.free_sec (s : State) : s.free.2.sec = s.sec := by simp [State.free]

@[simp] theorem State.freeBytes_sec (s : State) (n : Nat) : (s.freeBytes n).2.sec = s.sec := by
  induction n generalizing s with
  | zero => rfl
  | succ n ih => simp [State.freeBytes, ih]

@[simp] theorem State.tileFault_sec (s : State) (t : Nat) (f : TileFault) (pc : Nat) (insn : Word64) (addr : Nat) :
    (s.tileFault t f pc insn addr).sec = s.sec := by
  simp [State.tileFault]

@[simp] theorem State.settle_sec (s : State) (single : Bool) (t : Nat) (old : Tile) (word : Word64) (a : Issue) :
    (s.settle single t old word a).sec = s.sec := by
  simp only [State.settle]
  split <;> simp

/-! ### Clock -/

@[simp] theorem State.noteDivided_sec (s : State) (b : Nat) : (s.noteDivided b).sec = s.sec := by
  simp [State.noteDivided]

@[simp] theorem State.noteAllDivided_sec (s : State) : s.noteAllDivided.sec = s.sec := by
  simp [State.noteAllDivided, foldl_sec]

/-! ### Events -/

@[simp] theorem State.hostFailed_sec (s : State) (e : HostFault) : (s.hostFailed e).sec = s.sec := by
  simp [State.hostFailed]

@[simp] theorem State.stamp_sec (s : State) (bit block : Nat) (raw : List Byte) :
    (s.stamp bit block raw).sec = s.sec := by
  simp [State.stamp]

/-! ### MemOps -/

@[simp] theorem State.upsetLine_sec (s : State) (l : Nat) (fs : List Nat) : (s.upsetLine l fs).sec = s.sec := by
  simp [State.upsetLine]

@[simp] theorem State.serveLine_sec (s : State) (consumer : BitVec 4) (l : Nat) (c : LineCheck) :
    (s.serveLine consumer l c).1.sec = s.sec := by
  simp only [State.serveLine]
  grind [State.memError_sec, State.upsetLine_sec]

@[simp] theorem State.fetchChecks_sec (s : State) (a n : Nat) (write : Bool) :
    (s.fetchChecks a n write).sec = s.sec := by
  simp [State.fetchChecks]

@[simp] theorem State.takeLine_sec (s : State) (consumer : BitVec 4) (l : Nat) :
    (s.takeLine consumer l).1.sec = s.sec := by
  simp only [State.takeLine]
  split <;> simp

@[simp] theorem readPieces_sec (consumer : BitVec 4) (ps : List (Nat × Nat × Nat)) (s : State) (acc : List Byte) :
    (readPieces consumer ps s acc).1.sec = s.sec := by
  induction ps generalizing s acc with
  | nil => rfl
  | cons p ps ih =>
    rw [readPieces]
    split <;> simp [ih, sec_of_eq ‹_ = (_, _)›]

@[simp] theorem State.mainRead_sec (s : State) (consumer : BitVec 4) (a n : Nat) :
    (s.mainRead consumer a n).1.sec = s.sec := by
  simp only [State.mainRead]
  grind [State.fetchChecks_sec, readPieces_sec]

@[simp] theorem State.mergePiece_sec (s : State) (consumer : BitVec 4) (lo : Nat) (piece : List Byte) :
    (s.mergePiece consumer lo piece).1.sec = s.sec := by
  simp only [State.mergePiece]
  grind [State.takeLine_sec, State.writePiece_sec]

@[simp] theorem writeLines_sec (consumer : BitVec 4) (bs : List Byte) (ps : List (Nat × Nat × Nat)) (s : State) :
    (writeLines consumer bs ps s).1.sec = s.sec := by
  induction ps generalizing s with
  | nil => rfl
  | cons p ps ih =>
    simp only [writeLines]
    split
    · split <;> simp [ih, sec_of_eq ‹_ = (_, _)›]
    · simp [ih]

@[simp] theorem State.mainWrite_sec (s : State) (a : Nat) (bs : List Byte) : (s.mainWrite a bs).1.sec = s.sec := by
  simp only [State.mainWrite]
  grind [State.fetchChecks_sec, writeLines_sec]

@[simp] theorem State.mainPut_sec (s : State) (a : Nat) (bs : List Byte) : (s.mainPut a bs).sec = s.sec := by
  simp [State.mainPut]

/-! ### LinkTx -/

@[simp] theorem State.pumpRoad_sec (s : State) (p : Nat) : (s.pumpRoad p).sec = s.sec := by simp [State.pumpRoad]

@[simp] theorem State.replyRoad_sec (s : State) (p : Nat) (answers : Bool) : (s.replyRoad p answers).sec = s.sec := by
  simp [State.replyRoad]

@[simp] theorem State.sendOnRoad_sec (s : State) (p vc : Nat) (k : LinkPacket) :
    (s.sendOnRoad p vc k).sec = s.sec := by
  simp [State.sendOnRoad]

@[simp] theorem State.emit_sec (s : State) (e : Nat) (f : Option EthFrame) : (s.emit e f).sec = s.sec := by
  simp [State.emit]

@[simp] theorem State.pumpCtx_sec (s : State) (i : Nat) : (s.pumpCtx i).sec = s.sec := by simp [State.pumpCtx]

@[simp] theorem State.sendVia_sec (s : State) (i vc : Nat) (k : LinkPacket) : (s.sendVia i vc k).sec = s.sec := by
  simp [State.sendVia]

@[simp] theorem State.dropFrame_sec (s : State) : s.dropFrame.sec = s.sec := by simp [State.dropFrame]

@[simp] theorem State.sendAllVia_sec (s : State) (i vc : Nat) (ks : List LinkPacket) :
    (s.sendAllVia i vc ks).sec = s.sec := by
  simp [State.sendAllVia, foldl_sec]

@[simp] theorem State.dropDrainData_sec (s : State) (i : Nat) : (s.dropDrainData i).sec = s.sec := by
  simp [State.dropDrainData]

@[simp] theorem State.sendControl_sec (s : State) (i kind tile : Nat) (unit : List Byte) :
    (s.sendControl i kind tile unit).sec = s.sec := by
  simp [State.sendControl]

@[simp] theorem State.answerRemote_sec (s : State) (rank tile seq : Nat) (code : Option Nat) :
    (s.answerRemote rank tile seq code).sec = s.sec := by
  simp only [State.answerRemote]
  split <;> simp

/-! ### BellCond -/

@[simp] theorem State.noteMet_sec (s : State) (t : Nat) : (s.noteMet t).sec = s.sec := by
  simp [State.noteMet, foldl_sec]

/-! ### Random -/

@[simp] theorem State.checkArmed_sec (s : State) : s.checkArmed.sec = s.sec := by simp [State.checkArmed]

/-! ### MatrixEngine -/

@[simp] theorem State.mxFault_sec (s : State) (t : Nat) (i : MxItem) (f : TileFault) (addr : Nat) :
    (s.mxFault t i f addr).sec = s.sec := by
  simp [State.mxFault]

@[simp] theorem dispatchDrain_sec (s : State) (t : Nat) (c : Tile) (i : MxItem) (rest : List MxItem) :
    (dispatchDrain s t c i rest).sec = s.sec := by
  simp only [dispatchDrain]
  split <;> simp

@[simp] theorem dispatchSlab_sec (s : State) (t : Nat) (c : Tile) (i : MxItem) (rest : List MxItem) :
    (dispatchSlab s t c i rest).sec = s.sec := by
  simp only [dispatchSlab]
  grind [State.mxFault_sec, State.setTile_sec]

@[simp] theorem matrixDispatch_sec (s : State) (t : Nat) : (matrixDispatch s t).sec = s.sec := by
  simp only [matrixDispatch]
  grind [State.setTile_sec, dispatchDrain_sec, dispatchSlab_sec]

@[simp] theorem heldLoadDone_sec (s : State) (t : Nat) : (heldLoadDone s t).sec = s.sec := by
  simp only [heldLoadDone]
  grind [State.mxFault_sec, State.setTile_sec]

@[simp] theorem mepiInstall_sec (s : State) (t : Nat) : (mepiInstall s t).sec = s.sec := by
  simp only [mepiInstall]
  grind [State.mxFault_sec, State.setTile_sec]

@[simp] theorem mmulComplete_sec (s : State) (t : Nat) : (mmulComplete s t).sec = s.sec := by
  simp only [mmulComplete]
  grind [State.mxFault_sec, State.setTile_sec]

@[simp] theorem mslbComplete_sec (s : State) (t : Nat) : (mslbComplete s t).sec = s.sec := by
  simp only [mslbComplete]
  repeat' split
  all_goals simp

@[simp] theorem maccComplete_sec (s : State) (t : Nat) : (maccComplete s t).sec = s.sec := by
  simp only [maccComplete]
  grind [State.mxFault_sec, State.setTile_sec]

@[simp] theorem mclrComplete_sec (s : State) (t : Nat) : (mclrComplete s t).sec = s.sec := by
  simp only [mclrComplete]
  split <;> simp

@[simp] theorem drainCompute_sec (s : State) (t : Nat) (c : Tile) (i : MxItem) (sl : EpiSlot) (f : Format) :
    (drainCompute s t c i sl f).1.sec = s.sec := by
  simp only [drainCompute]
  grind [State.mxFault_sec, State.setTile_sec]

@[simp] theorem drainUnitWrite_sec (s : State) (t u : Nat) : (drainUnitWrite s t u).sec = s.sec := by
  simp only [drainUnitWrite]
  grind [State.setTile_sec, drainCompute_sec]

@[simp] theorem mdrnComplete_sec (s : State) (t : Nat) : (mdrnComplete s t).sec = s.sec := by
  simp only [mdrnComplete]
  grind [State.mxFault_sec, State.setTile_sec]

@[simp] theorem mflgComplete_sec (s : State) (t : Nat) : (mflgComplete s t).sec = s.sec := by
  simp only [mflgComplete]
  split <;> simp

/-! ### Mover -/

@[simp] theorem State.mvRead_sec (s : State) (h : HostReply) (x : Span) : (s.mvRead h x).1.sec = s.sec := by
  simp only [State.mvRead]
  grind [State.hostFailed_sec, State.mainRead_sec, State.setTile_sec]

@[simp] theorem State.mvReads_sec (h : HostReply) (xs : List Span) (s : State) : (State.mvReads h xs s).1.sec = s.sec := by
  induction xs generalizing s with
  | nil => rfl
  | cons x xs ih =>
    rw [State.mvReads]
    split <;> simp [ih, sec_of_eq ‹_ = (_, _)›]

@[simp] theorem State.awaitPage_sec (s : State) (u p : Nat) : (s.awaitPage u p).sec = s.sec := by
  simp only [State.awaitPage]
  split <;> simp

@[simp] theorem planCopy_sec (s : State) (t : Nat) (h : HostReply) (d : Desc) (i : MvItem) :
    (planCopy s t h d i).1.sec = s.sec := by
  simp [planCopy]

@[simp] theorem planInterleave_sec (s : State) (h : HostReply) (d : Desc) (x : Interleave) :
    (planInterleave s h d x).1.sec = s.sec := by
  simp only [planInterleave]
  split <;> simp

@[simp] theorem planTranspose_sec (s : State) (h : HostReply) (d : Desc) (x : Transpose) :
    (planTranspose s h d x).1.sec = s.sec := by
  simp only [planTranspose]
  split <;> simp

@[simp] theorem planConvert_sec (s : State) (t : Nat) (h : HostReply) (d : Desc) (i : MvItem) (x : Convert)
    (scale : Word32) : (planConvert s t h d i x scale).1.sec = s.sec := by
  simp [planConvert]

@[simp] theorem planEncode_sec (s : State) (t : Nat) (h : HostReply) (d : Desc) (i : MvItem) (x : SlabBlock) :
    (planEncode s t h d i x).1.sec = s.sec := by
  simp [planEncode]

@[simp] theorem decodeActs_sec (h : HostReply) (d : Desc) (x : SlabBlock) (n j units : Nat) (s : State) :
    (decodeActs h d x n j units s).1.sec = s.sec := by
  induction n generalizing j units s with
  | zero => rfl
  | succ n ih =>
    simp only [decodeActs]
    split
    next he => simp [sec_of_eq he]
    next he =>
      split
      next hm => simp [sec_of_eq hm, sec_of_eq he]
      next hm =>
        have hs := (sec_of_eq hm).trans (.trans (State.mvRead_sec ..) ((sec_of_eq he).trans (State.mvRead_sec ..)))
        split
        · simpa using hs
        · split <;> simp [ih, hs]

@[simp] theorem planGather_sec (s : State) (t : Nat) (h : HostReply) (d : Desc) (x : Rows) :
    (planGather s t h d x).1.sec = s.sec := by
  simp only [planGather]
  grind [State.mvRead_sec, State.mvReads_sec]

@[simp] theorem planScatter_sec (s : State) (t : Nat) (h : HostReply) (d : Desc) (i : MvItem) (x : Rows) :
    (planScatter s t h d i x).1.sec = s.sec := by
  simp only [planScatter]
  grind [State.mvRead_sec, State.mvReads_sec]

@[simp] theorem planWork_sec (s : State) (t : Nat) (h : HostReply) (r : MvRun) :
    (planWork s t h r).1.sec = s.sec := by
  simp only [planWork]
  split <;> simp

@[simp] theorem moverStart_sec (s : State) (t : Nat) : (moverStart s t).sec = s.sec := by
  unfold moverStart
  extract_lets c
  split
  · split
    · rfl
    extract_lets +onlyGivenNames d into
    have hinto : ∀ s r, (into s r).sec = s.sec := fun _ _ => by simp [into]
    clear_value into
    split
    · exact hinto ..
    split
    · exact hinto ..
    split
    · exact hinto ..
    split
    · exact hinto ..
    split
    next h => rw [hinto, sec_of_eq h, State.mvRead_sec]
    next h => rw [State.modTile_sec, State.awaitPage_sec, sec_of_eq h, State.mvRead_sec]
    next h => rw [hinto, sec_of_eq h, State.mvRead_sec]
  · rfl

@[simp] theorem State.runAwaits_sec (s : State) (t slot : Nat) (page : Option (Nat × Bool × Nat)) :
    (s.runAwaits t slot page).sec = s.sec := by
  simp [State.runAwaits]

/-- The state a write leaves. -/
def Wrote.state : Wrote → State
  | .done s | .wait s _ | .fail _ s => s

theorem wroteMain_sec (p : State × MemAns) : (wroteMain p).state.sec = p.1.sec := by
  obtain ⟨s, _ | _ | _ | _⟩ := p <;> rfl

theorem State.writeTile_sec (s : State) (u off : Nat) (bs : List Byte) :
    (s.writeTile u off bs).state.sec = s.sec := by
  unfold State.writeTile
  split
  · rfl
  split
  · rfl
  split <;> simp [Wrote.state]

theorem State.writeDev_sec (s : State) (t slot a : Nat) (bs : List Byte) :
    (s.writeDev t slot a bs).state.sec = s.sec := by
  unfold State.writeDev
  split
  · exact (wroteMain_sec _).trans (State.mainWrite_sec ..)
  · split
    · rfl
    · exact (wroteMain_sec _).trans (State.mainWrite_sec ..)
  · exact State.writeTile_sec ..
  · rfl

theorem mvPut_sec (s : State) (t slot : Nat) (h : HostReply) (r : MvRun) (bs : List Byte) (x : MvDest) :
    (mvPut s t slot h r bs x).state.sec = s.sec := by
  cases x with
  | ring =>
    simp only [mvPut]
    split
    · rfl
    split <;> simp [Wrote.state]
  | dev a => exact State.writeDev_sec ..
  | host a =>
    simp only [mvPut]
    split <;> rfl
  | own off => exact State.writeTile_sec ..
  | mapBit a host i v =>
    simp only [mvPut]
    split
    next he => simp [Wrote.state, sec_of_eq he]
    next he => simp [Wrote.state, sec_of_eq he]
    next he =>
      have hs := (sec_of_eq he).trans (State.mvRead_sec ..)
      split
      · exact hs
      split
      · split
        · exact hs
        · exact (State.writeDev_sec ..).trans hs
      · exact (State.writeDev_sec ..).trans hs

@[simp] theorem moverAct_sec (s : State) (t slot : Nat) (h : HostReply) (r : MvRun) (l : List MvAct) :
    (moverAct s t slot h r l).sec = s.sec := by
  unfold moverAct
  split
  · rfl
  · simp
  next dest bs result _ =>
    have hput := mvPut_sec s t slot h r bs dest
    split <;> next he => simpa [he, Wrote.state] using hput

@[simp] theorem State.pageEnd_sec (s : State) (t slot : Nat) (r : MvRun) (code : Option (BitVec 8)) (units : Nat) :
    (s.pageEnd t slot r code units).sec = s.sec := by
  simp [State.pageEnd]

@[simp] theorem pageBegin_sec (s : State) (t slot : Nat) (r : MvRun) : (pageBegin s t slot r).sec = s.sec := by
  simp [pageBegin]

@[simp] theorem pageFill_sec (s : State) (t n : Nat) : (pageFill s t n).1.sec = s.sec := by
  have hread := State.mainRead_sec
  obtain ⟨read, hr⟩ := exists_eq' (a' := @State.mainRead)
  rw [hr] at hread
  rw [show pageFill = _ by delta pageFill; rw [hr]]
  extract_lets e bad
  split <;> simp [bad, sec_of_eq ‹_ = (_, _)›, hread]

@[simp] theorem pageBack_sec (s : State) (t n : Nat) : (pageBack s t n).1.sec = s.sec := by
  unfold pageBack
  extract_lets e bad
  have hbad : ∀ s k, (bad s k).1.sec = s.sec := fun _ _ => by simp [bad]
  clear_value bad
  split
  next h => rw [hbad, State.setTile_sec]
  next c bs h =>
    have hput : (wroteMain ((s.setTile t c).mainWrite (e.home.toNat * pageBytes) bs)).state.sec = s.sec :=
      (wroteMain_sec _).trans ((State.mainWrite_sec ..).trans (State.setTile_sec ..))
    generalize wroteMain ((s.setTile t c).mainWrite (e.home.toNat * pageBytes) bs) = w at hput
    cases w with
    | done s₁ => exact hput
    | wait s₁ p => exact hput
    | fail k s₁ => exact (hbad ..).trans hput

@[simp] theorem State.failWaits_sec (s : State) (u page : Nat) (k : BitVec 8) :
    (s.failWaits u page k).sec = s.sec := by
  simp [State.failWaits]

@[simp] theorem pageOpDone_sec (s : State) (t slot : Nat) (r : MvRun) : (pageOpDone s t slot r).sec = s.sec := by
  simp only [pageOpDone]
  grind [State.failWaits_sec, State.modTile_sec, State.pageEnd_sec, pageBack_sec, pageFill_sec]

@[simp] theorem pageFillComplete_sec (s : State) (t : Nat) : (pageFillComplete s t).sec = s.sec := by
  have hfill := pageFill_sec
  obtain ⟨fill, hf⟩ := exists_eq' (a' := pageFill)
  rw [hf] at hfill
  unfold pageFillComplete
  rw [hf]
  extract_lets c
  split
  · split <;> simp [sec_of_eq ‹_ = (_, _)›, hfill]
  · split
    · split <;> simp
    · rfl

@[simp] theorem moverUnit_sec (s : State) (t slot : Nat) (h : HostReply) : (moverUnit s t slot h).sec = s.sec := by
  simp only [moverUnit]
  grind [State.awaitPage_sec, State.modTile_sec, State.runAwaits_sec, moverAct_sec, pageBegin_sec, planWork_sec]

@[simp] theorem State.mvEnded_sec (s : State) (t : Nat) (d : Desc) (code : BitVec 8) :
    (s.mvEnded t d code).sec = s.sec := by
  simp [State.mvEnded]

@[simp] theorem moverComplete_sec (s : State) (t slot : Nat) (h : HostReply) :
    (moverComplete s t slot h).sec = s.sec := by
  simp only [moverComplete]
  repeat' split
  all_goals simp

@[simp] theorem State.moverAbort_sec (s : State) (t : Nat) : (s.moverAbort t).sec = s.sec := by
  simp [State.moverAbort, foldl_sec]

/-! ### Send -/

@[simp] theorem State.sendPageFault_sec (s : State) (t : Nat) (i : SdItem) (off : Nat) :
    (s.sendPageFault t i off).sec = s.sec := by
  simp [State.sendPageFault]

@[simp] theorem startRemote_sec (s : State) (t : Nat) (i : SdItem) (k : Nat) : (startRemote s t i k).sec = s.sec := by
  unfold startRemote
  repeat' split
  all_goals simp [foldl_sec]

@[simp] theorem State.inject_sec (s : State) (t : Nat) (i : SdItem) : (s.inject t i).sec = s.sec := by
  simp only [State.inject]
  grind [State.setTile_sec]

@[simp] theorem startSend_sec (s : State) (t : Nat) (i : SdItem) : (startSend s t i).sec = s.sec := by
  simp only [startSend]
  split <;> simp

@[simp] theorem sendStart_sec (s : State) (t : Nat) : (sendStart s t).sec = s.sec := by
  unfold sendStart
  repeat' split
  all_goals simp [foldl_sec]

@[simp] theorem State.countMarker_sec (s : State) (u g n : Nat) : (s.countMarker u g n).sec = s.sec := by
  simp [State.countMarker]

@[simp] theorem State.noteSource_sec (s : State) (u : Nat) (r : RingNo) (step : Nat × Nat) (source : Nat) :
    (s.noteSource u r step source).sec = s.sec := by
  simp [State.noteSource]

@[simp] theorem State.answerSend_sec (s : State) (t id u : Nat) (code : Option (BitVec 3)) :
    (s.answerSend t id u code).sec = s.sec := by
  simp [State.answerSend]

theorem State.land_sec {s s' : State} {u : Nat} {h : HaulHead} {step : Nat × Nat} {source : Nat} {more : Bool}
    {bs : List Byte}
    (hl : s.land u h step source more bs = .landed s' ∨ s.land u h step source more bs = .full s') :
    s'.sec = s.sec := by
  unfold State.land at hl
  extract_lets r c at hl
  split at hl
  · simp at hl
  split at hl
  · simp at hl
  split at hl
  · simp at hl
    simp [← hl]
  · simp at hl
    simp [← hl]

@[simp] theorem deliverLocal_sec (s : State) (t id u : Nat) : (deliverLocal s t id u).sec = s.sec := by
  unfold deliverLocal
  split
  · split
    · extract_lets +onlyGivenNames k h skip stopped
      split
      · rfl
      split
      · simp
      split
      · simp
      split
      · rfl
      split
      · split <;> simp
      split
      · rfl
      split
      · simp
      split
      · simp
      · simp
      · simp
      · extract_lets more
        split
        next hl =>
          have hs := (State.land_sec (.inl hl)).trans (State.setTile_sec ..)
          simp [hs]
        · rfl
    · rfl
  · rfl

@[simp] theorem State.freeInbound_sec (s : State) (k : Nat) (x : Inbound) : (s.freeInbound k x).sec = s.sec := by
  simp [State.freeInbound]

@[simp] theorem State.answerInbound_sec (s : State) (h : PktHeader) (code : Option Nat) :
    (s.answerInbound h code).sec = s.sec := by
  simp [State.answerInbound]

@[simp] theorem deliverLink_sec (s : State) (k u : Nat) : (deliverLink s k u).sec = s.sec := by
  unfold deliverLink
  split
  · extract_lets h r
    split
    · rfl
    next side index s₁ _ =>
    clear_value side index
    split
    · simp
    split
    · rfl
    split
    · simp
    · simp only [State.answerInbound_sec, State.freeInbound_sec, s₁]
      split <;> simp
    next hl => exact State.land_sec (.inr hl)
    next hl =>
      have hs := State.land_sec (.inl hl)
      split
      · exact hs
      · simp [hs]
  · rfl

@[simp] theorem State.recordSend_sec (s : State) (t : Nat) (i : SdItem) (code : BitVec 3) (failed first : Nat) :
    (s.recordSend t i code failed first).sec = s.sec := by
  simp [State.recordSend]

@[simp] theorem State.recordFailures_sec (s : State) (t : Nat) (i : SdItem) : (s.recordFailures t i).sec = s.sec := by
  simp [State.recordFailures]

@[simp] theorem State.finishSend_sec (s : State) (t : Nat) (i : SdItem) : (s.finishSend t i).sec = s.sec := by
  simp only [State.finishSend]
  split <;> simp

@[simp] theorem sendResponse_sec (s : State) (t id u : Nat) : (sendResponse s t id u).sec = s.sec := by
  simp only [sendResponse]
  split <;> simp

@[simp] theorem takeRecord_sec (s : State) (t : Nat) : (takeRecord s t).sec = s.sec := by
  simp only [takeRecord]
  repeat' split
  all_goals simp

@[simp] theorem takeRecords_sec (t n : Nat) (s : State) : (takeRecords t n s).sec = s.sec := by
  induction n generalizing s with
  | zero => rfl
  | succ n ih => simp [takeRecords, ih]

@[simp] theorem State.sendAbort_sec (s : State) (t : Nat) (gone : List Nat) : (s.sendAbort t gone).sec = s.sec := by
  simp [State.sendAbort, foldl_sec]

/-! ### Bells -/

@[simp] theorem State.checkHolding_sec (s : State) (g : Nat) : (s.checkHolding g).sec = s.sec := by
  simp [State.checkHolding]

@[simp] theorem bellConditionHolds_sec (s : State) (g : Nat) : (bellConditionHolds s g).sec = s.sec := by
  simp [bellConditionHolds, foldl_sec]

@[simp] theorem State.discardFrame_sec (s : State) : s.discardFrame.sec = s.sec := by simp [State.discardFrame]

@[simp] theorem bellFrameReceive_sec (s : State) (f : List Byte) : (bellFrameReceive s f).sec = s.sec := by
  simp [bellFrameReceive]

@[simp] theorem State.ledgerPut_sec (s : State) (e : List Byte) : (s.ledgerPut e).sec = s.sec := by
  simp [State.ledgerPut]

@[simp] theorem State.ledgerWriteAll_sec (s : State) (g : Nat) (final : Bool) :
    (s.ledgerWriteAll g final).sec = s.sec := by
  simp [State.ledgerWriteAll, foldl_sec]

@[simp] theorem State.releaseMember_sec (s : State) (g : Nat) (pay : List Word32) (t : Nat) :
    (s.releaseMember g pay t).sec = s.sec := by
  simp only [State.releaseMember]
  split <;> simp

@[simp] theorem bellFire_sec (s : State) (g : Nat) : (bellFire s g).sec = s.sec := by simp [bellFire, foldl_sec]

/-! ### HostCore -/

@[simp] theorem completionWrite_sec (s : State) (q : Nat) (h : HostReply) : (completionWrite s q h).sec = s.sec := by
  simp only [completionWrite]
  grind [State.hostFailed_sec, State.putHost_sec, State.queueError_sec, State.raiseVector_sec, State.setQueue_sec]

@[simp] theorem packetFetch_sec (s : State) (h : HostReply) : (packetFetch s h).sec = s.sec := by
  simp only [packetFetch]
  repeat' split
  all_goals simp

@[simp] theorem State.enableQueue_sec (s : State) (q : Nat) : (s.enableQueue q).sec = s.sec := by
  simp [State.enableQueue]

@[simp] theorem State.queueConfig_sec (s : State) (q : Nat) (w : Word32) : (s.queueConfig q w).sec = s.sec := by
  simp [State.queueConfig]

@[simp] theorem sqDoorbell_sec (s : State) (q index : Nat) (writes : List (Nat × Byte)) :
    (sqDoorbell s q index writes).sec = s.sec := by
  simp [sqDoorbell]

@[simp] theorem cqDoorbell_sec (s : State) (q index : Nat) : (cqDoorbell s q index).sec = s.sec := by
  simp [cqDoorbell]

@[simp] theorem State.setMsix_sec (s : State) (v : Nat) (e : MsixEntry) : (s.setMsix v e).sec = s.sec := by
  simp [State.setMsix]

/-! ### ScaleTable -/

@[simp] theorem State.setLossScale_sec (s : State) (k clean : Nat) : (s.setLossScale k clean).sec = s.sec := by
  simp [State.setLossScale]

@[simp] theorem State.post_sec (s : State) (n : Nat) (w : Word32) : (s.post n w).sec = s.sec := by simp [State.post]

@[simp] theorem State.clearPosts_sec (s : State) : s.clearPosts.sec = s.sec := foldl_sec (by intros; rfl) _ _

@[simp] theorem State.applyView_sec (s : State) (view : List ViewEntry) : (s.applyView view).sec = s.sec :=
  (foldl_sec (by intros; rfl) _ _).trans (foldl_sec (by intros; rfl) _ _)

@[simp] theorem State.evalView_sec (s : State) (view : List ViewEntry) : (s.evalView view).sec = s.sec :=
  (foldl_sec (by intros; rfl) _ _).trans (foldl_sec (by intros; rfl) _ _)

@[simp] theorem State.restoreView_sec (s : State) (old : NMap ScaleEntry) : (s.restoreView old).sec = s.sec :=
  foldl_sec (by intros; rfl) _ _

@[simp] theorem newScale_sec (s : State) (e : ScaleEntry) (amax : Word32) : (newScale s e amax).2.sec = s.sec := by
  simp only [newScale]
  repeat' split
  all_goals simp

@[simp] theorem updateEntry_sec (s : State) (n : Nat) (e : ScaleEntry) : (updateEntry s n e).sec = s.sec := by
  simp [updateEntry]

@[simp] theorem State.scaleUpdate_sec (s : State) : s.scaleUpdate.sec = s.sec := by
  simp [State.scaleUpdate, foldl_sec]

/-! ### LoadImage -/

@[simp] theorem State.applyParams_sec (s : State) (p : List Byte) : (s.applyParams p).sec = s.sec := by
  simp [State.applyParams]

@[simp] theorem State.shadowPages_sec (s : State) (t : Nat) (pages : List Nat) : (s.shadowPages t pages).sec = s.sec :=
  foldl_sec (by intros; split <;> simp) _ _

@[simp] theorem State.installTile_sec (s : State) (i : Image) (threshold : BitVec 4) (resident : Bool) (t : Nat) :
    (s.installTile i threshold resident t).sec = s.sec := by
  simp [State.installTile]

@[simp] theorem State.installGroups_sec (s : State) (i : Image) : (s.installGroups i).sec = s.sec := by
  simp [State.installGroups]

@[simp] theorem State.setSlot_counter (s : State) (k : Nat) (d : List Byte) :
    (s.setSlot k d).sec.counter = s.sec.counter := by
  simp [State.setSlot]

@[simp] theorem State.extend_counter (s : State) (k : Nat) (d : List Byte) :
    (s.extend k d).sec.counter = s.sec.counter := by
  simp [State.extend]

@[simp] theorem State.measureImage_counter (s : State) (i : Image) :
    (s.measureImage i).sec.counter = s.sec.counter := by
  simp [State.measureImage]

@[simp] theorem State.install_counter (s : State) (i : Image) (p : List Byte) :
    (s.install i p).sec.counter = s.sec.counter := by
  simp [State.install, foldl_sec]

@[simp] theorem State.loadImage_counter (s : State) (n len : Nat) (b p : List Byte) :
    (s.loadImage n len b p).sec.counter = s.sec.counter := by
  simp only [State.loadImage]
  grind [State.complete_sec, State.install_counter]

/-! ### Reach -/

@[simp] theorem State.setReach_sec (s : State) (t id : Nat) (r : ReachState) : (s.setReach t id r).sec = s.sec := by
  simp [State.setReach]

@[simp] theorem serveMain_sec (s : State) (t : Nat) (i : RcItem) (a : Nat) : (serveMain s t i a).sec = s.sec := by
  simp only [serveMain]
  grind [State.mainRead_sec, State.mainWrite_sec, State.setReach_sec]

@[simp] theorem serveTile_sec (s : State) (t u off : Nat) (i : RcItem) : (serveTile s t u off i).sec = s.sec := by
  simp only [serveTile]
  grind [State.modTile_sec, State.setReach_sec, State.setTile_sec]

@[simp] theorem reachTarget_sec (s : State) (t id : Nat) : (reachTarget s t id).sec = s.sec := by
  simp only [reachTarget]
  repeat' split
  all_goals simp

@[simp] theorem reachControl_sec (s : State) (t id : Nat) : (reachControl s t id).sec = s.sec := by
  simp only [reachControl]
  grind [State.post_sec, State.setReach_sec]

@[simp] theorem reachReply_sec (s : State) (t id : Nat) : (reachReply s t id).sec = s.sec := by
  simp only [reachReply]
  grind [State.setTile_sec, State.tileFault_sec]

/-! ### Drain -/

@[simp] theorem State.endDrain_sec (s : State) (n : Option Nat) (partner path : Nat) (st : CmdStatus)
    (detail result : Nat) : (s.endDrain n partner path st detail result).sec = s.sec := by
  simp only [State.endDrain]
  split <;> simp

@[simp] theorem State.beginSnapshot_sec (s : State) : s.beginSnapshot.sec = s.sec := by
  simp only [State.beginSnapshot]
  split <;> simp

@[simp] theorem State.startDrain_sec (s : State) (n : Option Nat) (partner path : Nat) :
    (s.startDrain n partner path).sec = s.sec := by
  simp only [State.startDrain]
  grind [State.beginSnapshot_sec, State.endDrain_sec, State.setRunning_sec]

@[simp] theorem State.autoDrain_sec (s : State) : s.autoDrain.sec = s.sec := by simp [State.autoDrain]

@[simp] theorem State.stopDrain_sec (s : State) (d : Drain) (st : CmdStatus) (detail result : Nat) :
    (s.stopDrain d st detail result).sec = s.sec := by
  simp [State.stopDrain]

@[simp] theorem State.readRegion_sec (s : State) (d : Drain) (r : Nat) : (s.readRegion d r).1.sec = s.sec := by
  simp only [State.readRegion]
  grind [State.mainPut_sec, State.mainRead_sec, State.stopDrain_sec]

@[simp] theorem readRegions_sec (rs : List Nat) (s : State) (d : Drain) : (readRegions rs s d).1.sec = s.sec := by
  induction rs generalizing s d with
  | nil => rfl
  | cons r rs ih =>
    rw [readRegions]
    split <;> simp [ih, sec_of_eq ‹_ = (_, _)›]

@[simp] theorem State.ship_sec (s : State) (i : Nat) (manifest body : List Byte) (leaves : List (List Byte)) :
    (s.ship i manifest body leaves).sec = s.sec := by
  simp [State.ship]

@[simp] theorem State.sealHome_sec (s : State) (d : Drain) : (s.sealHome d).sec = s.sec := by
  have hread := State.mainRead_sec
  have hput := State.mainPut_sec
  obtain ⟨read, hr⟩ := exists_eq' (a' := @State.mainRead)
  obtain ⟨put, hp⟩ := exists_eq' (a' := @State.mainPut)
  rw [hr] at hread
  rw [hp] at hput
  unfold State.sealHome
  rw [hr, hp]
  extract_lets base s₁ s₂
  have h₂ : s₂.sec = s.sec := (hput ..).trans (hput ..)
  clear_value s₂
  split
  · simp [sec_of_eq ‹_ = (_, _)›, hread, h₂]
  · simp [sec_of_eq ‹_ = (_, _)›, hread, h₂, hput]
  · simp [sec_of_eq ‹_ = (_, _)›, hread, h₂]

@[simp] theorem State.landHeld_sec (s : State) (w : HeldWrite) : (s.landHeld w).sec = s.sec := by
  unfold State.landHeld
  extract_lets +onlyGivenNames src s₁ data r
  have hr : r.1.sec = s.sec := State.mainWrite_sec ..
  clear_value r
  split
  · have hput := (wroteMain_sec r).trans hr
    generalize wroteMain r = p at hput
    cases p with
    | done s₂ => exact hput
    | wait s₂ p => exact hput
    | fail k s₂ => exact (State.modTile_sec ..).trans hput
  · split <;> exact (State.setReach_sec ..).trans hr
  · exact hr

@[simp] theorem bankHoldRelease_sec (s : State) (region : Nat) : (bankHoldRelease s region).sec = s.sec := by
  rw [bankHoldRelease, foldl_sec State.landHeld_sec]
  repeat' split
  all_goals simp

@[simp] theorem State.setOwner_sec (s : State) (k : Nat) (o : Option ForeignOwner) :
    (s.setOwner k o).sec = s.sec := by
  simp [State.setOwner]

@[simp] theorem State.setFill_sec (s : State) (pair : Nat) (f : Option ForeignFill) :
    (s.setFill pair f).sec = s.sec := by
  simp [State.setFill]

@[simp] theorem State.openFill_sec (s : State) (manifest : List Byte) : (s.openFill manifest).sec = s.sec := by
  simp only [State.openFill]
  split <;> simp

@[simp] theorem drainChunk_sec (s : State) (manifest : List Byte) (index : Nat) (chunk leaf : List Byte) :
    (drainChunk s manifest index chunk leaf).sec = s.sec := by
  simp only [drainChunk]
  grind [State.dropFrame_sec, State.mainPut_sec, State.openFill_sec, State.setFill_sec]

@[simp] theorem receiverEnd_sec (s : State) (identity : Word64) : (receiverEnd s identity).sec = s.sec := by
  simp only [receiverEnd]
  split <;> simp

@[simp] theorem senderEnd_sec (s : State) (d : Drain) (e : DrainEnd) : (senderEnd s d e).sec = s.sec := by
  simp only [senderEnd]
  split <;> simp

/-! ### StepCourse -/

@[simp] theorem State.takeBatch_sec (s : State) (a n : Nat) : (s.takeBatch a n).1.sec = s.sec := by
  simp only [State.takeBatch]
  grind [State.mainRead_sec]

@[simp] theorem State.readLogged_sec (s : State) : s.readLogged.1.sec = s.sec := by
  have hread := State.mainRead_sec s
  obtain ⟨read, hr⟩ := exists_eq' (a' := s.mainRead)
  rw [hr] at hread
  unfold State.readLogged
  rw [hr]
  split
  · rfl
  · split <;> simp [sec_of_eq ‹_ = (_, _)›, hread]

@[simp] theorem State.takeLogged_sec (s : State) (e : List Byte) : (s.takeLogged e).sec = s.sec := by
  simp [State.takeLogged]

@[simp] theorem State.keepEligible_sec (s : State) : s.keepEligible.sec = s.sec := by
  simp only [State.keepEligible]
  split <;> simp

@[simp] theorem State.copyBatch_sec (s : State) (addr : Nat) (b : List Byte) : (s.copyBatch addr b).sec = s.sec := by
  simp [State.copyBatch]

@[simp] theorem State.stage2_sec (s : State) (stepNo : Word64) (addr len : Nat) (hold : Bool) :
    (s.stage2 stepNo addr len hold).1.sec = s.sec := by
  unfold State.stage2
  extract_lets +onlyGivenNames bankBad
  split
  · rfl
  extract_lets +onlyGivenNames whole table
  clear_value bankBad whole table
  have hb : (if whole then s.takeBatch addr len
      else if table then s.takeBatch addr (min len 0x2010) else (s, .ok [])).1.sec = s.sec := by
    split
    · simp
    split <;> simp
  split
  next he => rw [sec_of_eq he, hb]
  next s₀ b he =>
  rw [← hb, ← sec_of_eq he]
  extract_lets +onlyGivenNames read s₁
  have h₁ : s₁.sec = s₀.sec := State.readLogged_sec _
  clear_value read
  split
  · exact h₁
  split
  · exact h₁
  split
  · exact h₁
  extract_lets +onlyGivenNames src s₂ log s₃
  have h₂ : s₂.sec = s₁.sec := by
    simp only [s₂]
    split <;> simp
  have h₃ : s₃.sec = s₂.sec := by
    simp only [s₃]
    split <;> simp
  exact h₃.trans (h₂.trans h₁)

@[simp] theorem State.startGroup_sec (s : State) (g : Nat) : (s.startGroup g).sec = s.sec := by
  simp [State.startGroup]

@[simp] theorem State.idleGroup_sec (s : State) (g : Nat) : (s.idleGroup g).sec = s.sec := by simp [State.idleGroup]

@[simp] theorem State.launch_sec (s : State) (r : StepRun) : (s.launch r).sec = s.sec := by
  unfold State.launch
  split
  · rfl
  · dsimp only
    rw [foldl_sec]
    · simp [foldl_sec]
    · simp

@[simp] theorem State.startStep_sec (s : State) (r : StepRun) : (s.startStep r).sec = s.sec := by
  simp [State.startStep]

@[simp] theorem State.writeLog_sec (s : State) (r : StepRun) (runs status : Nat) (advanced exceeds : Bool) :
    (s.writeLog r runs status advanced exceeds).sec = s.sec := by
  have hput := State.mainPut_sec s
  obtain ⟨put, hp⟩ := exists_eq' (a' := s.mainPut)
  rw [hp] at hput
  unfold State.writeLog
  rw [hp]
  split
  · rfl
  · exact hput ..

@[simp] theorem State.advanceU_sec (s : State) (r : StepRun) (ok exceeds : Bool) :
    (s.advanceU r ok exceeds).1.sec = s.sec := by
  simp only [State.advanceU]
  grind [State.free_sec]

@[simp] theorem State.replayDone_sec (s : State) (r : StepRun) : (s.replayDone r).sec = s.sec := by
  simp only [State.replayDone]
  split <;> simp

@[simp] theorem State.stopTimers_sec (s : State) : s.stopTimers.sec = s.sec := by simp [State.stopTimers]

@[simp] theorem State.leaveStep_sec (s : State) : s.leaveStep.sec = s.sec := by simp [State.leaveStep]

@[simp] theorem State.endEval_sec (s : State) (r : StepRun) : (s.endEval r).sec = s.sec := by
  unfold State.endEval
  split
  · rfl
  · exact (State.clearPosts_sec _).trans ((State.restoreView_sec ..).trans (foldl_sec (by intros; rfl) ..))

@[simp] theorem State.clearStep_sec (s : State) : s.clearStep.sec = s.sec := by simp [State.clearStep]

theorem State.endStep_sec (s : State) (r : StepRun) (st : CmdStatus) (detail : Nat) (exceeds : Bool)
    {next : State → StepRun → RunList → State} (h : ∀ s r l, (next s r l).sec = s.sec) :
    (s.endStep r st detail exceeds next).sec = s.sec := by
  simp only [State.endStep]
  grind [State.advanceU_sec, State.autoDrain_sec, State.beginSnapshot_sec, State.clearStep_sec, State.complete_sec,
    State.endEval_sec, State.replayDone_sec, State.writeLog_sec]

@[simp] theorem State.refuseStep_sec (s : State) (r : StepRun) (e : CmdStatus) : (s.refuseStep r e).sec = s.sec := by
  simp only [State.refuseStep]
  grind [State.freeBytes_sec, State.writeLog_sec]

@[simp] theorem State.nextOfRun_sec (s : State) (r : StepRun) (l : RunList) : (s.nextOfRun r l).sec = s.sec := by
  have hread := State.mainRead_sec s
  have hprep := State.stage2_sec
  obtain ⟨read, hr⟩ := exists_eq' (a' := s.mainRead)
  obtain ⟨prep, hp⟩ := exists_eq' (a' := @State.stage2)
  rw [hr] at hread
  rw [hp] at hprep
  unfold State.nextOfRun
  simp only [hr, hp]
  split
  next h =>
    have hs := (sec_of_eq h).trans (hread ..)
    split <;> simp [sec_of_eq ‹_ = (_, _)›, hprep, hs]
  all_goals simp [sec_of_eq ‹_ = (_, _)›, hread]

@[simp] theorem State.finish_sec (s : State) (r : StepRun) (st : CmdStatus) (detail : Nat) (exceeds : Bool) :
    (s.finish r st detail exceeds).sec = s.sec := by
  exact State.endStep_sec s r st detail exceeds State.nextOfRun_sec

@[simp] theorem State.shadowCopy_sec (s : State) : s.shadowCopy.sec = s.sec := by simp [State.shadowCopy, foldl_sec]

@[simp] theorem State.writeNorm_sec (s : State) : s.writeNorm.sec = s.sec := by simp [State.writeNorm]

@[simp] theorem State.takeAllRecords_sec (s : State) : s.takeAllRecords.sec = s.sec := by
  simp [State.takeAllRecords, foldl_sec]

@[simp] theorem stepEnd_sec (s : State) : (stepEnd s).sec = s.sec := by
  simp only [stepEnd]
  split <;> simp

@[simp] theorem State.startEval_counter (s : State) (n : Nat) (i training : Image) (addr len : Nat) (window : Mem) :
    (s.startEval n i training addr len window).sec.counter = s.sec.counter := by
  unfold State.startEval
  extract_lets +onlyGivenNames s₁ s₂ old
  have h₂ : s₂.sec = s₁.sec := foldl_sec (by intros; rfl) _ _
  simp [h₂, s₁]

@[simp] theorem State.evalCheck_counter (s : State) (n : Nat) (h : HostReply) (c : Held) :
    (s.evalCheck n h c).sec.counter = s.sec.counter := by
  unfold State.evalCheck
  split
  · simp
  split
  · simp
  split
  · simp
  extract_lets +onlyGivenNames b addr len
  split
  · simp
  split
  · simp
  split
  · simp
  split
  · simp [sec_of_eq ‹_ = (_, _)›]
  · split <;> simp [sec_of_eq ‹_ = (_, _)›]

@[simp] theorem State.stopTiles_sec (s : State) : s.stopTiles.sec = s.sec := by
  unfold State.stopTiles
  split
  · exact foldl_sec (by intros; rfl) _ _
  · rfl

@[simp] theorem programFaultHalt_sec (s : State) : (programFaultHalt s).sec = s.sec := by
  unfold programFaultHalt
  split
  · split
    · rfl
    · exact (State.stopTiles_sec _).trans (foldl_sec (by intros; rfl) _ _)
  · rfl

@[simp] theorem State.failReach_sec (s : State) (t : Nat) (i : RcItem) : (s.failReach t i).sec = s.sec := by
  simp [State.failReach]

@[simp] theorem State.endWork_sec (s : State) (t : Nat) : (s.endWork t).sec = s.sec := by
  simp [State.endWork, foldl_sec]

/-! ### Service -/

@[simp] theorem State.loseTile_sec (s : State) (t : Nat) : (s.loseTile t).sec = s.sec := by simp [State.loseTile]

@[simp] theorem State.enterField_sec (s : State) (dawn : Bool) (b : Nat) : (s.enterField dawn b).sec = s.sec := by
  simp [State.enterField]

@[simp] theorem State.fallService_sec (s : State) (dawn : Bool) : (s.fallService dawn).sec = s.sec := by
  simp only [State.fallService]
  split <;> simp

/-! ### Tick -/

@[simp] theorem State.tickOnce_sec (s : State) : s.tickOnce.sec = s.sec := by simp [State.tickOnce]

/-! ### Repair -/

@[simp] theorem State.recordTimeout_sec (s : State) (g reason : Nat) (attributed : Bool) (t : Nat) :
    (s.recordTimeout g reason attributed t).sec = s.sec := by
  simp [State.recordTimeout]

@[simp] theorem State.repairFrames_sec (s : State) (action : Nat) : (s.repairFrames action).sec = s.sec := by
  simp [State.repairFrames, foldl_sec]

@[simp] theorem State.setResState_sec (s : State) (x : RecoveryState) : (s.setResState x).sec = s.sec := by
  simp [State.setResState]

@[simp] theorem State.leaveHold_sec (s : State) : s.leaveHold.sec = s.sec := by
  simp only [State.leaveHold]
  split <;> simp

@[simp] theorem State.holdStep_sec (s : State) (x : RecoveryState) : (s.holdStep x).sec = s.sec := by
  simp [State.holdStep]

@[simp] theorem State.repairRow_sec (s : State) (f : Failure) (r : RowRepair) : (s.repairRow f r).sec = s.sec := by
  simp [State.repairRow]

@[simp] theorem State.shiftRow_sec (s : State) (f : Failure) : (s.shiftRow f).sec = s.sec := by simp [State.shiftRow]

@[simp] theorem State.exhaustRow_sec (s : State) (f : Failure) : (s.exhaustRow f).sec = s.sec := by
  simp [State.exhaustRow]

@[simp] theorem State.endFault_sec (s : State) (r : StepRun) : (s.endFault r).sec = s.sec := by simp [State.endFault]

@[simp] theorem State.endTimeout_sec (s : State) (r : StepRun) (w : Word32) : (s.endTimeout r w).sec = s.sec := by
  simp [State.endTimeout]

@[simp] theorem State.endCause_sec (s : State) (r : StepRun) (st : CmdStatus × Nat) :
    (s.endCause r st).sec = s.sec := by
  simp [State.endCause]

@[simp] theorem State.endExhausted_sec (s : State) (r : StepRun) (t : Nat) : (s.endExhausted r t).sec = s.sec := by
  simp [State.endExhausted]

@[simp] theorem State.restart_sec (s : State) (r : StepRun) : (s.restart r).sec = s.sec := by
  unfold State.restart
  split
  · rfl
  · rw [State.launch_sec]
    refine (State.leaveHold_sec _).trans ?_
    split <;> exact foldl_sec (by intros; rfl) _ _

@[simp] theorem State.afterRepairs_sec (s : State) : s.afterRepairs.sec = s.sec := by
  simp only [State.afterRepairs]
  grind [State.endCause_sec, State.endFault_sec, State.endTimeout_sec, State.leaveHold_sec, State.repairFrames_sec,
    State.restart_sec]

@[simp] theorem nextFailure_sec (n : Nat) (s : State) : (nextFailure n s).sec = s.sec := by
  induction n generalizing s with
  | zero => exact State.afterRepairs_sec s
  | succ n ih =>
    rw [nextFailure]
    split
    · simp
    extract_lets +onlyGivenNames s₁ drop
    have h₁ : s₁.sec = s.sec := by
      simp only [s₁]
      split <;> rfl
    clear_value s₁
    have hdrop : ∀ s, (drop s).sec = s.sec := fun _ => rfl
    clear_value drop
    split
    · rw [ih, hdrop, h₁]
    split
    · extract_lets s₂
      have h₂ : s₂.sec = s.sec := (State.shiftRow_sec ..).trans h₁
      clear_value s₂
      split
      · rw [ih, hdrop]
        exact h₂
      · exact h₂
    · extract_lets s₂
      have h₂ : s₂.sec = s.sec := (State.exhaustRow_sec ..).trans ((hdrop _).trans h₁)
      clear_value s₂
      split
      · split <;> simp [ih, h₂]
      · simp [ih, h₂]

@[simp] theorem State.repair_sec (s : State) : s.repair.sec = s.sec := by simp [State.repair]

@[simp] theorem State.declare_sec (s : State) (f : Failure) : (s.declare f).sec = s.sec := by
  simp only [State.declare]
  split <;> simp

@[simp] theorem probeNoReply_sec (s : State) (g t : Nat) : (probeNoReply s g t).sec = s.sec := by
  simp only [probeNoReply]
  split <;> simp

@[simp] theorem tileFailure_sec (s : State) (t : Nat) (c : FailCause) : (tileFailure s t c).sec = s.sec := by
  simp only [tileFailure]
  grind [State.declare_sec, State.modTile_sec, State.tileFault_sec, probeNoReply_sec]

@[simp] theorem State.haltTimeout_sec (s : State) (g reason t : Nat) : (s.haltTimeout g reason t).sec = s.sec := by
  simp only [State.haltTimeout]
  split <;> simp

@[simp] theorem bellTimeout_sec (s : State) (g : Nat) : (bellTimeout s g).sec = s.sec := by
  simp only [bellTimeout]
  split <;> simp

@[simp] theorem State.probesAnswered_sec (s : State) (g : Nat) : (s.probesAnswered g).sec = s.sec := by
  simp [State.probesAnswered]

@[simp] theorem State.countItems_sec (s : State) : s.countItems.sec = s.sec := by simp [State.countItems]

@[simp] theorem engineWaitExpiry_sec (s : State) : (engineWaitExpiry s).sec = s.sec := by
  unfold engineWaitExpiry
  split
  · split
    · rfl
    split
    · rfl
    extract_lets +onlyGivenNames s₁ s₂
    have h₁ : s₁.sec = s.sec := (foldl_sec State.endWork_sec _ _).trans (State.countItems_sec _)
    have h₂ : s₂.sec = s₁.sec := by
      simp only [s₂]
      split <;> rfl
    clear_value s₁ s₂
    split
    · simp [h₂, h₁]
    split <;> simp [h₂, h₁]
  · rfl

@[simp] theorem State.readShadow_sec (s : State) (off n : Nat) : (s.readShadow off n).1.sec = s.sec := by
  simp only [State.readShadow]
  grind [State.mainRead_sec]

/-- The fill of a tile's pages from any read: the read of the shadow, which folds large literals, stands behind a name. -/
def fillWith (read : State → Nat → Nat → State × Except Nat (List Byte)) (t : Nat) :
    List Nat → State → State × Except Nat Unit
  | [], s => (s, .ok ())
  | p :: ps, s =>
    match read s (t * 2 ^ 21 + p * 4096) 4096 with
    | (s, .error a) => (s, .error a)
    | (s, .ok bs) => fillWith read t ps (s.modTile t fun c => c.loadBytes (4096 * p) bs)

theorem fillPages_eq : @fillPages = fillWith State.readShadow := by
  delta fillPages fillWith
  rfl

theorem fillWith_sec {read : State → Nat → Nat → State × Except Nat (List Byte)}
    (hread : ∀ s off n, (read s off n).1.sec = s.sec) (t : Nat) (ps : List Nat) (s : State) :
    (fillWith read t ps s).1.sec = s.sec := by
  induction ps generalizing s with
  | nil => rfl
  | cons p ps ih =>
    rw [fillWith]
    split
    next h => rw [sec_of_eq h, hread]
    next h => rw [ih, State.modTile_sec, sec_of_eq h, hread]

@[simp] theorem fillPages_sec (t : Nat) (ps : List Nat) (s : State) : (fillPages t ps s).1.sec = s.sec := by
  rw [fillPages_eq]
  exact fillWith_sec State.readShadow_sec ..

@[simp] theorem State.fillSpare_sec (s : State) (t : Nat) : (s.fillSpare t).1.sec = s.sec := by
  have hread := State.readShadow_sec s
  have hfill := fillPages_sec
  obtain ⟨read, hr⟩ := exists_eq' (a' := s.readShadow)
  obtain ⟨fill, hf⟩ := exists_eq' (a' := fillPages)
  rw [hr] at hread
  rw [hf] at hfill
  unfold State.fillSpare
  rw [hr, hf]
  split
  · rfl
  · extract_lets training
    split <;> simp [sec_of_eq ‹_ = (_, _)›, hread, hfill]

@[simp] theorem State.endRetire_sec (s : State) (st : CmdStatus) (detail : Nat) :
    (s.endRetire st detail).sec = s.sec := by
  simp only [State.endRetire]
  split <;> simp

@[simp] theorem spareFillComplete_sec (s : State) : (spareFillComplete s).sec = s.sec := by
  simp only [spareFillComplete]
  grind [State.endFault_sec, State.endRetire_sec, State.fillSpare_sec, State.finish_sec, State.repair_sec,
    State.setResState_sec, State.setRow_sec]

@[simp] theorem retireTile_sec (s : State) (n t : Nat) : (retireTile s n t).sec = s.sec := by simp [retireTile]

@[simp] theorem State.abandon_sec (s : State) (r : StepRun) : (s.abandon r).sec = s.sec := by simp [State.abandon]

@[simp] theorem repairFrameReceive_sec (s : State) (f : List Byte) : (repairFrameReceive s f).sec = s.sec := by
  unfold repairFrameReceive
  split
  · simp
  split
  · simp
  extract_lets +onlyGivenNames held
  clear_value held
  split
  · split
    · cases held <;> simp
    · rfl
  · split
    · rfl
    · extract_lets +onlyGivenNames s₁
      have h : s₁.sec = s.sec := by
        simp only [s₁]
        split
        · rw [foldl_sec State.endWork_sec]
        · rfl
      clear_value s₁
      split <;> simp [h]
  · split <;> simp
  · rfl

@[simp] theorem repairHoldTimeout_sec (s : State) : (repairHoldTimeout s).sec = s.sec := by
  simp only [repairHoldTimeout]
  split <;> simp

/-! ### TileWindow -/

@[simp] theorem State.countTileErr_sec (s : State) : s.countTileErr.sec = s.sec := by simp [State.countTileErr]

@[simp] theorem State.countDropped_sec (s : State) : s.countDropped.sec = s.sec := by simp [State.countDropped]

@[simp] theorem State.writeCode_sec (s : State) (t index : Nat) (w : Word64) :
    (s.writeCode t index w).sec = s.sec := by
  simp [State.writeCode]

/-! ### Upkeep -/

@[simp] theorem State.acceptPost_sec (s : State) (p : NormSlot) : (s.acceptPost p).sec = s.sec := by
  simp [State.acceptPost]

@[simp] theorem normPost_sec (s : State) (t : Nat) : (normPost s t).sec = s.sec := by
  simp only [normPost]
  grind [State.acceptPost_sec, State.modTile_sec]

@[simp] theorem ringStall_sec (s : State) (t r : Nat) : (ringStall s t r).sec = s.sec := by
  simp only [ringStall]
  split <;> simp

@[simp] theorem State.seedsDone_sec (s : State) : s.seedsDone.sec = s.sec := by
  simp only [State.seedsDone]
  grind [State.complete_sec]

@[simp] theorem State.setKeyed_sec (s : State) (seed : Word64) : (s.setKeyed seed).sec = s.sec := by
  simp [State.setKeyed]

@[simp] theorem State.setFree_sec (s : State) (seed : Word64) : (s.setFree seed).sec = s.sec := by
  unfold State.setFree
  dsimp only
  split
  · split
    · exact foldl_sec (by intros; rfl) _ _
    · rfl
  · rfl

theorem expertIdle_sec {f : State → State} (h : ∀ s, (f s).sec = s.sec) (s : State) :
    (expertIdle f s).sec = s.sec := by
  simp [expertIdle, h]

@[simp] theorem State.writeSeedKeyedHi_sec (s : State) (w : Word32) : (s.writeSeedKeyedHi w).sec = s.sec := by
  simp [State.writeSeedKeyedHi]

@[simp] theorem State.writeSeedFreeHi_sec (s : State) (w : Word32) : (s.writeSeedFreeHi w).sec = s.sec := by
  simp [State.writeSeedFreeHi]

@[simp] theorem State.writeScaleWord_sec (s : State) (n k : Nat) (w : Word32) :
    (s.writeScaleWord n k w).sec = s.sec := by
  simp [State.writeScaleWord]

@[simp] theorem State.applyScales_sec (s : State) (n : Nat) (c : Held) (rs : List (List Byte)) :
    (s.applyScales n c rs).sec = s.sec := by
  unfold State.applyScales
  extract_lets +onlyGivenNames s₁
  have h₁ : s₁.sec = s.sec := foldl_sec (by intros; rfl) _ _
  simp [h₁]

@[simp] theorem setScales_sec (s : State) (n : Nat) (h : HostReply) (c : Held) : (setScales s n h c).sec = s.sec := by
  simp only [setScales]
  repeat' split
  all_goals simp

/-! ### LinkRx -/

@[simp] theorem State.dropDrain_sec (s : State) (ks : List Nat) : (s.dropDrain ks).sec = s.sec := by
  simp only [State.dropDrain]
  split <;> simp

@[simp] theorem State.cutOff_sec (s : State) (ks : List Nat) : (s.cutOff ks).sec = s.sec := by simp [State.cutOff]

@[simp] theorem State.failEntries_sec (s : State) (ks : List Nat) : (s.failEntries ks).sec = s.sec :=
  (State.cutOff_sec ..).trans (foldl_sec (by intros; rfl) _ _)

@[simp] theorem State.failPort_sec (s : State) (port : Nat) : (s.failPort port).sec = s.sec := by
  simp [State.failPort, foldl_sec]

@[simp] theorem State.sendHandshake_sec (s : State) (p : Nat) (unit : List Byte) :
    (s.sendHandshake p unit).sec = s.sec := by
  simp [State.sendHandshake]

@[simp] theorem State.sendHandshakeTo_sec (s : State) (e : Nat) (a : NetAddr) (unit : List Byte) :
    (s.sendHandshakeTo e a unit).sec = s.sec := by
  simp [State.sendHandshakeTo]

@[simp] theorem State.dropPairing_sec (s : State) (pr : Pairing) (st : CmdStatus) (detail : Nat) :
    (s.dropPairing pr st detail).sec = s.sec := by
  simp [State.dropPairing]

@[simp] theorem State.finishPairing_sec (s : State) (pr : Pairing) (feed : BitVec 9) (hops : Nat) :
    (s.finishPairing pr feed hops).sec = s.sec := by
  simp [State.finishPairing]

@[simp] theorem handshakeReceive_sec (s : State) (p : Nat) (answer : Bool) (identity target : Word64)
    (feed : BitVec 9) (hops : Nat) (source : NetAddr) :
    (handshakeReceive s p answer identity target feed hops source).sec = s.sec := by
  simp only [handshakeReceive]
  repeat' split
  all_goals simp

@[simp] theorem State.startPair_sec (s : State) (n : Nat) (h : Held) : (s.startPair n h).sec = s.sec := by
  simp only [State.startPair]
  grind [State.complete_sec, State.sendHandshake_sec, State.sendHandshakeTo_sec, State.setPartner_sec,
    State.setRunning_sec]

@[simp] theorem State.emptyEntry_sec (s : State) (i : Nat) : (s.emptyEntry i).sec = s.sec := by
  simp [State.emptyEntry]

@[simp] theorem State.unpair_sec (s : State) (i : Nat) : (s.unpair i).sec = s.sec := by simp [State.unpair]

@[simp] theorem partnerCommit_sec (s : State) : (partnerCommit s).sec = s.sec := by simp [partnerCommit]

@[simp] theorem State.sendNotices_sec (s : State) (recovered : Bool) : (s.sendNotices recovered).sec = s.sec := by
  simp [State.sendNotices, foldl_sec]

@[simp] theorem feedWarning_sec (s : State) (identity : Word64) (feed : Byte) (time : Word64) (recovered : Bool) :
    (feedWarning s identity feed time recovered).sec = s.sec := by
  simp only [feedWarning]
  split <;> simp

@[simp] theorem State.takeAnswer_sec (s : State) (fails : Bool) (unit : List Byte) :
    (s.takeAnswer fails unit).sec = s.sec := by
  simp [State.takeAnswer]

@[simp] theorem State.takeControl_sec (s : State) (port kind : Nat) (unit : List Byte) (source : NetAddr) :
    (s.takeControl port kind unit source).sec = s.sec := by
  simp only [State.takeControl]
  split <;> simp

@[simp] theorem State.forwardPacket_sec (s : State) (vc : Nat) (h : PktHeader) (k : LinkPacket) :
    (s.forwardPacket vc h k).sec = s.sec := by
  simp only [State.forwardPacket]
  split <;> simp

@[simp] theorem State.takePacket_sec (s : State) (port vc : Nat) (last : Bool) (source : NetAddr) (k : LinkPacket) :
    (s.takePacket port vc last source k).sec = s.sec := by
  simp [State.takePacket]

@[simp] theorem takePackets_sec (port vc : Nat) (all : Bool) (ks : List LinkPacket) (s : State) :
    (takePackets port vc all ks s).sec = s.sec := by
  induction ks generalizing s with
  | nil => rfl
  | cons k ks ih => rw [takePackets, ih, State.takePacket_sec]

@[simp] theorem flitReceive_sec (s : State) (p : Nat) (f : List Byte) : (flitReceive s p f).sec = s.sec := by
  simp [flitReceive]

@[simp] theorem State.roadDown_sec (s : State) (p : Nat) : (s.roadDown p).sec = s.sec := by simp [State.roadDown]

@[simp] theorem linkRetrained_sec (s : State) (p : Nat) (lanes : BitVec 2) :
    (linkRetrained s p lanes).sec = s.sec := by
  simp [linkRetrained]

@[simp] theorem linkFailed_sec (s : State) (p : Nat) : (linkFailed s p).sec = s.sec := by
  simp only [linkFailed]
  split <;> simp

@[simp] theorem State.takeEce_sec (s : State) (i : Nat) : (s.takeEce i).sec = s.sec := by simp [State.takeEce]

@[simp] theorem deliverInOrder_sec (port i n : Nat) (s : State) : (deliverInOrder port i n s).sec = s.sec := by
  induction n generalizing s with
  | zero => rfl
  | succ n ih =>
    simp only [deliverInOrder]
    split
    · rw [ih, foldl_sec fun s k => State.takePacket_sec .., State.setCtx_sec]
    · rfl

@[simp] theorem State.sendAck_sec (s : State) (i : Nat) : (s.sendAck i).sec = s.sec := by simp [State.sendAck]

@[simp] theorem State.takeData_sec (s : State) (port i psn kind : Nat) (ps : List LinkPacket) :
    (s.takeData port i psn kind ps).sec = s.sec := by
  simp only [State.takeData]
  split <;> simp

@[simp] theorem State.dropEth_sec (s : State) (e : Nat) : (s.dropEth e).sec = s.sec := by simp [State.dropEth]

@[simp] theorem datagramReceive_sec (s : State) (e : Nat) (f : EthFrame) : (datagramReceive s e f).sec = s.sec := by
  unfold datagramReceive
  extract_lets +onlyGivenNames d
  split
  · rfl
  split
  · simp
  extract_lets +onlyGivenNames ps greets
  split
  · exact foldl_sec (fun _ _ => State.takePacket_sec ..) _ _
  split
  · simp
  · rw [State.pumpCtx_sec]
    split
    · split <;> simp
    · split <;> simp

@[simp] theorem retransmit_sec (s : State) (i psn : Nat) : (retransmit s i psn).sec = s.sec := by
  simp only [retransmit]
  split <;> simp

@[simp] theorem State.pumpEth_sec (s : State) (e : Nat) : (s.pumpEth e).sec = s.sec := by
  simp [State.pumpEth, foldl_sec]

@[simp] theorem pauseFrame_sec (s : State) (e priority : Nat) (quanta : BitVec 16) :
    (pauseFrame s e priority quanta).sec = s.sec := by
  simp [pauseFrame]

@[simp] theorem State.pauseOver_sec (s : State) (e : Nat) : (s.pauseOver e).sec = s.sec := by simp [State.pauseOver]

@[simp] theorem State.awaitOver_sec (s : State) (e : Nat) : (s.awaitOver e).sec = s.sec := by
  simp only [State.awaitOver]
  split <;> simp

@[simp] theorem State.passCycle_sec (s : State) : s.passCycle.sec = s.sec := by simp [State.passCycle, foldl_sec]

@[simp] theorem arpNd_sec (s : State) (e : Nat) (v6 : Bool) (address : BitVec 128) :
    (arpNd s e v6 address).sec = s.sec := by
  simp [arpNd]

@[simp] theorem ethernetLink_sec (s : State) (e : Nat) (up : Bool) (mode : BitVec 2) :
    (ethernetLink s e up mode).sec = s.sec := by
  simp [ethernetLink]

@[simp] theorem srefclkChange_sec (s : State) (present : Bool) : (srefclkChange s present).sec = s.sec := by
  unfold srefclkChange
  split
  · rfl
  split
  · refine (foldl_sec (by intros; rfl) _ _).trans (foldl_sec ?_ _ _)
    intro s p
    dsimp only
    split <;> simp
  · refine (foldl_sec (by intros; rfl) _ _).trans (foldl_sec ?_ _ _)
    intro s p
    dsimp only
    split <;> simp

/-! ### MainRows -/

@[simp] theorem lineAccess_sec (s : State) (a : Nat) (bytes : Option (List Byte)) (consumer : BitVec 4) (c : LineCheck) :
    (lineAccess s a bytes consumer c).sec = s.sec := by
  unfold lineAccess
  split
  · rfl
  extract_lets +onlyGivenNames l s₁
  have h₁ : s₁.sec = s.sec := State.fetchChecks_sec ..
  clear_value s₁
  split
  · extract_lets +onlyGivenNames r
    split <;> simp [r, h₁]
  · extract_lets +onlyGivenNames bs
    split
    · simp [h₁]
    · split <;> simp [h₁, sec_of_eq ‹_ = (_, _)›]

@[simp] theorem patrolScrub_sec (s : State) (a : Nat) (c : LineCheck) : (patrolScrub s a c).sec = s.sec := by
  simp [patrolScrub]

@[simp] theorem bar2Read_sec (s : State) (o n : Nat) : (bar2Read s o n).sec = s.sec := by
  simp only [bar2Read]
  grind [State.logAer_sec, State.mainRead_sec, State.setReply_sec]

@[simp] theorem State.aerDrop_sec (s : State) : s.aerDrop.sec = s.sec := by simp [State.aerDrop]

@[simp] theorem bar2Write_sec (s : State) (o : Nat) (bs : List Byte) : (bar2Write s o bs).sec = s.sec := by
  simp only [bar2Write]
  grind [State.aerDrop_sec, State.mainWrite_sec]

/-! ### Reset -/

@[simp] theorem State.enterD4_sec (s : State) : s.enterD4.sec = s.sec := by simp [State.enterD4]

@[simp] theorem State.afterReset_counter (s : State) (r : ResetEvent) : (s.afterReset r).sec.counter = s.sec.counter :=
  Security.afterReset_counter ..

@[simp] theorem State.resetDevice_counter (s : State) (r : ResetEvent) :
    (s.resetDevice r).sec.counter = s.sec.counter := by
  simp [State.resetDevice]

@[simp] theorem State.dropTwilight_sec (s : State) (rail : Nat) : (s.dropTwilight rail).sec = s.sec := by
  simp only [State.dropTwilight]
  split <;> simp

@[simp] theorem supplyReset_counter (s : State) (rail : Rail) (auxStands : Bool) :
    (supplyReset s rail auxStands).sec.counter = s.sec.counter := by
  simp [supplyReset]

/-! ### Dawn -/

@[simp] theorem State.loadOptions_sec (s : State) : s.loadOptions.sec = s.sec := by simp [State.loadOptions]

@[simp] theorem State.loadDefaults_sec (s : State) : s.loadDefaults.sec = s.sec := by simp [State.loadDefaults]

@[simp] theorem State.keepCause_sec (s : State) : s.keepCause.sec = s.sec := by simp [State.keepCause]

@[simp] theorem State.dawnD2_counter (s : State) (optionOk : Bool) :
    (s.dawnD2 optionOk).sec.counter = s.sec.counter := by
  simp only [State.dawnD2]
  split <;> simp

theorem Security.boot_counter (x : Security) (south fallback recovery : Bool) :
    (x.boot south fallback recovery).counter = x.counter := by
  rfl

@[simp] theorem State.bootFrom_counter (s : State) (south fallback recovery : Bool) :
    (s.bootFrom south fallback recovery).sec.counter = s.sec.counter := by
  rw [State.bootFrom, State.enterD4_sec]
  exact Security.boot_counter ..

@[simp] theorem State.enterRecovery_counter (s : State) (sideband fallback : Bool) :
    (s.enterRecovery sideband fallback).sec.counter = s.sec.counter := by
  simp [State.enterRecovery]

@[simp] theorem State.dawnD3_counter (s : State) : s.dawnD3.sec.counter = s.sec.counter := by
  simp only [State.dawnD3]
  grind [State.bootFrom_counter, State.enterRecovery_counter]

@[simp] theorem State.trainMemory_sec (s : State) (failed : List Nat) : (s.trainMemory failed).sec = s.sec := by
  simp [State.trainMemory]

@[simp] theorem State.trainRoad_sec (trained : List (Nat × BitVec 2)) (s : State) (p : Nat) :
    (State.trainRoad trained s p).sec = s.sec := by
  simp [State.trainRoad]

@[simp] theorem State.trainEth_sec (trained : List Nat) (s : State) (e : Nat) :
    (State.trainEth trained s e).sec = s.sec := by
  simp [State.trainEth]

theorem foldl_fst_sec {α β : Type} {f : State × β → α → State × β} (h : ∀ x a, (f x a).1.sec = x.1.sec) (l : List α)
    (x : State × β) : (l.foldl f x).1.sec = x.1.sec := by
  induction l generalizing x with
  | nil => rfl
  | cons a l ih => rw [List.foldl_cons, ih, h]

@[simp] theorem State.logEntries_sec (s : State) : s.logEntries.1.sec = s.sec := by
  have hread := State.mainRead_sec
  obtain ⟨read, hr⟩ := exists_eq' (a' := @State.mainRead)
  rw [hr] at hread
  unfold State.logEntries
  rw [hr]
  extract_lets base
  split
  · rw [foldl_fst_sec]
    intro x k
    split <;> simp [sec_of_eq ‹_ = (_, _)›, hread]
  · rfl

@[simp] theorem State.alert_sec (s : State) (condition : Nat) : (s.alert condition).sec = s.sec := by
  simp [State.alert]

@[simp] theorem State.dawnD4_sec (s : State) (i : DawnInput) : (s.dawnD4 i).sec = s.sec := by
  simp [State.dawnD4, foldl_sec]

@[simp] theorem retireSpare_sec (s : State) (k : Nat) : (retireSpare s k).sec = s.sec := by simp [retireSpare]

@[simp] theorem retireTested_sec (s : State) (t : Nat) : (retireTested s t).sec = s.sec := by simp [retireTested]

@[simp] theorem State.dawnD5_sec (s : State) (i : DawnInput) : (s.dawnD5 i).sec = s.sec := by
  simp [State.dawnD5, foldl_sec]

@[simp] theorem State.releaseHold_sec (s : State) : s.releaseHold.sec = s.sec := by simp [State.releaseHold]

@[simp] theorem State.takePiece_counter (s : State) (piece : List Byte) :
    (s.takePiece piece).sec.counter = s.sec.counter := by
  simp [State.takePiece]

@[simp] theorem State.finishRecovery_counter (s : State) : s.finishRecovery.sec.counter = s.sec.counter := by
  unfold State.finishRecovery
  split
  · split <;> simp [Security.setBank_counter]
  · simp [Security.setBank_counter]

/-! ### PowerRows -/

@[simp] theorem State.excuse_sec (s : State) : s.excuse.sec = s.sec := by
  unfold State.excuse
  split
  · rfl
  refine foldl_sec ?_ _ _
  intro s g
  extract_lets +onlyGivenNames G out
  split
  · rfl
  · extract_lets s₁ s₂
    have h₁ : s₁.sec = s.sec := foldl_sec (by intros; rfl) _ _
    exact (foldl_sec State.noteMet_sec _ _).trans ((State.setGroup_sec ..).trans h₁)

@[simp] theorem State.modBenches_sec (s : State) (bs : List Nat) (f : BenchClock → BenchClock) :
    (s.modBenches bs f).sec = s.sec := by
  rw [State.modBenches, State.noteAllDivided_sec, foldl_sec]
  simp

@[simp] theorem State.unload_sec (s : State) : s.unload.sec = s.sec := by simp [State.unload]

@[simp] theorem State.deviceOff_sec (s : State) : s.deviceOff.sec = s.sec := by
  simp only [State.deviceOff]
  split <;> simp

@[simp] theorem State.deviceOn_sec (s : State) : s.deviceOn.sec = s.sec := by simp [State.deviceOn, foldl_sec]

@[simp] theorem State.endPower_sec (s : State) (n : Nat) (bs : List Nat) (d : BitVec 2) :
    (s.endPower n bs d).sec = s.sec := by
  simp [State.endPower]

@[simp] theorem State.startTransition_sec (s : State) (n : Option Nat) (bs : List Nat) (l : PowerLevel)
    (device checked : Bool) : (s.startTransition n bs l device checked).sec = s.sec := by
  simp [State.startTransition]

@[simp] theorem State.setPower_sec (s : State) (n : Nat) (h : Held) : (s.setPower n h).sec = s.sec := by
  simp [State.setPower]

@[simp] theorem State.loseTiles_sec (s : State) (bs : List Nat) : (s.loseTiles bs).sec = s.sec := by
  simp [State.loseTiles]

@[simp] theorem State.tilesOn_sec (s : State) (bs : List Nat) : (s.tilesOn bs).sec = s.sec :=
  foldl_sec (by intros; rfl) _ _

@[simp] theorem State.endTransition_sec (s : State) (x : Transition) : (s.endTransition x).sec = s.sec := by
  simp only [State.endTransition]
  grind [State.complete_sec, State.deviceOff_sec, State.deviceOn_sec, State.endPower_sec, State.loseTiles_sec,
    State.modBenches_sec, State.tilesOn_sec, State.unload_sec]

@[simp] theorem State.settleTransition_sec (s : State) : s.settleTransition.sec = s.sec := by
  simp only [State.settleTransition]
  split <;> simp

@[simp] theorem powerControl_sec (s : State) (w : Word32) : (powerControl s w).sec = s.sec := by simp [powerControl]

@[simp] theorem State.applyTwilight_sec (s : State) : s.applyTwilight.sec = s.sec := by
  rw [State.applyTwilight, State.noteAllDivided_sec, foldl_sec]
  simp

@[simp] theorem State.countTwilight_sec (s : State) : s.countTwilight.1.sec = s.sec := by
  simp only [State.countTwilight]
  split <;> simp

@[simp] theorem twilightStart_sec (s : State) (rail millivolts : Nat) :
    (twilightStart s rail millivolts).sec = s.sec := by
  simp [twilightStart]

@[simp] theorem twilightRelease_sec (s : State) (rail lowest : Nat) :
    (twilightRelease s rail lowest).sec = s.sec := by
  simp only [twilightRelease]
  split <;> simp

@[simp] theorem powerSample_sec (s : State) (average drawsMost : Nat) (below10ms : Bool) :
    (powerSample s average drawsMost below10ms).sec = s.sec := by
  simp [powerSample]

@[simp] theorem thermalThreshold_sec (s : State) (b celsius : Nat) : (thermalThreshold s b celsius).sec = s.sec := by
  simp [thermalThreshold]

@[simp] theorem State.closeBlock_sec (s : State) (k i : Nat) : (s.closeBlock k i).sec = s.sec := by
  unfold State.closeBlock
  split
  · split <;> simp
  · rfl
  · rw [State.excuse_sec, foldl_sec State.endWork_sec]
    split <;> simp

@[simp] theorem State.startBlock_sec (s : State) (n : Option Nat) (k i : Nat) : (s.startBlock n k i).sec = s.sec := by
  simp [State.startBlock]

@[simp] theorem State.resetBlock_sec (s : State) (n : Nat) (h : Held) : (s.resetBlock n h).sec = s.sec := by
  simp [State.resetBlock]

@[simp] theorem State.openBlock_sec (s : State) (k i : Nat) : (s.openBlock k i).sec = s.sec := by
  unfold State.openBlock
  split
  · split <;> rfl
  · rfl
  · exact foldl_sec (by intros; rfl) _ _

@[simp] theorem startWaiting_sec (n : Nat) (s : State) : (startWaiting n s).sec = s.sec := by
  induction n generalizing s with
  | zero => rfl
  | succ n ih =>
    simp only [startWaiting]
    split <;> simp [ih]

@[simp] theorem blockResetComplete_sec (s : State) (kind index : Nat) :
    (blockResetComplete s kind index).sec = s.sec := by
  simp only [blockResetComplete]
  repeat' split
  all_goals simp

/-! ### SecureRows -/

@[simp] theorem State.startWrite_counter (s : State) (n : Nat) (south : Bool) (image : List Byte) :
    (s.startWrite n south image).sec.counter = s.sec.counter := by
  simp [State.startWrite, Security.setBank_counter]

@[simp] theorem State.updateFirmware_counter (s : State) (n : Nat) (host : HostReply) (h : Held) :
    (s.updateFirmware n host h).sec.counter = s.sec.counter := by
  simp only [State.updateFirmware]
  grind [State.complete_sec, State.hostFailed_sec, State.startWrite_counter]

@[simp] theorem State.beginSigning_counter (s : State) : s.beginSigning.sec.counter = s.sec.counter := by
  simp only [State.beginSigning]
  repeat' split
  all_goals simp

@[simp] theorem State.askReport_counter (s : State) (r : SignRequest) :
    (s.askReport r).sec.counter = s.sec.counter := by
  simp [State.askReport]

@[simp] theorem attestDone_counter (s : State) (host : HostReply) :
    (attestDone s host).sec.counter = s.sec.counter := by
  simp only [attestDone]
  grind [State.beginSigning_counter, State.complete_sec, State.hostFailed_sec, State.putHost_sec,
    State.setReply_sec]

@[simp] theorem unlockChallenge_counter (s : State) (entropy : BitVec 256) :
    (unlockChallenge s entropy).sec.counter = s.sec.counter := by
  simp only [unlockChallenge]
  repeat' split
  all_goals simp

@[simp] theorem unlockResponse_counter (s : State) (r : List Byte) :
    (unlockResponse s r).sec.counter = s.sec.counter := by
  simp only [unlockResponse]
  grind [State.extend_counter]

/-! ### Transfer -/

@[simp] theorem State.copyIo_sec (s : State) (h : HostReply) (n : Nat) (data : Option (List Byte)) (c : CopySide) :
    (s.copyIo h n data c).1.sec = s.sec := by
  simp only [State.copyIo]
  grind [State.hostFailed_sec, State.mainRead_sec, State.mainWrite_sec, State.modTile_sec, State.putHost_sec,
    State.setTile_sec]

@[simp] theorem copyComplete_sec (s : State) (n : Nat) (h : HostReply) (c : Held) :
    (copyComplete s n h c).sec = s.sec := by
  simp only [copyComplete]
  grind [State.complete_sec, State.copyIo_sec]

@[simp] theorem query_sec (s : State) (n : Nat) (h : HostReply) (c : Held) : (query s n h c).sec = s.sec := by
  simp only [query]
  grind [State.complete_sec, State.hostFailed_sec, State.putHost_sec]

@[simp] theorem readTelemetry_sec (s : State) (n : Nat) (h : HostReply) (c : Held) :
    (readTelemetry s n h c).sec = s.sec := by
  simp only [readTelemetry]
  split <;> simp

/-! ### ModuleRows -/

@[simp] theorem State.readJunctions_sec (s : State) (readings : List Nat) : (s.readJunctions readings).sec = s.sec := by
  refine foldl_sec ?_ _ _
  intro s b
  dsimp only
  split <;> rfl

@[simp] theorem sensorRefresh_sec (s : State) (readings : List Nat) : (sensorRefresh s readings).sec = s.sec := by
  simp [sensorRefresh]

@[simp] theorem State.sidebandCommand_sec (s : State) (p : List Byte) : (s.sidebandCommand p).sec = s.sec := by
  simp only [State.sidebandCommand]
  grind [State.complete_sec]

@[simp] theorem State.sidebandReply_sec (s : State) : s.sidebandReply.sec = s.sec := by
  simp only [State.sidebandReply]
  split <;> simp

@[simp] theorem sidebandPacket_counter (s : State) (m : List Byte) :
    (sidebandPacket s m).sec.counter = s.sec.counter := by
  simp only [sidebandPacket]
  grind [State.finishRecovery_counter, State.sidebandCommand_sec, State.sidebandReply_sec, State.takePiece_counter]

/-! ### RegWrite -/

@[simp] theorem State.setBar2_sec (s : State) (base : Word64) : (s.setBar2 base).sec = s.sec := by
  simp [State.setBar2]

@[simp] theorem State.clearEvents_sec (s : State) (w : Word32) : (s.clearEvents w).sec = s.sec := by
  simp [State.clearEvents]

@[simp] theorem State.writeDevice_sec (s : State) (o : Nat) (w : Word32) : (s.writeDevice o w).sec = s.sec := by
  simp [State.writeDevice]

@[simp] theorem State.writeQueue_sec (s : State) (o : Nat) (w : Word32) : (s.writeQueue o w).sec = s.sec := by
  simp only [State.writeQueue]
  split <;> simp

@[simp] theorem State.writeDoorbell_sec (s : State) (o : Nat) (w : Word32) : (s.writeDoorbell o w).sec = s.sec := by
  simp [State.writeDoorbell]

theorem guarded_sec {f : State → State} (h : ∀ s, (f s).sec = s.sec) (s : State) : (guarded f s).sec = s.sec := by
  simp [guarded, h]

@[simp] theorem State.writeHaul_sec (s : State) (o : Nat) (w : Word32) : (s.writeHaul o w).sec = s.sec := by
  simp [State.writeHaul]

@[simp] theorem State.writeSeedLo_sec (s : State) (keyed : Bool) (w : Word32) :
    (s.writeSeedLo keyed w).sec = s.sec := by
  simp [State.writeSeedLo]

@[simp] theorem State.writeRandom_sec (s : State) (o : Nat) (w : Word32) : (s.writeRandom o w).sec = s.sec := by
  simp only [State.writeRandom]
  split <;> simp

@[simp] theorem State.writeTrain_sec (s : State) (o : Nat) (w : Word32) : (s.writeTrain o w).sec = s.sec := by
  simp [State.writeTrain]

@[simp] theorem State.writeScale_sec (s : State) (o : Nat) (w : Word32) : (s.writeScale o w).sec = s.sec := by
  simp [State.writeScale]

@[simp] theorem State.resetControl_counter (s : State) (w : Word32) :
    (s.resetControl w).sec.counter = s.sec.counter := by
  simp only [State.resetControl]
  split <;> simp

@[simp] theorem State.writeBlockReset_sec (s : State) (w : Word32) : (s.writeBlockReset w).sec = s.sec := by
  simp [State.writeBlockReset]

@[simp] theorem State.writePower_counter (s : State) (o : Nat) (w : Word32) :
    (s.writePower o w).sec.counter = s.sec.counter := by
  simp only [State.writePower]
  split <;> simp

@[simp] theorem State.writeEthControl_sec (s : State) (e : Nat) (w : Word32) :
    (s.writeEthControl e w).sec = s.sec := by
  simp [State.writeEthControl]

@[simp] theorem State.writeEth_sec (s : State) (e o : Nat) (w : Word32) : (s.writeEth e o w).sec = s.sec := by
  simp only [State.writeEth]
  split <;> simp

@[simp] theorem State.writeLink_sec (s : State) (o : Nat) (w : Word32) : (s.writeLink o w).sec = s.sec := by
  simp [State.writeLink]

@[simp] theorem State.writeMem_sec (s : State) (o : Nat) (w : Word32) : (s.writeMem o w).sec = s.sec := by
  simp [State.writeMem]

@[simp] theorem State.writeRes_sec (s : State) (o : Nat) (w : Word32) : (s.writeRes o w).sec = s.sec := by
  simp [State.writeRes]

@[simp] theorem State.writeSec_counter (s : State) (o : Nat) (w : Word32) :
    (s.writeSec o w).sec.counter = s.sec.counter := by
  simp only [State.writeSec]
  repeat' split
  all_goals simp

theorem writeBlocks_counter :
    ∀ b ∈ writeBlocks, ∀ s o w, (b.write s o w).sec.counter = s.sec.counter := by
  simp [writeBlocks, guarded_sec, expertIdle_sec]

@[simp] theorem State.writeReg_counter (s : State) (o : Nat) (w : Word32) :
    (s.writeReg o w).sec.counter = s.sec.counter := by
  unfold State.writeReg
  split
  next hb =>
    split
    · exact writeBlocks_counter _ (List.mem_of_find?_eq_some hb) s _ w
    · rfl
  · rfl

@[simp] theorem State.writeBar4_sec (s : State) (o : Nat) (w : Word32) : (s.writeBar4 o w).sec = s.sec := by
  simp only [State.writeBar4]
  grind [State.setMsix_sec]

@[simp] theorem State.writeConfig_sec (s : State) (r : ConfigReg) (w : Word32) : (s.writeConfig r w).sec = s.sec := by
  simp only [State.writeConfig]
  split <;> simp

/-! ### Restore -/

@[simp] theorem State.restoreManifest_sec (s : State) (h : Held) (fetched : Option (List Byte)) :
    (s.restoreManifest h fetched).1.sec = s.sec := by
  have hread := State.mainRead_sec s
  obtain ⟨read, hr⟩ := exists_eq' (a' := s.mainRead)
  rw [hr] at hread
  unfold State.restoreManifest
  rw [hr]
  split
  · split <;> simp [sec_of_eq ‹_ = (_, _)›, hread]
  · split <;> rfl

@[simp] theorem restore_sec (s : State) (n : Nat) (fetched : Option (List Byte)) (h : Held) :
    (restore s n fetched h).sec = s.sec := by
  unfold restore
  split
  · simp
  split
  · simp
  split
  · simp [sec_of_eq ‹_ = (_, _)›]
  split <;> simp [sec_of_eq ‹_ = (_, _)›]

@[simp] theorem State.restoreScales_sec (s : State) (table : List Byte) : (s.restoreScales table).sec = s.sec :=
  foldl_sec (by intros; rfl) _ _

@[simp] theorem State.restoreResident_sec (s : State) (i : Image) (t : Nat) :
    (s.restoreResident i t).sec = s.sec := by
  simp [State.restoreResident]

@[simp] theorem State.applyCopy_sec (s : State) (r : Restore) (body : List Byte) : (s.applyCopy r body).sec = s.sec := by
  unfold State.applyCopy
  extract_lets +onlyGivenNames m hi log s₁ s₂ s₃
  have h₂ : s₂.sec = s.sec := (State.mainPut_sec ..).trans (State.restoreScales_sec ..)
  have h₃ : s₃.sec = s₂.sec := by
    simp only [s₃]
    split
    · rw [foldl_sec]
      simp
    · rfl
  exact h₃.trans h₂

@[simp] theorem State.finishRestore_sec (s : State) (r : Restore) (bs : List Byte) :
    (s.finishRestore r bs).sec = s.sec := by
  simp only [State.finishRestore]
  split <;> simp

@[simp] theorem restoreComplete_sec (s : State) (copy : Option (List Byte)) (r : Restore) :
    (restoreComplete s copy r).sec = s.sec := by
  simp only [restoreComplete]
  grind [State.complete_sec, State.finishRestore_sec, State.mainRead_sec]

end Sys2Proof.Machine
end

section
/-! SUPPORT. What an outcome leaves of the rollback counter: a rule per frame that rows share, then per row, then for every
command but the two that check the banks. -/
namespace Sys2Proof.Machine

/-! ### Outcomes -/

/-- An outcome whose next state, where it has one, has the rollback counter of `s`. -/
def CounterStays (s : State) : Out → Prop
  | .next s' => s'.sec.counter = s.sec.counter
  | _ => True

@[simp] theorem counterStays_next {s s' : State} : CounterStays s (.next s') ↔ s'.sec.counter = s.sec.counter := Iff.rfl

@[simp] theorem counterStays_fault (s : State) (f : Fault) : CounterStays s (.fault f) := trivial

@[simp] theorem counterStays_ite {s : State} {c : Prop} [Decidable c] {a b : Out} :
    CounterStays s (if c then a else b) ↔ (c → CounterStays s a) ∧ (¬c → CounterStays s b) := by
  split <;> simp [*]

theorem CounterStays.of_sec {s s' : State} (h : s'.sec = s.sec) : CounterStays s (.next s') := congrArg Security.counter h

theorem CounterStays.trans {s s₁ : State} {o : Out} (h₁ : s₁.sec.counter = s.sec.counter) (h : CounterStays s₁ o) :
    CounterStays s o := by
  cases o with
  | next s₂ => exact Eq.trans h h₁
  | fault f => trivial
  | refused r => trivial

/-! ### The frames that rows share -/

section Rows
variable {s : State} {t n op : Nat}

@[simp] theorem issue_counterStays {single : Bool} {i : Insn} : CounterStays s (issue single t i s) := by
  simp [issue]

theorem noting_counterStays {o : Out} (h : CounterStays s o) : CounterStays s (noting t o) := by
  cases o with
  | next s₁ => simpa [noting] using h
  | fault f => trivial
  | refused r => trivial

theorem engineStep_counterStays {f : State → Nat → State} (h : ∀ s t, (f s t).sec = s.sec) :
    CounterStays s (engineStep t f s) := by
  simp [engineStep, h]

theorem arrayStep_counterStays {f : State → Nat → State} (h : ∀ s t, (f s t).sec = s.sec) :
    CounterStays s (arrayStep t f s) :=
  engineStep_counterStays fun s t => by simp [h]

@[simp] theorem onTile_counterStays {f : State → Tile → Tile} : CounterStays s (onTile t f s) := by
  simp [onTile]

@[simp] theorem onMemory_counterStays {f : TileMem → TileMem} : CounterStays s (onMemory t f s) := by
  simp [onMemory]

theorem startHeld_counterStays {k : State → Held → State} (hk : ∀ s h, (k s h).sec.counter = s.sec.counter) :
    CounterStays s (startHeld op n k s) := by
  unfold startHeld
  split
  · simp [hk]
  · simp

theorem endHeld_counterStays {k : State → Held → State} (hk : ∀ s h, (k s h).sec = s.sec) :
    CounterStays s (endHeld op n k s) := by
  unfold endHeld
  split
  · simp [hk]
  · simp

theorem onQueue_counterStays {f : State → State} (h : (f s).sec = s.sec) : CounterStays s (onQueue n f s) := by
  simp [onQueue, h]

theorem onRoad_counterStays {f : State → State} (h : (f s).sec = s.sec) : CounterStays s (onRoad n f s) := by
  simp [onRoad, h]

theorem onEth_counterStays {f : State → State} (h : (f s).sec = s.sec) : CounterStays s (onEth n f s) := by
  simp [onEth, h]

theorem onPartner_counterStays {f : State → State} (h : (f s).sec = s.sec) : CounterStays s (onPartner n f s) := by
  simp [onPartner, h]

theorem onChannel_counterStays {f : State → State} (h : (f s).sec = s.sec) : CounterStays s (onChannel n f s) := by
  simp [onChannel, h]

/-! ### Writes to the windows and the registers -/

@[simp] theorem singleStep_counterStays : CounterStays s (singleStep t s) := noting_counterStays issue_counterStays

@[simp] theorem runControl_counterStays {w : Nat} : CounterStays s (runControl t w s) := by
  unfold runControl
  extract_lets +onlyGivenNames s₁
  have h₁ : s₁.sec = s.sec := State.modTile_sec ..
  clear_value s₁
  split
  · exact .trans (congrArg Security.counter h₁) singleStep_counterStays
  · exact .of_sec h₁

@[simp] theorem tileWrite_counterStays {off w : Nat} : CounterStays s (tileWrite t off w s) := by
  unfold tileWrite
  extract_lets c halted always
  have hhalted : ∀ f, CounterStays s (halted f) := fun f => by simp [halted]
  have halways : ∀ f, CounterStays s (always f) := fun f => by simp [always]
  clear_value halted always
  simp [hhalted, halways]

theorem windowWrite_counterStays {f : State → Out} (h : CounterStays s (f s)) : CounterStays s (windowWrite t f s) := by
  simp [windowWrite, h]

theorem expertTile_counterStays {f : State → Out} (h : CounterStays s (f s)) : CounterStays s (expertTile t f s) := by
  simp [expertTile, windowWrite_counterStays h]

theorem writeTiles_counterStays {off w : Nat} {ts : List Nat} : CounterStays s (writeTiles off w ts s) := by
  induction ts generalizing s with
  | nil => rfl
  | cons u us ih =>
    rw [writeTiles]
    split
    · have hw : CounterStays s (tileWrite u off w s) := tileWrite_counterStays
      cases ho : tileWrite u off w s with
      | next s₁ => exact .trans (counterStays_next.mp (ho ▸ hw)) ih
      | fault f => trivial
      | refused r => trivial
    · exact ih

@[simp] theorem broadcast_counterStays {w off v : Nat} : CounterStays s (broadcast w off v s) := by
  unfold broadcast
  split
  · simp
  split
  · exact writeTiles_counterStays
  · simp

@[simp] theorem bar0Write_counterStays {o : Nat} {w : Word32} : CounterStays s (bar0Write o w s) := by
  simp [bar0Write, windowWrite_counterStays]

theorem barWrite_counterStays {f : Nat → Word32 → State → Out} (hf : ∀ o w s, CounterStays s (f o w s)) {o : Nat}
    {bs : List Byte} : CounterStays s (barWrite f o bs s) := by
  unfold barWrite
  split
  · simp
  split
  next lo hi _ =>
    have hw := hf o lo s
    cases ho : f o lo s with
    | next s₁ => exact .trans (counterStays_next.mp (ho ▸ hw)) (hf ..)
    | fault f => trivial
    | refused r => trivial
  · exact hf ..
  · simp

theorem execRegisterWrite_counterStays {target : HostTarget} {bs : List Byte} :
    CounterStays s (execRegisterWrite target bs s) := by
  unfold execRegisterWrite
  split
  · exact barWrite_counterStays fun _ _ _ => bar0Write_counterStays
  · split
    · exact barWrite_counterStays fun _ _ _ => by simp
    · simp
  · simp only [counterStays_next]
    split <;> simp
  · simp only [counterStays_next]
    split <;> simp

end Rows

/-! ### Rows with conditions of their own -/

section Conditions
variable {s : State}

theorem execIllegalInsn_counterStays {t : Nat} {w : Word64} : CounterStays s (execIllegalInsn t w s) := by
  simp [execIllegalInsn]

theorem execMoverUnitWrite_counterStays {t slot : Nat} {h : HostReply} : CounterStays s (execMoverUnitWrite t slot h s) := by
  simp [execMoverUnitWrite, engineStep_counterStays]

theorem execMoverDescriptorComplete_counterStays {t slot : Nat} {h : HostReply} :
    CounterStays s (execMoverDescriptorComplete t slot h s) := by
  simp [execMoverDescriptorComplete, engineStep_counterStays]

theorem execHaulDeliveryUnit_counterStays {src : HaulSource} {dst : Nat} : CounterStays s (execHaulDeliveryUnit src dst s) := by
  cases src <;>
  · simp only [execHaulDeliveryUnit]
    split
    · trivial
    · exact .of_sec (by split <;> simp)

theorem execSendResponseArrive_counterStays {t id dst : Nat} : CounterStays s (execSendResponseArrive t id dst s) := by
  simp [execSendResponseArrive, engineStep_counterStays]

theorem execSendFailRecordTake_counterStays {t : Nat} : CounterStays s (execSendFailRecordTake t s) := by
  simp [execSendFailRecordTake]

theorem execBellConditionHolds_counterStays {g : Nat} : CounterStays s (execBellConditionHolds g s) := by
  simp [execBellConditionHolds]

theorem execBellFire_counterStays {g : Nat} : CounterStays s (execBellFire g s) := by
  simp [execBellFire]

theorem execMsixUnmask_counterStays {v : Nat} : CounterStays s (execMsixUnmask v s) := by
  simp [execMsixUnmask]

theorem execLoadImage_counterStays {n : Nat} {h : HostReply} : CounterStays s (execLoadImage n h s) :=
  startHeld_counterStays fun s c => by
    split
    · simp
    · exact State.loadImage_counter ..

theorem execDrain_counterStays {n : Nat} : CounterStays s (execDrain n s) := by
  simp [execDrain, startHeld_counterStays]

theorem execDrainSnapshotDone_counterStays : CounterStays s (execDrainSnapshotDone s) := by
  unfold execDrainSnapshotDone
  split
  · split
    · split <;> exact .of_sec (by simp [sec_of_eq ‹_ = (_, _)›])
    · rfl
  · rfl

theorem execDrainVerified_counterStays {owner : Option Word64} {outcome : DrainEnd} :
    CounterStays s (execDrainVerified owner outcome s) := by
  unfold execDrainVerified
  split
  · simp
  · split
    · simp
    · rfl

theorem execStep_counterStays {n : Nat} : CounterStays s (execStep n s) := by
  have hprep := State.stage2_sec
  obtain ⟨prep, hp⟩ := exists_eq' (a' := @State.stage2)
  rw [hp] at hprep
  unfold execStep
  rw [hp]
  split
  · rfl
  · refine startHeld_counterStays fun s h => congrArg Security.counter ?_
    extract_lets stepNo
    split <;> simp [sec_of_eq ‹_ = (_, _)›, hprep]

theorem execRun_counterStays {n : Nat} : CounterStays s (execRun n s) := by
  have hnext := State.nextOfRun_sec
  obtain ⟨next, hn⟩ := exists_eq' (a' := @State.nextOfRun)
  rw [hn] at hnext
  unfold execRun
  rw [hn]
  split
  · rfl
  · exact startHeld_counterStays fun s h => congrArg Security.counter ((hnext ..).trans (State.setRunning_sec ..))

theorem execEval_counterStays {n : Nat} {h : HostReply} : CounterStays s (execEval n h s) := by
  simp [execEval, startHeld_counterStays]

theorem execTileFailure_counterStays {t : Nat} {cause : FailCause} : CounterStays s (execTileFailure t cause s) := by
  simp [execTileFailure]

theorem execBellTimeout_counterStays {g : Nat} : CounterStays s (execBellTimeout g s) := by
  simp [execBellTimeout]

theorem execProbeNoReply_counterStays {g t : Nat} : CounterStays s (execProbeNoReply g t s) := by
  simp [execProbeNoReply]

theorem execRetireTile_counterStays {n : Nat} : CounterStays s (execRetireTile n s) := by
  simp [execRetireTile, startHeld_counterStays]

theorem execSpoilMapFlashDone_counterStays : CounterStays s (execSpoilMapFlashDone s) := by
  simp [execSpoilMapFlashDone]

theorem execCodeWindowWrite_counterStays {t index : Nat} {value : Word64} :
    CounterStays s (execCodeWindowWrite t index value s) := by
  simp [execCodeWindowWrite, expertTile_counterStays]

theorem execRingDescWrite_counterStays {t r k : Nat} {value : Word32} :
    CounterStays s (execRingDescWrite t r k value s) := by
  simp [execRingDescWrite, expertTile_counterStays]

theorem execRingStall_counterStays {t r : Nat} : CounterStays s (execRingStall t r s) := by
  simp [execRingStall]

theorem execKeyDerived_counterStays : CounterStays s (execKeyDerived s) := by
  simp [execKeyDerived]

theorem execLaneArmingDone_counterStays {t : Nat} : CounterStays s (execLaneArmingDone t s) := by
  simp [execLaneArmingDone]

theorem execSetSeeds_counterStays {n : Nat} : CounterStays s (execSetSeeds n s) :=
  startHeld_counterStays fun s h => by
    dsimp only
    split <;> split <;> simp

theorem execSeedKeyedWrite_counterStays {value : Word32} : CounterStays s (execSeedKeyedWrite value s) := by
  simp [execSeedKeyedWrite, expertIdle_sec]

theorem execSeedFreeWrite_counterStays {value : Word32} : CounterStays s (execSeedFreeWrite value s) := by
  simp [execSeedFreeWrite, expertIdle_sec]

theorem execScaleEntryWrite_counterStays {n k : Nat} {value : Word32} : CounterStays s (execScaleEntryWrite n k value s) := by
  simp [execScaleEntryWrite, expertIdle_sec]

theorem execPair_counterStays {n : Nat} : CounterStays s (execPair n s) := by
  simp [execPair, startHeld_counterStays]

theorem execPairAnswerTimeout_counterStays : CounterStays s (execPairAnswerTimeout s) := by
  unfold execPairAnswerTimeout
  split <;> simp

theorem execUnpair_counterStays {n : Nat} : CounterStays s (execUnpair n s) := by
  simp [execUnpair, startHeld_counterStays]

theorem execPairingHandshakeReceive_counterStays {p : Nat} {answer : Bool} {identity target : Word64} {feed : BitVec 9}
    {via : HandshakeVia} : CounterStays s (execPairingHandshakeReceive p answer identity target feed via s) := by
  simp [execPairingHandshakeReceive]

theorem execPartnerCommit_counterStays : CounterStays s (execPartnerCommit s) := by
  simp [execPartnerCommit]

theorem execPartnerEmpty_counterStays : CounterStays s (execPartnerEmpty s) := by
  simp [execPartnerEmpty]

theorem execLinkRetryLimit_counterStays {p : Nat} : CounterStays s (execLinkRetryLimit p s) :=
  onRoad_counterStays (by simp)

theorem execLinkSilenceTimeout_counterStays {p : Nat} : CounterStays s (execLinkSilenceTimeout p s) :=
  onRoad_counterStays (by simp)

theorem execQueueEnable_counterStays {q : Nat} {value : Word32} : CounterStays s (execQueueEnable q value s) :=
  onQueue_counterStays (by simp)

theorem execQueueDisable_counterStays {q : Nat} {value : Word32} : CounterStays s (execQueueDisable q value s) :=
  onQueue_counterStays (by simp)

theorem execQueueDrained_counterStays {q : Nat} : CounterStays s (execQueueDrained q s) :=
  onQueue_counterStays (by simp)

theorem execAckTimer_counterStays {i : Nat} : CounterStays s (execAckTimer i s) :=
  onPartner_counterStays (by simp)

theorem execRateTimer_counterStays {i : Nat} : CounterStays s (execRateTimer i s) :=
  onPartner_counterStays (by simp)

theorem execDramRefresh_counterStays {cycle : RefreshCycle} : CounterStays s (execDramRefresh cycle s) :=
  onChannel_counterStays (by simp)

theorem execChannelRetrain_counterStays {c : Nat} : CounterStays s (execChannelRetrain c s) :=
  onChannel_counterStays (by simp)

theorem execDeviceReset_counterStays {value : Word32} : CounterStays s (execDeviceReset value s) := by
  unfold execDeviceReset
  split <;> simp

theorem execPowerOnReset_counterStays {v48 : Bool} : CounterStays s (execPowerOnReset v48 s) := by
  unfold execPowerOnReset
  extract_lets other pw s₁
  rw [counterStays_next]
  split
  · rfl
  · exact State.resetDevice_counter s₁ _

theorem execSupplyReset_counterStays {rail : Rail} {aux : Bool} : CounterStays s (execSupplyReset rail aux s) := by
  cases rail <;> simp [execSupplyReset]

theorem execThermalReset_counterStays {b : Nat} : CounterStays s (execThermalReset b s) := by
  simp [execThermalReset]

theorem execThermalCooled_counterStays : CounterStays s (execThermalCooled s) := by
  simp [execThermalCooled]

theorem execPerstNAssert_counterStays : CounterStays s (execPerstNAssert s) := by
  simp [execPerstNAssert]

theorem execPerstNRelease_counterStays : CounterStays s (execPerstNRelease s) := by
  simp [execPerstNRelease]

theorem execDebugReset_counterStays : CounterStays s (execDebugReset s) := by
  unfold execDebugReset
  split <;> simp

theorem execRecoveryPieceReady_counterStays : CounterStays s (execRecoveryPieceReady s) := by
  simp [execRecoveryPieceReady]

theorem execRecoveryFinish_counterStays : CounterStays s (execRecoveryFinish s) := by
  simp [execRecoveryFinish]

theorem execSetPower_counterStays {n : Nat} : CounterStays s (execSetPower n s) := by
  simp [execSetPower, startHeld_counterStays]

theorem execPowerTransitionComplete_counterStays : CounterStays s (execPowerTransitionComplete s) := by
  unfold execPowerTransitionComplete
  split <;> simp

theorem execD3hotWrite_counterStays : CounterStays s (execD3hotWrite s) := by
  simp [execD3hotWrite]

theorem execD0Write_counterStays : CounterStays s (execD0Write s) := by
  unfold execD0Write
  split
  · rfl
  extract_lets host s₁ pw s₂
  have h₂ : s₂.sec = s.sec := by
    simp only [s₂]
    split
    · split <;> simp [s₁]
    · rfl
  exact .of_sec (by split <;> simp [h₂])

theorem execPowerControlApply_counterStays {value : Word32} : CounterStays s (execPowerControlApply value s) := by
  simp [execPowerControlApply]

theorem execTwilightStart_counterStays {rail : Rail} {mv : Nat} : CounterStays s (execTwilightStart rail mv s) := by
  simp [execTwilightStart]

theorem execTwilightRelease_counterStays {rail : Rail} {lowest : Nat} : CounterStays s (execTwilightRelease rail lowest s) := by
  simp [execTwilightRelease]

theorem execPowerSample_counterStays {a b : Nat} {below : Bool} : CounterStays s (execPowerSample a b below s) := by
  simp [execPowerSample]

theorem execThermalThreshold_counterStays {b c : Nat} : CounterStays s (execThermalThreshold b c s) := by
  simp [execThermalThreshold]

theorem execThermalSpeedup_counterStays {b c : Nat} : CounterStays s (execThermalSpeedup b c s) := by
  simp [execThermalSpeedup]

theorem execBlockResetStart_counterStays {value : Word32} : CounterStays s (execBlockResetStart value s) := by
  simp [execBlockResetStart]

theorem execUpdateFirmware_counterStays {n : Nat} {h : HostReply} : CounterStays s (execUpdateFirmware n h s) := by
  simp [execUpdateFirmware, startHeld_counterStays]

theorem execAttest_counterStays {n : Nat} : CounterStays s (execAttest n s) :=
  startHeld_counterStays fun s h => by split <;> simp

theorem execDoeRequest_counterStays {object : DoeObject} : CounterStays s (execDoeRequest object s) := by
  simp [execDoeRequest]

theorem execUnlockTimeout_counterStays : CounterStays s (execUnlockTimeout s) := by
  unfold execUnlockTimeout
  split <;> simp

theorem execCopy_counterStays {n : Nat} : CounterStays s (execCopy n s) :=
  startHeld_counterStays fun s c => by
    split
    · simp
    · simp
    · split <;> simp

theorem execFeedGroupWrite_counterStays {value : BitVec 9} : CounterStays s (execFeedGroupWrite value s) := by
  simp [execFeedGroupWrite]

theorem execMctpControl_counterStays {assign : Option Byte} : CounterStays s (execMctpControl assign s) := by
  cases assign <;> simp [execMctpControl]

theorem execPldmSensorRead_counterStays {sensor : Nat} : CounterStays s (execPldmSensorRead sensor s) := by
  simp [execPldmSensorRead]

theorem execAlertResponseRead_counterStays : CounterStays s (execAlertResponseRead s) := by
  simp [execAlertResponseRead]

theorem execPldmEventPoll_counterStays : CounterStays s (execPldmEventPoll s) := by
  unfold execPldmEventPoll
  split <;> simp

theorem execBroadcastWrite_counterStays {w o : Nat} {value : Word32} : CounterStays s (execBroadcastWrite w o value s) := by
  simp [execBroadcastWrite]

theorem execRestoreComplete_counterStays {n : Nat} {copy : Option (List Byte)} :
    CounterStays s (execRestoreComplete n copy s) := by
  unfold execRestoreComplete
  split <;> simp [endHeld_counterStays]

end Conditions

/-! ### Every command but two leaves the counter as it is -/

theorem exec_counterStays {i : Instr} (hd : ∀ x, i ≠ .dawnStageComplete x) (hf : ∀ n, i ≠ .firmwareWriteComplete n)
    (s : State) : CounterStays s (exec i s) := by
  cases i
  -- tile instructions
  case add | sub | and | or | xor | shl | shr | sra | mul | mulh | div | rem | slt | sltu | addi | sys | li | lui | ld | st
      | beq | bne | blt | bge | bltu | bgeu | jmp | jal | jr | halt => exact issue_counterStays
  case vaddF32 | vsubF32 | vmulF32 | vfmaF32 | vaddBf | vsubBf | vmulBf | vfmaBf | vaddI32 | vsubI32 | vmulI32 | vfmaI32
      | vcmp | vsel | vcvt | vbcast | vshuf | vred | vld | vst => exact issue_counterStays
  case mldh | mldht | mmul | macc | mslb | mclr | mepi | mdrn | mflg | movq | movc | send => exact issue_counterStays
  case rset | rget | rpush | rpop | rwait | rspace | rngv | rngr | fence | expect | xrds | xrdv | xwrs | xwrv =>
    exact issue_counterStays
  case bell => exact noting_counterStays issue_counterStays
  case illegalInsn => exact execIllegalInsn_counterStays
  -- the engines of a tile
  case matrixDispatch => exact arrayStep_counterStays matrixDispatch_sec
  case heldLoadDone => exact arrayStep_counterStays heldLoadDone_sec
  case mmulComplete => exact arrayStep_counterStays mmulComplete_sec
  case mslbComplete => exact arrayStep_counterStays mslbComplete_sec
  case maccComplete => exact arrayStep_counterStays maccComplete_sec
  case mclrComplete => exact arrayStep_counterStays mclrComplete_sec
  case mepiInstall => exact arrayStep_counterStays mepiInstall_sec
  case mdrnComplete => exact arrayStep_counterStays mdrnComplete_sec
  case mflgComplete => exact arrayStep_counterStays mflgComplete_sec
  case drainUnitWrite => exact arrayStep_counterStays fun s t => drainUnitWrite_sec ..
  case pageFillComplete => exact engineStep_counterStays pageFillComplete_sec
  case moverDescriptorStart => exact engineStep_counterStays moverStart_sec
  case moverUnitWrite => exact execMoverUnitWrite_counterStays
  case moverDescriptorComplete => exact execMoverDescriptorComplete_counterStays
  case sendStart => exact engineStep_counterStays sendStart_sec
  case sendResponseArrive => exact execSendResponseArrive_counterStays
  case sendFailRecordTake => exact execSendFailRecordTake_counterStays
  case haulDeliveryUnit => exact execHaulDeliveryUnit_counterStays
  case randomFillDone => exact engineStep_counterStays fun s t => State.modTile_sec ..
  case laneArmingDone => exact execLaneArmingDone_counterStays
  case normPost => exact engineStep_counterStays normPost_sec
  case eccCorrectionWriteback | scrubRow => exact onMemory_counterStays
  case memoryInitDone => apply onTile_counterStays
  case reachTargetAccess => exact engineStep_counterStays fun s t => reachTarget_sec ..
  case reachControlService => exact engineStep_counterStays fun s t => reachControl_sec ..
  case reachReplyArrive => exact engineStep_counterStays fun s t => reachReply_sec ..
  case ringStall => exact execRingStall_counterStays
  case keyDerived => exact execKeyDerived_counterStays
  -- bells and the course of a step
  case bellConditionHolds => exact execBellConditionHolds_counterStays
  case bellFire => exact execBellFire_counterStays
  case bellTimeout => exact execBellTimeout_counterStays
  case probeNoReply => exact execProbeNoReply_counterStays
  case bellFrameReceive => exact .of_sec (bellFrameReceive_sec ..)
  case stepEnd => exact .of_sec (stepEnd_sec s)
  case programFaultHalt => exact .of_sec (programFaultHalt_sec s)
  case faultEngineWaitExpiry => exact .of_sec (engineWaitExpiry_sec s)
  case run => exact execRun_counterStays
  case step => exact execStep_counterStays
  case eval => exact execEval_counterStays
  -- failures, drains and restore
  case tileFailure => exact execTileFailure_counterStays
  case spareFillComplete => exact .of_sec (spareFillComplete_sec s)
  case repairHoldTimeout => exact .of_sec (repairHoldTimeout_sec s)
  case repairFrameReceive => exact .of_sec (repairFrameReceive_sec ..)
  case spoilMapFlashDone => exact execSpoilMapFlashDone_counterStays
  case retireTile => exact execRetireTile_counterStays
  case drain => exact execDrain_counterStays
  case drainSnapshotDone => exact execDrainSnapshotDone_counterStays
  case drainChunkReceive => exact .of_sec (drainChunk_sec ..)
  case drainVerified => exact execDrainVerified_counterStays
  case bankHoldRelease => exact .of_sec (bankHoldRelease_sec ..)
  case restoreComplete => exact execRestoreComplete_counterStays
  -- the host's commands and queues
  case packetFetch => exact .of_sec (packetFetch_sec ..)
  case completionWrite | sqTailDoorbell | cqHeadDoorbell =>
    apply onQueue_counterStays
    simp
  case queueEnable => exact execQueueEnable_counterStays
  case queueDisable => exact execQueueDisable_counterStays
  case queueDrained => exact execQueueDrained_counterStays
  case msixUnmask => exact execMsixUnmask_counterStays
  case fenceCommand | setScales | query | readTelemetry | restore | resetDevice | resetBlock =>
    apply startHeld_counterStays
    simp
  case loadImage => exact execLoadImage_counterStays
  case copy => exact execCopy_counterStays
  case copyComplete =>
    apply endHeld_counterStays
    simp
  case setSeeds => exact execSetSeeds_counterStays
  -- registers
  case registerWrite => exact execRegisterWrite_counterStays
  case broadcastWrite => exact execBroadcastWrite_counterStays
  case haltWrite => exact expertTile_counterStays runControl_counterStays
  case singleStep => exact expertTile_counterStays (by simp)
  case clearFault => exact expertTile_counterStays (.of_sec (State.modTile_sec ..))
  case codeWindowWrite => exact execCodeWindowWrite_counterStays
  case ringDescWrite => exact execRingDescWrite_counterStays
  case eccInjectArm => exact expertTile_counterStays tileWrite_counterStays
  case scaleEntryWrite => exact execScaleEntryWrite_counterStays
  case seedKeyedWrite => exact execSeedKeyedWrite_counterStays
  case seedFreeWrite => exact execSeedFreeWrite_counterStays
  case bar2Read => exact .of_sec (bar2Read_sec ..)
  case bar2Write => exact .of_sec (bar2Write_sec ..)
  -- links
  case pair => exact execPair_counterStays
  case unpair => exact execUnpair_counterStays
  case pairAnswerTimeout => exact execPairAnswerTimeout_counterStays
  case pairingHandshakeReceive => exact execPairingHandshakeReceive_counterStays
  case partnerCommit => exact execPartnerCommit_counterStays
  case partnerEmpty => exact execPartnerEmpty_counterStays
  case feedWarningReceive => exact .of_sec (feedWarning_sec ..)
  case linkFlitReceive | linkFailed | linkRetrained =>
    apply onRoad_counterStays
    simp
  case linkRetryLimit => exact execLinkRetryLimit_counterStays
  case linkSilenceTimeout => exact execLinkSilenceTimeout_counterStays
  case datagramReceive | pauseFrameReceive | arpNdRequest | ethernetLinkChange =>
    apply onEth_counterStays
    simp
  case retransmitTimeout =>
    apply onPartner_counterStays
    simp
  case ackTimer => exact execAckTimer_counterStays
  case rateTimer => exact execRateTimer_counterStays
  case srefclkChange => exact .of_sec (srefclkChange_sec ..)
  -- main memory
  case mainMemoryAccess => exact .of_sec (lineAccess_sec ..)
  case dramRefresh => exact execDramRefresh_counterStays
  case patrolScrub => exact .of_sec (patrolScrub_sec ..)
  case channelRetrain => exact execChannelRetrain_counterStays
  -- resets and power
  case deviceReset => exact execDeviceReset_counterStays
  case powerOnReset => exact execPowerOnReset_counterStays
  case supplyReset => exact execSupplyReset_counterStays
  case thermalReset => exact execThermalReset_counterStays
  case thermalCooled => exact execThermalCooled_counterStays
  case perstNAssert => exact execPerstNAssert_counterStays
  case perstNRelease => exact execPerstNRelease_counterStays
  case hotReset | flr | watchdogReset => exact State.resetDevice_counter ..
  case debugReset => exact execDebugReset_counterStays
  case setPower => exact execSetPower_counterStays
  case powerTransitionComplete => exact execPowerTransitionComplete_counterStays
  case d3hotWrite => exact execD3hotWrite_counterStays
  case d0Write => exact execD0Write_counterStays
  case powerControlApply => exact execPowerControlApply_counterStays
  case twilightStart => exact execTwilightStart_counterStays
  case twilightRelease => exact execTwilightRelease_counterStays
  case powerSample => exact execPowerSample_counterStays
  case thermalThreshold => exact execThermalThreshold_counterStays
  case thermalSpeedup => exact execThermalSpeedup_counterStays
  case blockResetStart => exact execBlockResetStart_counterStays
  case blockResetComplete => exact .of_sec (blockResetComplete_sec ..)
  -- the root of trust, but for the two checks of the banks
  case dawnStageComplete x => exact absurd rfl (hd x)
  case firmwareWriteComplete n => exact absurd rfl (hf n)
  case releaseHold => exact .of_sec (State.releaseHold_sec s)
  case recoveryPieceReady => exact execRecoveryPieceReady_counterStays
  case recoveryFinish => exact execRecoveryFinish_counterStays
  case updateFirmware => exact execUpdateFirmware_counterStays
  case attest => exact execAttest_counterStays
  case attestSignDone => exact attestDone_counter ..
  case doeRequest => exact execDoeRequest_counterStays
  case unlockChallengeRead => exact unlockChallenge_counter ..
  case unlockResponse => exact unlockResponse_counter ..
  case unlockTimeout => exact execUnlockTimeout_counterStays
  -- the module
  case feedGroupWrite => exact execFeedGroupWrite_counterStays
  case mctpControl => exact execMctpControl_counterStays
  case pldmSensorRead => exact execPldmSensorRead_counterStays
  case sensorRefresh => exact .of_sec (sensorRefresh_sec ..)
  case alertResponseRead => exact execAlertResponseRead_counterStays
  case pldmEventPoll => exact execPldmEventPoll_counterStays
  case sidebandVendorPacket => exact sidebandPacket_counter ..

end Sys2Proof.Machine
end

section
/-! The check of both banks and the statement that rests on it (R536, R538). -/
namespace Sys2Proof.Machine

/-! ### The check of both banks (R536, R538) -/

theorem foldl_isSome {α β : Type} {f : Option β → α → Option β} (hf : ∀ o a, (f (some o) a).isSome = true) (l : List α)
    (o : β) : (l.foldl f (some o)).isSome = true := by
  induction l generalizing o with
  | nil => rfl
  | cons a l ih =>
    obtain ⟨o', ho⟩ := Option.isSome_iff_exists.mp (hf o a)
    rw [List.foldl_cons, ho]
    exact ih o'

/-- Once a fault is found the scan of the fields ends with one, so a scan without fault has met none. -/
theorem not_of_firstFault_eq_none {l : List (Nat × Bool)} (h : firstFault l = none) {x : Nat × Bool} (hx : x ∈ l) :
    x.2 = false := by
  induction l with
  | nil => cases hx
  | cons y l ih =>
    rw [firstFault, List.foldl_cons] at h
    cases hy : y.2 with
    | true =>
      simp only [hy, Bool.not_true, Bool.false_eq_true, if_false] at h
      exact absurd h (Option.isSome_iff_ne_none.mp (foldl_isSome (fun o a => by split <;> rfl) l y.1))
    | false =>
      simp only [hy, Bool.not_false, if_true] at h
      obtain rfl | hx := List.mem_cons.mp hx
      · exact hy
      · exact ih h hx

/-- A valid image has a security version that the fuses can hold. -/
theorem version_le_of_bankValid {counter : Nat} {b : List Byte} (h : bankValid counter b = true) :
    leAt b 0x0C 4 ≤ 64 := by
  rw [bankValid, Bool.and_eq_true, Option.isNone_iff_eq_none] at h
  have hfield := not_of_firstFault_eq_none h.1 (List.getElem_mem (n := 3) (by simp [fwFaults]))
  change (decide (64 < leAt b 0x0C 4) || decide (leAt b 0x0C 4 < counter)) = false at hfield
  rw [Bool.or_eq_false_iff, decide_eq_false_iff_not] at hfield
  exact Nat.not_lt.mp hfield.1

/-- The counter as the check of both banks leaves it. -/
def Security.checkedCounter (x : Security) : Nat :=
  if bankValid x.counter x.bankA && bankValid x.counter x.bankB then
    max x.counter (min (leAt x.bankA 0x0C 4) (leAt x.bankB 0x0C 4))
  else x.counter

theorem Security.rollbackCheck_counter (x : Security) : x.rollbackCheck.counter = x.checkedCounter := rfl

theorem Security.counter_le_checkedCounter (x : Security) : x.counter ≤ x.checkedCounter := by
  unfold Security.checkedCounter
  split
  · exact Nat.le_max_left ..
  · exact Nat.le_refl _

theorem Security.checkedCounter_le {x : Security} (h : x.counter ≤ 64) : x.checkedCounter ≤ 64 := by
  unfold Security.checkedCounter
  split
  next hv =>
    rw [Bool.and_eq_true] at hv
    exact Nat.max_le.mpr ⟨h, Nat.le_trans (Nat.min_le_left ..) (version_le_of_bankValid hv.1)⟩
  · exact h

/-! ### The two commands that check the banks (R538) -/

theorem State.dawnD6_counter (s : State) : s.dawnD6.sec.counter = s.sec.checkedCounter := by
  unfold State.dawnD6
  extract_lets pw s₁ pw₁ s₂
  have h₂ : s₂.sec = s.sec.rollbackCheck := by
    simp only [s₂]
    split
    · rfl
    · exact State.fallService_sec ..
  rw [← Security.rollbackCheck_counter, ← h₂]
  split <;> simp

theorem dawnStageComplete_of_stage6 {s : State} (i : DawnInput) (hd : s.pw.standing = .dawn) (h6 : s.pw.stage = 6) :
    dawnStageComplete s i = s.dawnD6 := by
  simp [dawnStageComplete, hd, h6]

theorem dawnStageComplete_counter (s : State) (i : DawnInput) :
    (dawnStageComplete s i).sec.counter = s.sec.counter
      ∨ (dawnStageComplete s i).sec.counter = s.sec.checkedCounter := by
  unfold dawnStageComplete
  split
  · exact .inl rfl
  split
  · exact .inl rfl
  · exact .inl rfl
  · exact .inl (State.dawnD2_counter ..)
  · exact .inl (State.dawnD3_counter s)
  · exact .inl (congrArg Security.counter (State.dawnD4_sec ..))
  · exact .inl (congrArg Security.counter (State.dawnD5_sec ..))
  · exact .inr (State.dawnD6_counter s)

/-- An update that ends with a valid image completes with OK, and its end is the check of both banks. -/
theorem firmwareWritten_of_valid {s : State} {w : FwWrite} (hw : s.sec.write = some w)
    (hv : bankValid s.sec.counter w.image = true) :
    firmwareWritten s w.n =
      { s with sec := { s.sec.setBank w.bankB w.image with write := none }.rollbackCheck }.complete w.n .ok 0 0 false := by
  have hc : bankValid (s.sec.setBank w.bankB w.image).counter w.image = true := by
    rwa [Security.setBank_counter]
  simp only [firmwareWritten, hw, ne_eq, not_true, if_false, hc, if_true]

theorem firmwareWritten_counter (s : State) (n : Nat) :
    (firmwareWritten s n).sec.counter = s.sec.counter
      ∨ ∃ x : Security, x.counter = s.sec.counter ∧ (firmwareWritten s n).sec.counter = x.checkedCounter := by
  unfold firmwareWritten
  split
  next w hw =>
    split
    · exact .inl rfl
    dsimp only
    split
    · refine .inr ⟨{ s.sec.setBank w.bankB w.image with write := none }, Security.setBank_counter .., ?_⟩
      rw [State.complete_sec, Security.rollbackCheck_counter]
    · exact .inl (by simp [Security.setBank_counter])
  · exact .inl rfl

/-! ### One step -/

/-- From `s` to `s'` the counter does not fall, and it stays in the 64 fuses. -/
def CounterRises (s s' : State) : Prop :=
  s.sec.counter ≤ s'.sec.counter ∧ (s.sec.counter ≤ 64 → s'.sec.counter ≤ 64)

theorem CounterRises.of_eq {s s' : State} (h : s'.sec.counter = s.sec.counter) : CounterRises s s' :=
  ⟨Nat.le_of_eq h.symm, fun hs => h ▸ hs⟩

theorem CounterRises.of_check {s s' : State} {x : Security} (hx : x.counter = s.sec.counter)
    (h : s'.sec.counter = x.checkedCounter) : CounterRises s s' :=
  ⟨h ▸ hx ▸ x.counter_le_checkedCounter, fun hs => h ▸ Security.checkedCounter_le (hx ▸ hs)⟩

theorem exec_counterRises {i : Instr} {s s' : State} (h : exec i s = .next s') : CounterRises s s' := by
  by_cases hd : ∃ x, i = .dawnStageComplete x
  · obtain ⟨x, rfl⟩ := hd
    obtain rfl : dawnStageComplete s x = s' := Host.Outcome.next.inj h
    obtain hc | hc := dawnStageComplete_counter s x
    · exact .of_eq hc
    · exact .of_check rfl hc
  by_cases hf : ∃ n, i = .firmwareWriteComplete n
  · obtain ⟨n, rfl⟩ := hf
    obtain rfl : firmwareWritten s n = s' := Host.Outcome.next.inj h
    obtain hc | ⟨x, hx, hc⟩ := firmwareWritten_counter s n
    · exact .of_eq hc
    · exact .of_check hx hc
  · have hstays := exec_counterStays (fun x e => hd ⟨x, e⟩) (fun n e => hf ⟨n, e⟩) s
    rw [h] at hstays
    exact .of_eq hstays

/-- A step on an empty queue is a cycle of the clock; a command runs with the queue's rest. -/
theorem step_counterRises {s s' : State} (h : step s = .next s') : CounterRises s s' := by
  unfold step at h
  split at h
  · obtain rfl : s.passCycle = s' := Host.Outcome.next.inj h
    exact .of_eq (congrArg Security.counter (State.passCycle_sec s))
  next c rest _ => exact exec_counterRises (s := { s with pending := rest }) h

/-- Settles O60: only D6 and the end of an update check the banks; the check never lowers the counter and takes it to no
version above 64; every other command and the clock leave it as it is. -/
theorem rollbackCounterFollowsTheBanks : Obligations.RollbackCounterFollowsTheBanks := by
  intro s
  refine ⟨fun i hd h6 => ?_, fun w h hw hh hv => ?_, fun s' hs h => ?_⟩
  · exact ⟨_, rfl, by rw [dawnStageComplete_of_stage6 i hd h6, State.dawnD6_counter]; rfl⟩
  · refine ⟨_, rfl, ?_⟩
    rw [firmwareWritten_of_valid hw hv]
    exact ⟨complete_completed .ok 0 0 false hh, congrArg Security.counter (State.complete_sec ..)⟩
  · obtain ⟨hrise, hfuses⟩ := step_counterRises h
    exact ⟨hrise, hfuses hs⟩

end Sys2Proof.Machine
end
